-- ==== Sys2Proof/Word.lean ====
section
/-! DEFINITION. The word types of the machine (R1, R33) and their plainest arithmetic. -/

namespace Sys2Proof

/-- A byte of memory or of an instruction word. -/
abbrev Byte := BitVec 8
/-- A crew slot or a code ID field (R33). -/
abbrev W16 := BitVec 16
/-- A 32-bit control register, predicate, counter value or accumulator word. -/
abbrev W32 := BitVec 32
/-- A g or e register, a program counter, an address register. -/
abbrev Word := BitVec 64
/-- A vector register (R159). -/
abbrev W256 := BitVec 256

/-- A number as a 64-bit word, taken modulo 2^64. -/
abbrev word (n : Nat) : Word := BitVec.ofNat 64 n

/-- The low `n` bits of `x` read as two's complement. -/
def signedNat (n x : Nat) : Int :=
  let m := x % 2 ^ n
  if m < 2 ^ (n - 1) then m else (m : Int) - 2 ^ n

/-- `SignExtend` of an `n`-bit field to 64 bits (R4). -/
def sext64 (n x : Nat) : Word := BitVec.ofInt 64 (signedNat n x)

end Sys2Proof
end

