-- ==== Sys2Proof/Syntax.lean ====
section
/-! DEFINITION. The abstract syntax: one constructor per row of spec/opcode_table.json.

Rows 0 to 246 are the encoded instructions. Their operands are the raw operand fields of the
encoding, as natural numbers under the table's own field names (R23 to R31; `jj` is the field j of
GETS and PUTS); a signed field is read as signed where the meaning uses it. Rows 247 to 367 are the
device's own steps (file 95: each row is one step, whole and indivisible). They have no word and take
no operand here; what a step acts on (a core, a thread, an operation in flight, a register access)
stands in the state as its arguments, in the order that each docstring names: `core` is a core key
(1024 × die + L, or 4096 + n for hub core n), `thread` a thread number on it, `flight` an operation
travelling between agents, `entry` a put-and-get queue entry, `master` the master of a hub register
access (R434). The instructions with operand fields come first: the compiler numbers only so many
constructors that carry data. -/

namespace Sys2Proof

/-- One constructor per row of the opcode table. -/
inductive Instr where
  /-- ADD (R109): Writes the sum of g[a] and g[b], modulo 2^64, to g[d]. -/
  | add (d a b : Nat)
  /-- SUB (R109): Writes g[a] minus g[b], modulo 2^64, to g[d]. -/
  | sub (d a b : Nat)
  /-- AND (R109): Writes the bitwise AND of g[a] and g[b] to g[d]. -/
  | and (d a b : Nat)
  /-- OR (R109): Writes the bitwise OR of g[a] and g[b] to g[d]. -/
  | or (d a b : Nat)
  /-- XOR (R109): Writes the bitwise XOR of g[a] and g[b] to g[d]. -/
  | xor (d a b : Nat)
  /-- ANDN (R109): Writes g[a] AND NOT g[b] to g[d]. -/
  | andn (d a b : Nat)
  /-- SLL (R109): Shifts g[a] left by g[b][5:0] places into g[d]. -/
  | sll (d a b : Nat)
  /-- SRL (R109): Shifts g[a] right logically by g[b][5:0] places into g[d]. -/
  | srl (d a b : Nat)
  /-- SRA (R109): Shifts g[a] right arithmetically by g[b][5:0] places into g[d]. -/
  | sra (d a b : Nat)
  /-- ROL (R109): Rotates g[a] left by g[b][5:0] places into g[d]. -/
  | rol (d a b : Nat)
  /-- MIN (R109): Writes the signed minimum of g[a] and g[b] to g[d]. -/
  | min (d a b : Nat)
  /-- MAX (R109): Writes the signed maximum of g[a] and g[b] to g[d]. -/
  | max (d a b : Nat)
  /-- MINN (R109): Writes the unsigned minimum of g[a] and g[b] to g[d]. -/
  | minn (d a b : Nat)
  /-- MAXN (R109): Writes the unsigned maximum of g[a] and g[b] to g[d]. -/
  | maxn (d a b : Nat)
  /-- SLT (R109): Writes 1 to g[d] if g[a] is less than g[b], signed, else 0. -/
  | slt (d a b : Nat)
  /-- SLTN (R109): Writes 1 to g[d] if g[a] is less than g[b], unsigned, else 0. -/
  | sltn (d a b : Nat)
  /-- SEL (R109): Writes g[a] to g[d] if the old g[d] is non-zero, else g[b]. -/
  | sel (d a b : Nat)
  /-- ADDSH (R109): Writes g[a] plus g[b] times 2^sh, modulo 2^64, to g[d]. -/
  | addsh (d a b s : Nat)
  /-- MUL (R109): Writes the low 64 bits of g[a] times g[b] to g[d]. -/
  | mul (d a b : Nat)
  /-- MULH (R109): Writes the high 64 bits of the signed product to g[d]. -/
  | mulh (d a b : Nat)
  /-- MULHN (R109): Writes the high 64 bits of the unsigned product to g[d]. -/
  | mulhn (d a b : Nat)
  /-- DIV (R110): Writes the signed quotient to g[d], or traps DIVIDE_BY_ZERO at the end of its occupancy. -/
  | div (d a b : Nat)
  /-- DIVN (R110): Writes the unsigned quotient to g[d], or traps DIVIDE_BY_ZERO. -/
  | divn (d a b : Nat)
  /-- REM (R110): Writes the signed remainder to g[d], or traps DIVIDE_BY_ZERO. -/
  | rem (d a b : Nat)
  /-- REMN (R110): Writes the unsigned remainder to g[d], or traps DIVIDE_BY_ZERO. -/
  | remn (d a b : Nat)
  /-- CLZ (R109): Writes the count of leading zero bits of g[a] to g[d]. -/
  | clz (d a : Nat)
  /-- CTZ (R109): Writes the count of trailing zero bits of g[a] to g[d]. -/
  | ctz (d a : Nat)
  /-- POPC (R109): Writes the count of one bits of g[a] to g[d]. -/
  | popc (d a : Nat)
  /-- BSWAP (R109): Writes g[a] with its bytes reversed to g[d]. -/
  | bswap (d a : Nat)
  /-- SLLI (R111): Shifts g[a] left by an immediate count into g[d]. -/
  | slli (d a s h : Nat)
  /-- SRLI (R111): Shifts g[a] right logically by an immediate count into g[d]. -/
  | srli (d a s h : Nat)
  /-- SRAI (R111): Shifts g[a] right arithmetically by an immediate count into g[d]. -/
  | srai (d a s h : Nat)
  /-- ROLI (R111): Rotates g[a] left by an immediate count into g[d]. -/
  | roli (d a s h : Nat)
  /-- ADDI (R112): Adds the sign-extended imm16 to g[a] into g[d]. -/
  | addi (d a i : Nat)
  /-- ANDI (R112): ANDs the zero-extended imm16 with g[a] into g[d]. -/
  | andi (d a i : Nat)
  /-- ORI (R112): ORs the zero-extended imm16 with g[a] into g[d]. -/
  | ori (d a i : Nat)
  /-- XORI (R112): XORs the zero-extended imm16 with g[a] into g[d]. -/
  | xori (d a i : Nat)
  /-- SLTI (R112): Writes 1 to g[d] if g[a] is less than the signed immediate, else 0. -/
  | slti (d a i : Nat)
  /-- LUI (R113): Writes SignExtend(imm21 : 0x0000) to g[d]. -/
  | lui (d i : Nat)
  /-- ADDPC (R113): Writes PC plus SignExtend(imm21) times 65,536 to g[d]. -/
  | addpc (d i : Nat)
  /-- BEQ (R114): Branches when g[a] equals g[b]. -/
  | beq (a b o : Nat)
  /-- BNE (R114): Branches when g[a] differs from g[b]. -/
  | bne (a b o : Nat)
  /-- BLT (R114): Branches when g[a] is less than g[b], signed. -/
  | blt (a b o : Nat)
  /-- BGE (R114): Branches when g[a] is at least g[b], signed. -/
  | bge (a b o : Nat)
  /-- BLTN (R114): Branches when g[a] is less than g[b], unsigned. -/
  | bltn (a b o : Nat)
  /-- BGEN (R114): Branches when g[a] is at least g[b], unsigned. -/
  | bgen (a b o : Nat)
  /-- BANY (R114): Branches when g[a] AND g[b] is non-zero. -/
  | bany (a b o : Nat)
  /-- BNONE (R114): Branches when g[a] AND g[b] is zero. -/
  | bnone (a b o : Nat)
  /-- J (R114): Jumps to PC plus twice the signed off26. -/
  | j (o : Nat)
  /-- JAL (R114): Jumps to PC plus twice off26 and links PC + 4 into g1. -/
  | jal (o : Nat)
  /-- JALR (R114): Jumps to g[a] plus the signed immediate and links into g[d]. -/
  | jalr (d a i : Nat)
  /-- LD (R185): Loads 8 to 64 bits from the local store into g[d], sign- or zero-extended by w. -/
  | ld (d a w o : Nat)
  /-- ST (R185): Stores the low 8 to 64 bits of g[d] into the local store, leaving word states unchanged. -/
  | st (d a w o : Nat)
  /-- C_MV (R117): 16-bit form of ADD gd, gs, g0. -/
  | cMv (d s : Nat)
  /-- C_ADD (R117): 16-bit form of ADD gd, gd, gs. -/
  | cAdd (d s : Nat)
  /-- C_SUB (R117): 16-bit form of SUB gd, gd, gs. -/
  | cSub (d s : Nat)
  /-- C_AND (R117): 16-bit form of AND gd, gd, gs. -/
  | cAnd (d s : Nat)
  /-- C_OR (R117): 16-bit form of OR gd, gd, gs. -/
  | cOr (d s : Nat)
  /-- C_ADDI (R117): 16-bit form of ADDI gd, gd, imm with a 5-bit signed immediate. -/
  | cAddi (d i : Nat)
  /-- C_LI (R117): 16-bit form of ADDI gd, g0, imm. -/
  | cLi (d i : Nat)
  /-- C_SLLI (R117): 16-bit form of SLLI gd, gd, sh. -/
  | cSlli (d s : Nat)
  /-- C_SRLI (R117): 16-bit form of SRLI gd, gd, sh. -/
  | cSrli (d s : Nat)
  /-- C_SRAI (R117): 16-bit form of SRAI gd, gd, sh. -/
  | cSrai (d s : Nat)
  /-- C_LW (R117): 16-bit form of LD gd, 0(gs) with w = 2. -/
  | cLw (d s : Nat)
  /-- C_SW (R117): 16-bit form of ST gd, 0(gs) with w = 2. -/
  | cSw (d s : Nat)
  /-- C_BEQZ (R117): 16-bit form of BEQ gd, g0 with a short halfword offset. -/
  | cBeqz (d o : Nat)
  /-- C_BNEZ (R117): 16-bit form of BNE gd, g0 with a short halfword offset. -/
  | cBnez (d o : Nat)
  /-- C_JR (R117): 16-bit form of JALR g0, gs, 0. -/
  | cJr (s : Nat)
  /-- EXTI (R37): Writes imm16 into one 16-bit slice of e[n]. -/
  | exti (n s i : Nat)
  /-- EXTR (R37): Copies g[a] into e[n]. -/
  | extr (n a : Nat)
  /-- LDFE (R189): Waits for a full word, loads it and sets it empty, parking or reaching the wait limit. -/
  | ldfe (d a q : Nat)
  /-- LDF (R189): Waits for a full word and loads it, leaving it full. -/
  | ldf (d a q : Nat)
  /-- STFE (R189): Waits for an empty word, stores g[d] and sets it full. -/
  | stfe (d a q : Nat)
  /-- STF (R188): Stores g[d] and sets the word full whatever its state. -/
  | stf (d a q : Nat)
  /-- FESET (R188): Sets the state of a word or pair to empty or full. -/
  | feset (a s q : Nat)
  /-- FEQ (R196): Writes the state code of a word to g[d]. -/
  | feq (d a : Nat)
  /-- FEQ_TAKE (R197): Removes the oldest watch entry of a word and returns its marked handle, or 0. -/
  | feqTake (d a : Nat)
  /-- CAS (R199): Compares a local word with g[d] and, if equal, writes g[b], returning the old value. -/
  | cas (d a b q : Nat)
  /-- AMO_ADD (R199): Atomically adds g[b] to a local word and returns the old value. -/
  | amoAdd (d a b q : Nat)
  /-- AMO_AND (R199): Atomically ANDs g[b] into a local word and returns the old value. -/
  | amoAnd (d a b q : Nat)
  /-- AMO_OR (R199): Atomically ORs g[b] into a local word and returns the old value. -/
  | amoOr (d a b q : Nat)
  /-- AMO_XOR (R199): Atomically XORs g[b] into a local word and returns the old value. -/
  | amoXor (d a b q : Nat)
  /-- AMO_MIN (R199): Atomically writes the signed minimum into a local word and returns the old value. -/
  | amoMin (d a b q : Nat)
  /-- AMO_MAX (R199): Atomically writes the signed maximum into a local word and returns the old value. -/
  | amoMax (d a b q : Nat)
  /-- AMO_MINN (R199): Atomically writes the unsigned minimum into a local word and returns the old value. -/
  | amoMinn (d a b q : Nat)
  /-- AMO_MAXN (R199): Atomically writes the unsigned maximum into a local word and returns the old value. -/
  | amoMaxn (d a b q : Nat)
  /-- AMO_SWAP (R199): Atomically swaps g[b] into a local word and returns the old value. -/
  | amoSwap (d a b q : Nat)
  /-- VINT_VADD (R163): Adds integer elements modulo 2^N in active lanes. -/
  | vintVadd (d a b t q : Nat)
  /-- VINT_VSUB (R163): Subtracts integer elements modulo 2^N in active lanes. -/
  | vintVsub (d a b t q : Nat)
  /-- VINT_VMUL (R163): Multiplies integer elements modulo 2^N in active lanes. -/
  | vintVmul (d a b t q : Nat)
  /-- VINT_VMIN (R163): Writes the smaller integer element in active lanes. -/
  | vintVmin (d a b t q : Nat)
  /-- VINT_VMAX (R163): Writes the larger integer element in active lanes. -/
  | vintVmax (d a b t q : Nat)
  /-- VINT_VABS (R163): Writes the absolute value of signed integer elements. -/
  | vintVabs (d a t q : Nat)
  /-- VINT_VNEG (R163): Negates signed integer elements modulo 2^N. -/
  | vintVneg (d a t q : Nat)
  /-- VINT_VAND (R163): Bitwise AND of elements in active lanes. -/
  | vintVand (d a b t q : Nat)
  /-- VINT_VOR (R163): Bitwise OR of elements in active lanes. -/
  | vintVor (d a b t q : Nat)
  /-- VINT_VXOR (R163): Bitwise XOR of elements in active lanes. -/
  | vintVxor (d a b t q : Nat)
  /-- VINT_VSHL (R163): Shifts integer elements left by per-lane counts. -/
  | vintVshl (d a b t q : Nat)
  /-- VINT_VSHR (R163): Shifts integer elements right, arithmetic or logical by type. -/
  | vintVshr (d a b t q : Nat)
  /-- VINT_VCMP (R167): Compares integer elements and writes a predicate. -/
  | vintVcmp (c p a b t q : Nat)
  /-- VINT_VRED (R168): Reduces the active integer elements by a tree into element 0. -/
  | vintVred (d a k t q : Nat)
  /-- VDOT4 (R164): Accumulates four-way integer dot products into wider elements. -/
  | vdot4 (d a b t q : Nat)
  /-- VFLT_VADD (R165): Adds float elements with one rounding under FPC. -/
  | vfltVadd (d a b t q : Nat)
  /-- VFLT_VSUB (R165): Subtracts float elements with one rounding under FPC. -/
  | vfltVsub (d a b t q : Nat)
  /-- VFLT_VMUL (R165): Multiplies float elements with one rounding under FPC. -/
  | vfltVmul (d a b t q : Nat)
  /-- VFLT_VMIN (R166): IEEE minimum of float elements. -/
  | vfltVmin (d a b t q : Nat)
  /-- VFLT_VMAX (R166): IEEE maximum of float elements. -/
  | vfltVmax (d a b t q : Nat)
  /-- VFLT_VABS (R165): Exact absolute value of float elements. -/
  | vfltVabs (d a t q : Nat)
  /-- VFLT_VNEG (R165): Exact negation of float elements. -/
  | vfltVneg (d a t q : Nat)
  /-- VFMA (R165): Fused multiply-add A × B + D with one rounding. -/
  | vfma (d a b t q : Nat)
  /-- VFNMA (R165): Fused D − A × B with one rounding. -/
  | vfnma (d a b t q : Nat)
  /-- VMINNUM (R166): minimumNumber of float elements. -/
  | vminnum (d a b t q : Nat)
  /-- VMAXNUM (R166): maximumNumber of float elements. -/
  | vmaxnum (d a b t q : Nat)
  /-- VFLT_VCMP (R167): Compares float elements and writes a predicate. -/
  | vfltVcmp (c p a b t q : Nat)
  /-- VFLT_VRED (R168): Reduces the active float elements by a rounded tree into element 0. -/
  | vfltVred (d a k t q : Nat)
  /-- VSEL (R170): Selects each element from va or vb by the predicate. -/
  | vsel (d a b t q : Nat)
  /-- VSPLAT (R170): Writes the low bits of g[a] into every active element. -/
  | vsplat (d a t q : Nat)
  /-- VPERM (R170): Permutes elements of va by the indices in vb. -/
  | vperm (d a b t q : Nat)
  /-- VPACK (R171): Converts va and vb into a destination type of half the width. -/
  | vpack (d a b t : Nat)
  /-- VUNPACK (R172): Widens half of va into the whole of vd. -/
  | vunpack (d a h t : Nat)
  /-- VCVT (R173): Converts elements from the source type to the destination type. -/
  | vcvt (d a u t q : Nat)
  /-- VRCP (R174): Correctly rounded reciprocal of each element. -/
  | vrcp (d a t q : Nat)
  /-- VRSQRT (R174): Correctly rounded reciprocal square root. -/
  | vrsqrt (d a t q : Nat)
  /-- VSQRT (R174): Correctly rounded square root. -/
  | vsqrt (d a t q : Nat)
  /-- VEXP2 (R174): Correctly rounded 2^x. -/
  | vexp2 (d a t q : Nat)
  /-- VLOG2 (R174): Correctly rounded log2 x. -/
  | vlog2 (d a t q : Nat)
  /-- VSINPI (R174): Correctly rounded sin(πx). -/
  | vsinpi (d a t q : Nat)
  /-- VCOSPI (R174): Correctly rounded cos(πx). -/
  | vcospi (d a t q : Nat)
  /-- VLD (R187): Loads contiguous active elements from the local store. -/
  | vld (d a b t q : Nat)
  /-- VST (R187): Stores contiguous active elements to the local store. -/
  | vst (d a b t q : Nat)
  /-- VLDS (R187): Loads active elements at a signed stride. -/
  | vlds (d a b t q : Nat)
  /-- VLDX (R187): Gathers active elements by an index vector. -/
  | vldx (d a b t q : Nat)
  /-- VSTX (R187): Scatters active elements by an index vector. -/
  | vstx (d a b t q : Nat)
  /-- SPAWN (R137): Requests a new thread on a target core and parks for the reply. -/
  | spawn (d a b q : Nat)
  /-- QUIT (R138): Leaves any crew and parks for the drain before the thread ends. -/
  | quit (a : Nat)
  /-- REAP (R139): Takes the oldest child exit record, parking while none is present. -/
  | reap (d b q : Nat)
  /-- KILL (R140): Ends the thread named by a handle, parking for the reply. -/
  | kill (a q : Nat)
  /-- PRI (R142): Returns the old PRIO and sets a new one, capped at CEIL. -/
  | pri (d a : Nat)
  /-- MIGRATE (R144): Moves the issuer to another core as a message. -/
  | migrate (a q : Nat)
  /-- WAKE (R143): Makes a parked thread of the core re-test its condition. -/
  | wake (a q : Nat)
  /-- JOIN (R145): Adds the issuer to a crew slot. -/
  | join (a : Nat)
  /-- BARTRY (R148): Arrives at the crew barrier without parking and reports completion. -/
  | bartry (q : Nat)
  /-- GANG (R152): Enrols followers into a gang, or with n = 0 parks in gang await. -/
  | gang (a n q : Nat)
  /-- PART (R156): Computes the issuer's slice of an index range by crew or gang rank. -/
  | part (d a b q : Nat)
  /-- GET (R217): Enqueues a linear copy from DRAM into the local store. -/
  | get (k m b q : Nat)
  /-- PUT (R217): Enqueues a linear copy from the local store to DRAM. -/
  | put (k m b q : Nat)
  /-- GETS (R219): Enqueues a shaped copy from DRAM into the local store. -/
  | gets (k m p jj z : Nat)
  /-- PUTS (R219): Enqueues a shaped copy from the local store to DRAM. -/
  | puts (k m p jj z : Nat)
  /-- RPUT (R218): Enqueues a write into another core's local store through a window. -/
  | rput (k m b q : Nat)
  /-- GAMO_ADD (R220): Enqueues an atomic add at a DRAM home returning the old value locally. -/
  | gamoAdd (k m t w q : Nat)
  /-- GAMO_AND (R220): Enqueues an atomic AND at a DRAM home. -/
  | gamoAnd (k m t w q : Nat)
  /-- GAMO_OR (R220): Enqueues an atomic OR at a DRAM home. -/
  | gamoOr (k m t w q : Nat)
  /-- GAMO_XOR (R220): Enqueues an atomic XOR at a DRAM home. -/
  | gamoXor (k m t w q : Nat)
  /-- GAMO_MIN (R220): Enqueues an atomic signed minimum at a DRAM home. -/
  | gamoMin (k m t w q : Nat)
  /-- GAMO_MAX (R220): Enqueues an atomic signed maximum at a DRAM home. -/
  | gamoMax (k m t w q : Nat)
  /-- GAMO_MINN (R220): Enqueues an atomic unsigned minimum at a DRAM home. -/
  | gamoMinn (k m t w q : Nat)
  /-- GAMO_MAXN (R220): Enqueues an atomic unsigned maximum at a DRAM home. -/
  | gamoMaxn (k m t w q : Nat)
  /-- GAMO_SWAP (R220): Enqueues an atomic swap at a DRAM home. -/
  | gamoSwap (k m t w q : Nat)
  /-- KADD (R221): Enqueues a posted increment to any counter of the domain. -/
  | kadd (a b q : Nat)
  /-- KSET (R221): Sets the VALUE of a local counter. -/
  | kset (k r : Nat)
  /-- KREAD (R221): Reads a local counter's VALUE and OUTSTANDING into a register. -/
  | kread (k r : Nat)
  /-- TIERPF (R222): Asks the hub to migrate the pages of a range into a tier. -/
  | tierpf (k m r q : Nat)
  /-- QSTAT (R223): Reads the copy queue status into g[d]. -/
  | qstat (d : Nat)
  /-- BIND (R237): Adds a binding of a DRAM region to a sync object at its hub. -/
  | bind (d a b q : Nat)
  /-- UNBIND (R238): Removes a binding of a region to a sync object. -/
  | unbind (d a b q : Nat)
  /-- ACQ_X (R239): Requests an exclusive hold on a sync object, parking on the grant slot if queued. -/
  | acqX (a b : Nat)
  /-- ACQ_S (R239): Requests a shared hold on a sync object, parking on the grant slot if queued. -/
  | acqS (a b : Nat)
  /-- REL (R241): Waits for puts into bound regions, then releases the hold. -/
  | rel (a : Nat)
  /-- WAITN (R244): Waits until each per-class count is at or below its limit. -/
  | waitn (a : Nat)
  /-- WAITC (R245): Parks until a local counter reaches a threshold. -/
  | waitc (k r : Nat)
  /-- RCAS (R246): Sends a compare-and-swap to another core's bank and parks for the reply. -/
  | rcas (d a b q : Nat)
  /-- RAMO_ADD (R246): Sends an atomic add to another core's bank and parks for the reply. -/
  | ramoAdd (d a b q : Nat)
  /-- RAMO_AND (R246): Sends an atomic AND to another core's bank. -/
  | ramoAnd (d a b q : Nat)
  /-- RAMO_OR (R246): Sends an atomic OR to another core's bank. -/
  | ramoOr (d a b q : Nat)
  /-- RAMO_XOR (R246): Sends an atomic XOR to another core's bank. -/
  | ramoXor (d a b q : Nat)
  /-- RAMO_MIN (R246): Sends an atomic signed minimum to another core's bank. -/
  | ramoMin (d a b q : Nat)
  /-- RAMO_MAX (R246): Sends an atomic signed maximum to another core's bank. -/
  | ramoMax (d a b q : Nat)
  /-- RAMO_MINN (R246): Sends an atomic unsigned minimum to another core's bank. -/
  | ramoMinn (d a b q : Nat)
  /-- RAMO_MAXN (R246): Sends an atomic unsigned maximum to another core's bank. -/
  | ramoMaxn (d a b q : Nat)
  /-- RAMO_SWAP (R246): Sends an atomic swap to another core's bank. -/
  | ramoSwap (d a b q : Nat)
  /-- IFLUSH (R248): Enqueues a flush of a code ID's instruction-cache blocks over a scope. -/
  | iflush (k a s q : Nat)
  /-- MLDW (R274): Sends a weight image load of the future shadow plane to the weight loader. -/
  | mldw (a q : Nat)
  /-- MSTREAM (R276): Streams dense activation rows against the active plane into an accumulator plane. -/
  | mstream (d a b q : Nat)
  /-- MSTREAMS (R276): Streams activation rows against a 2:4-compressed plane. -/
  | mstreams (d a b q : Nat)
  /-- MSTREAMD (R278): Streams FP64 rows with fused multiply-adds into an accumulator pair. -/
  | mstreamd (d a b q : Nat)
  /-- MCOMP (R280): Builds a 2:4-compressed weight image from a dense one in the weight loader. -/
  | mcomp (a b q : Nat)
  /-- AZERO (R281): Zeroes an accumulator plane and clears its poison bits. -/
  | azero (d : Nat)
  /-- ALDR (R282): Loads accumulator rows from the local store. -/
  | aldr (d a b : Nat)
  /-- ASTR (R282): Stores accumulator rows to the local store. -/
  | astr (d a b : Nat)
  /-- AMOVE (R281): Copies one accumulator plane and its poison bits to another. -/
  | amove (d a : Nat)
  /-- AOUT (R283): Writes accumulator rows scaled, optionally rectified and converted to an output format. -/
  | aout (d a b : Nat)
  /-- FBREV (R297): Permutes a transform layout into bit-reversed order. -/
  | fbrev (d b : Nat)
  /-- FPASS (R298): Performs one radix-2 or radix-4 decimation-in-time pass. -/
  | fpass (d b : Nat)
  /-- FTWG (R300): Writes generated twiddles into a layout. -/
  | ftwg (d b : Nat)
  /-- FTWM (R301): Multiplies each layout element by a twiddle. -/
  | ftwm (d b : Nat)
  /-- FCMUL (R302): Multiplies two layouts element by element. -/
  | fcmul (d a b : Nat)
  /-- CHBIND (R314): Sets the context's upstream and downstream channel bindings. -/
  | chbind (u v : Nat)
  /-- ENQ (R315): Pushes a value downstream without blocking. -/
  | enq (a q : Nat)
  /-- DEQ (R315): Pops a value from the upstream channel without blocking. -/
  | deq (d q : Nat)
  /-- CHWM (R316): Reads a channel's status word and optionally sets its watermarks. -/
  | chwm (d a c : Nat)
  /-- SEND (R317): Sends a 16-byte message to a core's inbox and parks for the reply. -/
  | send (a b q : Nat)
  /-- RECV (R318): Takes the oldest message of the core's inbox. -/
  | recv (d b q : Nat)
  /-- STAGEDEF (R320): Defines a keyed stage on the core, or with NONE, NONE ends it. -/
  | stagedef (a b q : Nat)
  /-- KRECV (R325): Takes the role's oldest pending record without suspending. -/
  | krecv (q : Nat)
  /-- KLOOK (R326): Reads the state of a key in the core's stage. -/
  | klook (d a : Nat)
  /-- TPOST (R349): Posts a task record and footprint block and parks for the ticket. -/
  | tpost (d a q : Nat)
  /-- TFOOT (R348): Stores a checked footprint block of up to four regions. -/
  | tfoot (a n q : Nat)
  /-- TSTAT (R351): Reads the state of a task from the hub. -/
  | tstat (d a : Nat)
  /-- TWAIT (R352): Waits until a DRAM timeline word reaches a value. -/
  | twait (a b : Nat)
  /-- TRAP (R380): Raises SOFTWARE_TRAP with XVAL = g[a]. -/
  | trap (a : Nat)
  /-- CSRR (R382): Reads a control register into g[d]. -/
  | csrr (d n m : Nat)
  /-- CSRW (R382): Writes a control register, returning its old value. -/
  | csrw (d a n m : Nat)
  /-- CSRS (R382): Sets bits of a control register, returning its old value. -/
  | csrs (d a n m : Nat)
  /-- CSRC (R382): Clears bits of a control register, returning its old value. -/
  | csrc (d a n m : Nat)
  /-- SNAP (R383): Fires the snapshot trigger with a tag. -/
  | snap (a : Nat)
  /-- CTXSAVE (R385): Writes a held or halted thread's context image to DRAM. -/
  | ctxsave (a b q : Nat)
  /-- CTXLOAD (R385): Checks and loads a context image into a held or halted thread. -/
  | ctxload (a b q : Nat)
  /-- TLBINV (R387): Invalidates cached translations and parks until every cluster has dropped them. -/
  | tlbinv (a b : Nat)
  /-- DOFFER (R405): Offers an owned frame to another kernel. -/
  | doffer (d a b q : Nat)
  /-- DACCEPT (R405): Accepts an offered frame after a transit. -/
  | daccept (d a q : Nat)
  /-- DREJECT (R405): Rejects or withdraws an offer. -/
  | dreject (d a q : Nat)
  /-- DLEND (R405): Lends an owned frame to a borrower with a recall deadline. -/
  | dlend (d a b q : Nat)
  /-- DRECALL (R405): Recalls a lent frame and starts its deadline. -/
  | drecall (d a q : Nat)
  /-- DRELEASE (R405): Returns a borrowed frame, or makes an owned frame ZERO_ON_READ. -/
  | drelease (d a q : Nat)
  /-- DQUERY (R405): Reads a frame's deed entry as visible to the issuer. -/
  | dquery (d a : Nat)
  /-- PSPLIT (R411): Splits an idle partition into its two child nodes. -/
  | psplit (d a b q : Nat)
  /-- PMERGE (R411): Merges an idle partition with its sibling. -/
  | pmerge (d a q : Nat)
  /-- HEATSET (R412): Writes a heat sheet entry from a heat record. -/
  | heatset (d a b q : Nat)
  /-- CURTAIN (R416): Runs the curtain on an idle partition and places a token. -/
  | curtain (d a b q : Nat)
  /-- TOKEN (R417): Reads a partition's token mailbox, or admits a tenant key and signs a statement. -/
  | token (d a b q : Nat)
  /-- C_NOP (R27): 16-bit word with no effect. -/
  | cNop
  /-- YIELD (R141): Swaps the issuer to the wings if an equal or higher PENDING thread waits. -/
  | yield
  /-- LEAVE (R146): Removes the issuer from its crew. -/
  | leave
  /-- BAR (R148): Arrives at the crew barrier and parks until the phase completes. -/
  | bar
  /-- UNGANG (R154): Ends the gang after every follower has executed it. -/
  | ungang
  /-- WAITM (R157): Parks until the core's inbox holds a message. -/
  | waitm
  /-- FENCE_CORE (R243): Waits until the thread's footprints have retired and empties its fetch buffer. -/
  | fenceCore
  /-- FENCE_CLUS (R243): As FENCE.core, also waiting for RPUT and KADD acknowledgements in the cluster. -/
  | fenceClus
  /-- FENCE_DEV (R243): As FENCE.clus for the device, also waiting for device-homed puts to complete. -/
  | fenceDev
  /-- FENCE_DOM (R243): Waits until every entry of the thread on any device is complete. -/
  | fenceDom
  /-- MSWAP (R275): Queues an exchange of the active and shadow weight planes. -/
  | mswap
  /-- KYIELD (R325): Takes the next pending record, retires a finale role, or suspends the role. -/
  | kyield
  /-- KRETIRE (R325): Retires the role and re-dispatches its pending records. -/
  | kretire
  /-- TDONE (R350): Ends the task's execution after its entries drain. -/
  | tdone
  /-- ECALL (R380): Raises ENVIRONMENT_CALL in U mode, or sends a monitor call in S mode. -/
  | ecall
  /-- EBREAK (R380): Raises BREAKPOINT. -/
  | ebreak
  /-- XRET (R381): Returns from a handler to XPC, restoring mode and priority. -/
  | xret
  /-- ILLEGAL_ENCODING_DECODE (R28): A fetched word that fails a decode check raises its cause and changes no state. Arguments: len, word. -/
  | illegalEncodingDecode
  /-- FETCH_FILL (R47): A fetch-agent DRAM read completes and the block is delivered to every cluster running the code ID. Arguments: core, thread. -/
  | fetchFill
  /-- IFLUSH_COMPLETE (R49): The flush has invalidated every block of the code ID in scope and the counter is incremented. Arguments: core, entry. -/
  | iflushComplete
  /-- CAUSE_TAKEN (R376): At an instruction boundary the thread takes the first pending cause. Arguments: core, thread. -/
  | causeTaken
  /-- MONITOR_COMPLETION (R95): The Cox monitor completes an instruction that met a subnormal operand and resumes the context. Arguments: core, thread. -/
  | monitorCompletion
  /-- DIVIDE_BY_ZERO_DELIVERY (R110): At the end of a divide's occupancy its DIVIDE_BY_ZERO is delivered. Arguments: core, thread. -/
  | divideByZeroDelivery
  /-- LS_CORRECTED_WRITEBACK (R183): A corrected local-store word is written back in a bank cycle that engines leave free. Arguments: core, word. -/
  | lsCorrectedWriteback
  /-- CORE_REMAP (R11): At a heat boundary or when the partition is next idle, a retired core is remapped to an understudy. Arguments: core. -/
  | coreRemap
  /-- WINGS_SWAP_OUT (R131): When a PENDING thread outranks an eligible live thread, the core swaps a victim out to the wings. Arguments: core. -/
  | wingsSwapOut
  /-- WINGS_SLOT_GRANT (R131): A freed live slot goes to the highest-EFF PENDING thread, which moves in from the wings. Arguments: core. -/
  | wingsSlotGrant
  /-- WINGS_MOVE_DONE (R130): A 16-cycle move of a context image through the wings port ends. Arguments: core, thread. -/
  | wingsMoveDone
  /-- SPAWN_REQUEST (R137): A spawn request reaches its target core, which builds the new thread and replies. Arguments: flight. -/
  | spawnRequest
  /-- SPAWN_REPLY (R137): The spawn reply reaches the spawner and ends its park. Arguments: flight. -/
  | spawnReply
  /-- KILL_REQUEST (R140): A kill reaches the target core and ends the target thread. Arguments: flight. -/
  | killRequest
  /-- KILL_REPLY (R140): The kill reply reaches the issuer and ends its park. Arguments: flight. -/
  | killReply
  /-- MIGRATE_REQUEST (R144): A migrating context reaches the target core, which accepts or refuses it. Arguments: flight. -/
  | migrateRequest
  /-- MIGRATE_REPLY (R144): The target's answer reaches the old core, which resumes or releases the thread. Arguments: flight. -/
  | migrateReply
  /-- QUIT_DRAIN_END (R138): A quitting thread's entries and replies are complete; it posts its reap record and frees its slot. Arguments: core, thread. -/
  | quitDrainEnd
  /-- REAP_RECORD (R138): A reap record reaches the spawner core's reap queue and wakes a REAP. Arguments: flight. -/
  | reapRecord
  /-- CREW_PHASE_COMPLETE (R147): Every member has arrived live; the phase completes, ranks are renumbered and BAR waiters wake. Arguments: crew. -/
  | crewPhaseComplete
  /-- GANG_BUFFER_EXECUTE (R153): A follower executes its oldest buffered instruction in its own turn. Arguments: core, thread. -/
  | gangBufferExecute
  /-- GANG_VRED_COMBINE (R169): Once every member's partial is present, the gang reduction completes in each member. Arguments: core, thread. -/
  | gangVredCombine
  /-- UMPIRE_QUEUE_SELECT (R120): The Umpire picks the next ready queue by priority and round robin and acts on its next packet. No argument. -/
  | umpireQueueSelect
  /-- LAUNCH (R338): The Umpire acts on a LAUNCH packet, placing it on idle cores of its partition. Arguments: slot. -/
  | launch
  /-- LAUNCH_PLACEMENT (R121): Once enough cores of the partition are idle, the Umpire reserves them and sends placement commands. Arguments: launchId. -/
  | launchPlacement
  /-- PLACEMENT_COMMAND (R122): A Cox loads one core for a launch and returns its permit. Arguments: launchId, core. -/
  | placementCommand
  /-- LAUNCH_GATE_LIFT (R122): When every R16 condition holds, a barrier-tree broadcast lifts the launch gate on every core. Arguments: launchId. -/
  | launchGateLift
  /-- LAUNCH_COMPLETE (R338): Every thread of a launch has quit and drained, and its DONE value updates the timeline. Arguments: launchId. -/
  | launchComplete
  /-- WAIT (R340): A WAIT packet at the head of its queue tests a timeline word. Arguments: slot. -/
  | wait
  /-- SIGNAL (R340): After earlier launches complete, a SIGNAL packet updates the queue's timeline. Arguments: slot. -/
  | signal
  /-- SEED (R341): A SEED packet's task entries are checked and posted in array order. Arguments: slot. -/
  | seed
  /-- QADMIT (R335): A write of a QCB address admits a queue into a slot or the admission list. Arguments: master, addr. -/
  | qadmit
  /-- DOORBELL (R335): A doorbell write makes the named queue re-read its WRITE field. Arguments: qid. -/
  | doorbell
  /-- COPY_ENTRY_SERVICE (R209): The copy engine serves a waiting queue entry in priority order. Arguments: core, entry. -/
  | copyEntryService
  /-- COPY_ENTRY_COMPLETE (R211): An entry's operation completes; its counter's OUTSTANDING falls and VALUE rises. Arguments: core, entry. -/
  | copyEntryComplete
  /-- COPY_ENTRY_FAIL (R226): An entry fails; its counter's OUTSTANDING falls and the thread receives a REMOTE cause or the kernel a record. Arguments: core, entry. -/
  | copyEntryFail
  /-- TRANSLATION_WALK (R228): A walker completes a five-level walk and fills the translation cache after the deed check. Arguments: walk. -/
  | translationWalk
  /-- TRANSLATION_FAULT_STALL (R230): A stalling fault joins or takes a fault-merger key, waiting for one if none is free. Arguments: walk. -/
  | translationFaultStall
  /-- FAULT_RECORD_WRITE (R375): A waiting fault record is written into the kernel's fault queue once room exists, and the note counter is raised. Arguments: kernel. -/
  | faultRecordWrite
  /-- FAULT_REPLY_REPLAY (R230): A reply with bit 16 = 0 replays the key's entries, or resumes a forwarded thread. Arguments: die, seq. -/
  | faultReplyReplay
  /-- FAULT_REPLY_FAIL (R230): A reply with bit 16 = 1 fails the key's entries, or kills a forwarded thread. Arguments: die, seq, cause. -/
  | faultReplyFail
  /-- TIER_MIGRATE_PAGE (R222): The hub migrates one page of a TIERPF range and rewrites its leaf. Arguments: core, entry. -/
  | tierMigratePage
  /-- DIRECT_READ (R232): A base die checks a direct read against its access-control table and serves or refuses it. Arguments: stack, device, tag, addr, len. -/
  | directRead
  /-- RPUT_WRITE (R218): An RPUT's data arrives and is written word by word at the destination banks. Arguments: flight. -/
  | rputWrite
  /-- COUNTER_INCREMENT (R221): A posted increment is applied at the destination counter and wakes its WAITC waiters. Arguments: flight. -/
  | counterIncrement
  /-- COUNTER_WINDOW_WRITE (R215): A host 32-bit write to a counter window adds to VALUE as a KADD. Arguments: addr, size, value. -/
  | counterWindowWrite
  /-- LS_WINDOW_ACCESS (R215): A host access to a local-store window performs a plain access or faults. Arguments: addr, size, write, value. -/
  | lsWindowAccess
  /-- REMOTE_ATOMIC_PERFORM (R246): An RCAS or RAMO arrives at the target bank, is performed, and a reply is sent. Arguments: flight. -/
  | remoteAtomicPerform
  /-- REMOTE_ATOMIC_REPLY (R247): The reply or answer reaches the issuer, writing g[d] or raising a REMOTE cause. Arguments: flight. -/
  | remoteAtomicReply
  /-- REMOTE_ATOMIC_CANCEL (R247): After 2^22 cycles without reply the issuer sends a cancel. Arguments: core, thread. -/
  | remoteAtomicCancel
  /-- CANCEL_AT_TARGET (R247): A cancel reaches the target, which discards an unperformed request or replies. Arguments: flight. -/
  | cancelAtTarget
  /-- BINDING_REQUEST (R237): A BIND or UNBIND request is applied to the partition's binding table at the object's hub. Arguments: flight. -/
  | bindingRequest
  /-- LOCK_REQUEST (R240): An ACQ request reaches the object's hub and is granted or queued. Arguments: flight. -/
  | lockRequest
  /-- LOCK_RELEASE (R241): A release reaches the hub, ends the hold and grants queued requests. Arguments: flight. -/
  | lockRelease
  /-- LOCK_GRANT (R239): A grant writes the release count with full bits into the slot and ends the ACQ park. Arguments: flight. -/
  | lockGrant
  /-- HUB_ANSWER (R403): A hub's answer reaches a parked issuer and writes its status. Arguments: flight. -/
  | hubAnswer
  /-- MESSAGE_ARRIVAL (R317): A message reaches an inbox, is accepted or refused, and wakes WAITM waiters. Arguments: flight. -/
  | messageArrival
  /-- MESSAGE_REPLY (R317): The inbox's answer reaches the sender and ends its park. Arguments: flight. -/
  | messageReply
  /-- CHANNEL_PUSH_ARRIVAL (R310): A pushed value reaches a neighbour's channel and serves waiting consumers. Arguments: flight. -/
  | channelPushArrival
  /-- CHANNEL_CREDIT_RETURN (R310): A popped value's credit returns to the producing core and serves waiting producers. Arguments: flight. -/
  | channelCreditReturn
  /-- CHANNEL_DEADLOCK (R312): A cycle of wait edges parked for 2^20 cycles stops its threads and sends one record. Arguments: core, thread. -/
  | channelDeadlock
  /-- RECORD_DISPATCH (R321): The stage dispatcher handles the next input record by the state of its key. Arguments: core. -/
  | recordDispatch
  /-- ROLE_SPILL (R323): A role's image has been written to the spill area and entered in the spill index. Arguments: core, key. -/
  | roleSpill
  /-- ROLE_FETCH_BACK (R323): A spilled role's image has been read back into the wings. Arguments: core, key. -/
  | roleFetchBack
  /-- IDLE_LIMIT_EXPIRY (R324): A role suspended past the idle limit is entered at the finale. Arguments: core, key. -/
  | idleLimitExpiry
  /-- TASK_POST_AT_HUB (R349): The task engine receives a posted record, allocates a ticket and records edges. Arguments: flight. -/
  | taskPostAtHub
  /-- TASK_DISPATCH (R354): The earliest dispatchable task becomes a thread on a task core. Arguments: part. -/
  | taskDispatch
  /-- TASK_COMMIT (R360): The finished oldest task performs its held puts, completes its entries and raises the floor. Arguments: part. -/
  | taskCommit
  /-- ROOM_ABORT (R364): Lack of room for the oldest task aborts the latest speculative task. Arguments: part. -/
  | roomAbort
  /-- WEIGHT_LOAD (R274): The weight loader loads an image into the shadow plane and sets its state. Arguments: core. -/
  | weightLoad
  /-- WEIGHT_COMPRESS (R280): The weight loader writes the compressed image of an MCOMP. Arguments: core. -/
  | weightCompress
  /-- PLANE_SWAP (R275): An MSWAP at the head of the engine queue exchanges the active and shadow planes. Arguments: core. -/
  | planeSwap
  /-- STREAM_ROW_WRITE (R277): A streamed row's sums are written into its accumulator row. Arguments: core. -/
  | streamRowWrite
  /-- ACCUMULATOR_WRITE_OUT (R282): The engine writes ASTR or AOUT rows into the local store. Arguments: core. -/
  | accumulatorWriteOut
  /-- TRANSFORM_EXECUTE (R303): The engine performs an accepted transform instruction on the planes. Arguments: core. -/
  | transformExecute
  /-- FOOTPRINT_RETIRE (R202): An engine footprint's read or write part retires, releasing waiting accesses. Arguments: core, footprint. -/
  | footprintRetire
  /-- HEAT_BOUNDARY (R413): At an occurrence's START or END the partition switches tenants through save, curtain, token and restore. Arguments: part. -/
  | heatBoundary
  /-- HEAT_EXPIRED (R413): An occurrence whose END passes without having started sends HEAT_EXPIRED. Arguments: sheetEntry. -/
  | heatExpired
  /-- LINK_SLOT_OPEN (R414): A Regatta link slot opens and a tenant's waiting flits move. Arguments: slot. -/
  | linkSlotOpen
  /-- RECALL_DEADLINE_EXPIRY (R406): A recall deadline passes without DRELEASE and the hub revokes the frame. Arguments: frame. -/
  | recallDeadlineExpiry
  /-- DEED_TRANSIT_END (R406): A transit's shootdown and drain end and the deed operation takes effect. Arguments: frame. -/
  | deedTransitEnd
  /-- ZERO_ON_READ_CLEARED (R409): The background engines finish a ZERO_ON_READ frame, which becomes OWNED with a CLEARED event. Arguments: frame. -/
  | zeroOnReadCleared
  /-- DPCMD_DOFFER (R408): A deed-port command performs DOFFER for kernel 0. Arguments: slot. -/
  | dpcmdDoffer
  /-- DPCMD_DACCEPT (R408): A deed-port command performs DACCEPT for kernel 0. Arguments: slot. -/
  | dpcmdDaccept
  /-- DPCMD_DREJECT (R408): A deed-port command performs DREJECT for kernel 0. Arguments: slot. -/
  | dpcmdDreject
  /-- DPCMD_DLEND (R408): A deed-port command performs DLEND for kernel 0. Arguments: slot. -/
  | dpcmdDlend
  /-- DPCMD_DRECALL (R408): A deed-port command performs DRECALL for kernel 0. Arguments: slot. -/
  | dpcmdDrecall
  /-- DPCMD_DRELEASE (R408): A deed-port command performs DRELEASE for kernel 0. Arguments: slot. -/
  | dpcmdDrelease
  /-- DPCMD_DQUERY (R408): A deed-port command performs DQUERY for kernel 0. Arguments: slot. -/
  | dpcmdDquery
  /-- DPCMD_NONE (R408): A deed-port command with OP 7 completes at once with RESULT 0xFF. Arguments: slot. -/
  | dpcmdNone
  /-- VIPOST (R418): A post to VIPOST sets a tenant's pending bit or is discarded and counted in VIDROP. Arguments: value. -/
  | vipost
  /-- DBGHALT (R393): A DBGHALT write halts or resumes threads of the core. Arguments: master, core, value. -/
  | dbghalt
  /-- DBGCTL (R393): A DBGCTL write sets FREEZE, stopping or releasing the core's engines at boundaries. Arguments: master, core, value. -/
  | dbgctl
  /-- SNAPSHOT_FIRING (R394): A snapshot trigger latches every block's snapshot registers and sends SNAPSHOT_TAKEN. Arguments: tag, cause, part. -/
  | snapshotFiring
  /-- SNAPSHOT_PIN (R394): An edge on the external snapshot pin fires a snapshot while PEN is set. No argument. -/
  | snapshotPin
  /-- WATCHDOG (R395): A core with a ready context that issues nothing for 2^24 cycles sends a WATCHDOG record. Arguments: core. -/
  | watchdog
  /-- MGMT_CLAIM (R434): A CLAIM write takes management ownership if free or handed to the writer. Arguments: master, claimed. -/
  | mgmtClaim
  /-- MGMT_RELEASE (R434): The owner's RELEASE write clears OWNER and HANDTO. Arguments: master, value. -/
  | mgmtRelease
  /-- DEVID_WRITE (R440): The first DEVID write sets the device ID and enables fabric traffic. Arguments: master, value. -/
  | devidWrite
  /-- LINK_TRAINING (R441): Regatta ports train at reset and align TIME with the domain. Arguments: trained, epoch. -/
  | linkTraining
  /-- RESET (R427): At reset the boot ROM selects and verifies a boot slot and the wipe begins. No argument. -/
  | reset
  /-- WIPE_COMPLETE (R430): The wipe of memories and stores ends and every non-reserved frame is OWNED by kernel 0. No argument. -/
  | wipeComplete
  /-- RECOVERY_IMAGE (R427): A failed-boot device accepts a recovery image from the management owner through the mailbox. Arguments: master, image. -/
  | recoveryImage
  /-- RAISESVN (R428): The management owner raises the fused minimum SVN to the running image's SVN. Arguments: master. -/
  | raisesvn
  /-- LIFE_CYCLE_TRANSITION (R430): A management command advances the life-cycle state, wiping and generating or zeroising keys. Arguments: master, target. -/
  | lifeCycleTransition
  /-- MONITOR_VERSION (R433): Monitor call 0 returns the monitor version and SVN. Arguments: core, thread. -/
  | monitorVersion
  /-- POLICYLOAD (R433): Monitor call 1 loads and pins a signed scheduler-policy image for a tenant. Arguments: core, thread. -/
  | policyload
  /-- MONSTAGE (R433): Monitor call 2 writes a signed monitor image and flips the active slot. Arguments: core, thread. -/
  | monstage
  /-- THERMAL (R433): Monitor call 3 returns clock, hottest HBM layer and module power. Arguments: core, thread. -/
  | thermal
  /-- MONITOR_UNKNOWN_CALL (R433): An unlisted monitor call number returns all ones. Arguments: core, thread. -/
  | monitorUnknownCall
  /-- MONITOR_UPDATE_APPLY (R432): A new monitor layer takes effect on the Umpire between packets or on a Cox with no outstanding command. Arguments: unit. -/
  | monitorUpdateApply
  /-- THERMAL_THROTTLE (R438): Power or temperature near its limit lowers or raises the clock and notifies every kernel. Arguments: mhz. -/
  | thermalThrottle
  /-- HBM_TEMPERATURE_THRESHOLD (R437): An HBM layer crossing a threshold doubles refresh, inserts idle slots or announces shutdown. Arguments: stack, layer, temperature. -/
  | hbmTemperatureThreshold
  /-- CATASTROPHIC_SHUTDOWN (R437): 100 µs after the shutdown notice, catastrophic shutdown is asserted. Arguments: stack. -/
  | catastrophicShutdown
  /-- REGISTER_WRITE (R8): A write to a memory-mapped register without behaviour of its own sets its RW fields. Arguments: master, addr, size, value. -/
  | registerWrite
  /-- AZERO_AMOVE_AT_HEAD (R281): An accepted AZERO or AMOVE reaches the head of the engine queue and zeroes or copies its accumulator plane and poison bits. Arguments: core. -/
  | azeroAmoveAtHead
  /-- REMOTE_ACKNOWLEDGEMENT (R234): A destination's acknowledgement of an RPUT, KADD or GAMO returns to the source core and lowers the context's count of unacknowledged remote operations. Arguments: flight. -/
  | remoteAcknowledgement
  /-- HOST_MEMORY_ACCESS (R259): A host-core or PCIe load or store reaches a DRAM home, with deed check, directory coherence, zero-on-read, revocation refusal and ECC healing applied. Arguments: master, addr, size, write, value. -/
  | hostMemoryAccess
  /-- POWER_LOSS (R429): Supply power is lost, possibly tearing a boot-flash marker copy or slot being written, and all device state is lost. Arguments: tornAddr, tornLen. -/
  | powerLoss
  /-- LOCAL_STORE_ECC_ERROR (R183): A local-store word acquires a single-bit or uncorrectable ECC error. Arguments: core, word, kind. -/
  | localStoreEccError
  /-- DRAM_ECC_ERROR (R442): An aligned 8-byte DRAM word acquires an uncorrectable ECC error. Arguments: addr. -/
  | dramEccError
  deriving DecidableEq, Repr

end Sys2Proof
end

