-- ==== Sys2Proof/WellFormed.lean ====
section
/-! DEFINITION. Which terms of `Instr` an encoding can stand for: every operand fits its field
(R23 to R31), and the sub-operation values that R25, R31, R41, R162, R188 and R246 leave unassigned,
the reserved q values of PART (R134) and the word 0x0000 (R27) are excluded. A device step has no
encoding; it is well formed as it stands. -/

namespace Sys2Proof

/-- Every operand fits its field and no sub-operation value is an unassigned one. -/
def Instr.wellFormed : Instr → Bool
  | .add d a b => decide (d < 32 ∧ a < 32 ∧ b < 32)
  | .sub d a b => decide (d < 32 ∧ a < 32 ∧ b < 32)
  | .and d a b => decide (d < 32 ∧ a < 32 ∧ b < 32)
  | .or d a b => decide (d < 32 ∧ a < 32 ∧ b < 32)
  | .xor d a b => decide (d < 32 ∧ a < 32 ∧ b < 32)
  | .andn d a b => decide (d < 32 ∧ a < 32 ∧ b < 32)
  | .sll d a b => decide (d < 32 ∧ a < 32 ∧ b < 32)
  | .srl d a b => decide (d < 32 ∧ a < 32 ∧ b < 32)
  | .sra d a b => decide (d < 32 ∧ a < 32 ∧ b < 32)
  | .rol d a b => decide (d < 32 ∧ a < 32 ∧ b < 32)
  | .min d a b => decide (d < 32 ∧ a < 32 ∧ b < 32)
  | .max d a b => decide (d < 32 ∧ a < 32 ∧ b < 32)
  | .minn d a b => decide (d < 32 ∧ a < 32 ∧ b < 32)
  | .maxn d a b => decide (d < 32 ∧ a < 32 ∧ b < 32)
  | .slt d a b => decide (d < 32 ∧ a < 32 ∧ b < 32)
  | .sltn d a b => decide (d < 32 ∧ a < 32 ∧ b < 32)
  | .sel d a b => decide (d < 32 ∧ a < 32 ∧ b < 32)
  | .addsh d a b s => decide (d < 32 ∧ a < 32 ∧ b < 32 ∧ s < 8)
  | .mul d a b => decide (d < 32 ∧ a < 32 ∧ b < 32)
  | .mulh d a b => decide (d < 32 ∧ a < 32 ∧ b < 32)
  | .mulhn d a b => decide (d < 32 ∧ a < 32 ∧ b < 32)
  | .div d a b => decide (d < 32 ∧ a < 32 ∧ b < 32)
  | .divn d a b => decide (d < 32 ∧ a < 32 ∧ b < 32)
  | .rem d a b => decide (d < 32 ∧ a < 32 ∧ b < 32)
  | .remn d a b => decide (d < 32 ∧ a < 32 ∧ b < 32)
  | .clz d a => decide (d < 32 ∧ a < 32)
  | .ctz d a => decide (d < 32 ∧ a < 32)
  | .popc d a => decide (d < 32 ∧ a < 32)
  | .bswap d a => decide (d < 32 ∧ a < 32)
  | .slli d a s h => decide (d < 32 ∧ a < 32 ∧ s < 32 ∧ h < 2)
  | .srli d a s h => decide (d < 32 ∧ a < 32 ∧ s < 32 ∧ h < 2)
  | .srai d a s h => decide (d < 32 ∧ a < 32 ∧ s < 32 ∧ h < 2)
  | .roli d a s h => decide (d < 32 ∧ a < 32 ∧ s < 32 ∧ h < 2)
  | .addi d a i => decide (d < 32 ∧ a < 32 ∧ i < 65536)
  | .andi d a i => decide (d < 32 ∧ a < 32 ∧ i < 65536)
  | .ori d a i => decide (d < 32 ∧ a < 32 ∧ i < 65536)
  | .xori d a i => decide (d < 32 ∧ a < 32 ∧ i < 65536)
  | .slti d a i => decide (d < 32 ∧ a < 32 ∧ i < 65536)
  | .lui d i => decide (d < 32 ∧ i < 2097152)
  | .addpc d i => decide (d < 32 ∧ i < 2097152)
  | .beq a b o => decide (a < 32 ∧ b < 32 ∧ o < 8192)
  | .bne a b o => decide (a < 32 ∧ b < 32 ∧ o < 8192)
  | .blt a b o => decide (a < 32 ∧ b < 32 ∧ o < 8192)
  | .bge a b o => decide (a < 32 ∧ b < 32 ∧ o < 8192)
  | .bltn a b o => decide (a < 32 ∧ b < 32 ∧ o < 8192)
  | .bgen a b o => decide (a < 32 ∧ b < 32 ∧ o < 8192)
  | .bany a b o => decide (a < 32 ∧ b < 32 ∧ o < 8192)
  | .bnone a b o => decide (a < 32 ∧ b < 32 ∧ o < 8192)
  | .j o => decide (o < 67108864)
  | .jal o => decide (o < 67108864)
  | .jalr d a i => decide (d < 32 ∧ a < 32 ∧ i < 65536)
  | .ld d a w o => decide (d < 32 ∧ a < 32 ∧ w < 8 ∧ o < 8192 ∧ w < 7)
  | .st d a w o => decide (d < 32 ∧ a < 32 ∧ w < 8 ∧ o < 8192 ∧ w < 4)
  | .cMv d s => decide (d < 32 ∧ s < 32 ∧ ¬ (d = 0 ∧ s = 0))
  | .cAdd d s => decide (d < 32 ∧ s < 32)
  | .cSub d s => decide (d < 32 ∧ s < 32)
  | .cAnd d s => decide (d < 32 ∧ s < 32)
  | .cOr d s => decide (d < 32 ∧ s < 32)
  | .cAddi d i => decide (d < 32 ∧ i < 32)
  | .cLi d i => decide (d < 32 ∧ i < 32)
  | .cSlli d s => decide (d < 32 ∧ s < 32)
  | .cSrli d s => decide (d < 32 ∧ s < 32)
  | .cSrai d s => decide (d < 32 ∧ s < 32)
  | .cLw d s => decide (d < 32 ∧ s < 32)
  | .cSw d s => decide (d < 32 ∧ s < 32)
  | .cBeqz d o => decide (d < 32 ∧ o < 32)
  | .cBnez d o => decide (d < 32 ∧ o < 32)
  | .cJr s => decide (s < 32)
  | .exti n s i => decide (n < 8 ∧ s < 4 ∧ i < 65536)
  | .extr n a => decide (n < 8 ∧ a < 32)
  | .ldfe d a q => decide (d < 32 ∧ a < 32 ∧ q < 8 ∧ (q = 2 ∨ q = 3))
  | .ldf d a q => decide (d < 32 ∧ a < 32 ∧ q < 8 ∧ (q = 2 ∨ q = 3))
  | .stfe d a q => decide (d < 32 ∧ a < 32 ∧ q < 8 ∧ (q = 2 ∨ q = 3))
  | .stf d a q => decide (d < 32 ∧ a < 32 ∧ q < 8 ∧ (q = 2 ∨ q = 3))
  | .feset a s q => decide (a < 32 ∧ s < 4 ∧ q < 8 ∧ (q = 2 ∨ q = 3))
  | .feq d a => decide (d < 32 ∧ a < 32)
  | .feqTake d a => decide (d < 32 ∧ a < 32)
  | .cas d a b q => decide (d < 32 ∧ a < 32 ∧ b < 32 ∧ q < 8 ∧ (q = 2 ∨ q = 3))
  | .amoAdd d a b q => decide (d < 32 ∧ a < 32 ∧ b < 32 ∧ q < 8 ∧ (q = 2 ∨ q = 3))
  | .amoAnd d a b q => decide (d < 32 ∧ a < 32 ∧ b < 32 ∧ q < 8 ∧ (q = 2 ∨ q = 3))
  | .amoOr d a b q => decide (d < 32 ∧ a < 32 ∧ b < 32 ∧ q < 8 ∧ (q = 2 ∨ q = 3))
  | .amoXor d a b q => decide (d < 32 ∧ a < 32 ∧ b < 32 ∧ q < 8 ∧ (q = 2 ∨ q = 3))
  | .amoMin d a b q => decide (d < 32 ∧ a < 32 ∧ b < 32 ∧ q < 8 ∧ (q = 2 ∨ q = 3))
  | .amoMax d a b q => decide (d < 32 ∧ a < 32 ∧ b < 32 ∧ q < 8 ∧ (q = 2 ∨ q = 3))
  | .amoMinn d a b q => decide (d < 32 ∧ a < 32 ∧ b < 32 ∧ q < 8 ∧ (q = 2 ∨ q = 3))
  | .amoMaxn d a b q => decide (d < 32 ∧ a < 32 ∧ b < 32 ∧ q < 8 ∧ (q = 2 ∨ q = 3))
  | .amoSwap d a b q => decide (d < 32 ∧ a < 32 ∧ b < 32 ∧ q < 8 ∧ (q = 2 ∨ q = 3))
  | .vintVadd d a b t q => decide (d < 32 ∧ a < 32 ∧ b < 32 ∧ t < 16 ∧ q < 8 ∧ t < 8)
  | .vintVsub d a b t q => decide (d < 32 ∧ a < 32 ∧ b < 32 ∧ t < 16 ∧ q < 8 ∧ t < 8)
  | .vintVmul d a b t q => decide (d < 32 ∧ a < 32 ∧ b < 32 ∧ t < 16 ∧ q < 8 ∧ t < 8)
  | .vintVmin d a b t q => decide (d < 32 ∧ a < 32 ∧ b < 32 ∧ t < 16 ∧ q < 8 ∧ t < 8)
  | .vintVmax d a b t q => decide (d < 32 ∧ a < 32 ∧ b < 32 ∧ t < 16 ∧ q < 8 ∧ t < 8)
  | .vintVabs d a t q => decide (d < 32 ∧ a < 32 ∧ t < 16 ∧ q < 8 ∧ t < 4)
  | .vintVneg d a t q => decide (d < 32 ∧ a < 32 ∧ t < 16 ∧ q < 8 ∧ t < 4)
  | .vintVand d a b t q => decide (d < 32 ∧ a < 32 ∧ b < 32 ∧ t < 16 ∧ q < 8 ∧ t < 8)
  | .vintVor d a b t q => decide (d < 32 ∧ a < 32 ∧ b < 32 ∧ t < 16 ∧ q < 8 ∧ t < 8)
  | .vintVxor d a b t q => decide (d < 32 ∧ a < 32 ∧ b < 32 ∧ t < 16 ∧ q < 8 ∧ t < 8)
  | .vintVshl d a b t q => decide (d < 32 ∧ a < 32 ∧ b < 32 ∧ t < 16 ∧ q < 8 ∧ t < 8)
  | .vintVshr d a b t q => decide (d < 32 ∧ a < 32 ∧ b < 32 ∧ t < 16 ∧ q < 8 ∧ t < 8)
  | .vintVcmp c p a b t q => decide (c < 4 ∧ p < 8 ∧ a < 32 ∧ b < 32 ∧ t < 16 ∧ q < 8 ∧ t < 8)
  | .vintVred d a k t q => decide (d < 32 ∧ a < 32 ∧ k < 32 ∧ t < 16 ∧ q < 8 ∧ t < 8 ∧ k < 6)
  | .vdot4 d a b t q => decide (d < 32 ∧ a < 32 ∧ b < 32 ∧ t < 16 ∧ q < 8 ∧ (t = 0 ∨ t = 1 ∨ t = 4 ∨ t = 5))
  | .vfltVadd d a b t q => decide (d < 32 ∧ a < 32 ∧ b < 32 ∧ t < 16 ∧ q < 8 ∧ 8 ≤ t ∧ t < 12)
  | .vfltVsub d a b t q => decide (d < 32 ∧ a < 32 ∧ b < 32 ∧ t < 16 ∧ q < 8 ∧ 8 ≤ t ∧ t < 12)
  | .vfltVmul d a b t q => decide (d < 32 ∧ a < 32 ∧ b < 32 ∧ t < 16 ∧ q < 8 ∧ 8 ≤ t ∧ t < 12)
  | .vfltVmin d a b t q => decide (d < 32 ∧ a < 32 ∧ b < 32 ∧ t < 16 ∧ q < 8 ∧ 8 ≤ t ∧ t < 12)
  | .vfltVmax d a b t q => decide (d < 32 ∧ a < 32 ∧ b < 32 ∧ t < 16 ∧ q < 8 ∧ 8 ≤ t ∧ t < 12)
  | .vfltVabs d a t q => decide (d < 32 ∧ a < 32 ∧ t < 16 ∧ q < 8 ∧ 8 ≤ t ∧ t < 12)
  | .vfltVneg d a t q => decide (d < 32 ∧ a < 32 ∧ t < 16 ∧ q < 8 ∧ 8 ≤ t ∧ t < 12)
  | .vfma d a b t q => decide (d < 32 ∧ a < 32 ∧ b < 32 ∧ t < 16 ∧ q < 8 ∧ 8 ≤ t ∧ t < 12)
  | .vfnma d a b t q => decide (d < 32 ∧ a < 32 ∧ b < 32 ∧ t < 16 ∧ q < 8 ∧ 8 ≤ t ∧ t < 12)
  | .vminnum d a b t q => decide (d < 32 ∧ a < 32 ∧ b < 32 ∧ t < 16 ∧ q < 8 ∧ 8 ≤ t ∧ t < 12)
  | .vmaxnum d a b t q => decide (d < 32 ∧ a < 32 ∧ b < 32 ∧ t < 16 ∧ q < 8 ∧ 8 ≤ t ∧ t < 12)
  | .vfltVcmp c p a b t q => decide (c < 4 ∧ p < 8 ∧ a < 32 ∧ b < 32 ∧ t < 16 ∧ q < 8 ∧ 8 ≤ t ∧ t < 12)
  | .vfltVred d a k t q => decide (d < 32 ∧ a < 32 ∧ k < 32 ∧ t < 16 ∧ q < 8 ∧ 8 ≤ t ∧ t < 12 ∧ k < 5)
  | .vsel d a b t q => decide (d < 32 ∧ a < 32 ∧ b < 32 ∧ t < 16 ∧ q < 8)
  | .vsplat d a t q => decide (d < 32 ∧ a < 32 ∧ t < 16 ∧ q < 8)
  | .vperm d a b t q => decide (d < 32 ∧ a < 32 ∧ b < 32 ∧ t < 16 ∧ q < 8)
  | .vpack d a b t => decide (d < 32 ∧ a < 32 ∧ b < 32 ∧ t < 16)
  | .vunpack d a h t => decide (d < 32 ∧ a < 32 ∧ h < 2 ∧ t < 16)
  | .vcvt d a u t q => decide (d < 32 ∧ a < 32 ∧ u < 16 ∧ t < 16 ∧ q < 8)
  | .vrcp d a t q => decide (d < 32 ∧ a < 32 ∧ t < 16 ∧ q < 8)
  | .vrsqrt d a t q => decide (d < 32 ∧ a < 32 ∧ t < 16 ∧ q < 8)
  | .vsqrt d a t q => decide (d < 32 ∧ a < 32 ∧ t < 16 ∧ q < 8)
  | .vexp2 d a t q => decide (d < 32 ∧ a < 32 ∧ t < 16 ∧ q < 8)
  | .vlog2 d a t q => decide (d < 32 ∧ a < 32 ∧ t < 16 ∧ q < 8)
  | .vsinpi d a t q => decide (d < 32 ∧ a < 32 ∧ t < 16 ∧ q < 8)
  | .vcospi d a t q => decide (d < 32 ∧ a < 32 ∧ t < 16 ∧ q < 8)
  | .vld d a b t q => decide (d < 32 ∧ a < 32 ∧ b < 32 ∧ t < 16 ∧ q < 8)
  | .vst d a b t q => decide (d < 32 ∧ a < 32 ∧ b < 32 ∧ t < 16 ∧ q < 8)
  | .vlds d a b t q => decide (d < 32 ∧ a < 32 ∧ b < 32 ∧ t < 16 ∧ q < 8)
  | .vldx d a b t q => decide (d < 32 ∧ a < 32 ∧ b < 32 ∧ t < 16 ∧ q < 8)
  | .vstx d a b t q => decide (d < 32 ∧ a < 32 ∧ b < 32 ∧ t < 16 ∧ q < 8)
  | .spawn d a b q => decide (d < 32 ∧ a < 32 ∧ b < 32 ∧ q < 8)
  | .quit a => decide (a < 32)
  | .reap d b q => decide (d < 32 ∧ b < 32 ∧ q < 8)
  | .kill a q => decide (a < 32 ∧ q < 8)
  | .pri d a => decide (d < 32 ∧ a < 32)
  | .migrate a q => decide (a < 32 ∧ q < 8)
  | .wake a q => decide (a < 32 ∧ q < 8)
  | .join a => decide (a < 32)
  | .bartry q => decide (q < 8)
  | .gang a n q => decide (a < 32 ∧ n < 32 ∧ q < 8)
  | .part d a b q => decide (d < 32 ∧ a < 32 ∧ b < 32 ∧ q < 8 ∧ q < 2)
  | .get k m b q => decide (k < 64 ∧ m < 16 ∧ b < 32 ∧ q < 8)
  | .put k m b q => decide (k < 64 ∧ m < 16 ∧ b < 32 ∧ q < 8)
  | .gets k m p jj z => decide (k < 64 ∧ m < 16 ∧ p < 8 ∧ jj < 4 ∧ z < 8 ∧ z < 5)
  | .puts k m p jj z => decide (k < 64 ∧ m < 16 ∧ p < 8 ∧ jj < 4 ∧ z < 8 ∧ z < 5)
  | .rput k m b q => decide (k < 64 ∧ m < 16 ∧ b < 32 ∧ q < 8)
  | .gamoAdd k m t w q => decide (k < 64 ∧ m < 16 ∧ t < 16 ∧ w < 2 ∧ q < 8)
  | .gamoAnd k m t w q => decide (k < 64 ∧ m < 16 ∧ t < 16 ∧ w < 2 ∧ q < 8)
  | .gamoOr k m t w q => decide (k < 64 ∧ m < 16 ∧ t < 16 ∧ w < 2 ∧ q < 8)
  | .gamoXor k m t w q => decide (k < 64 ∧ m < 16 ∧ t < 16 ∧ w < 2 ∧ q < 8)
  | .gamoMin k m t w q => decide (k < 64 ∧ m < 16 ∧ t < 16 ∧ w < 2 ∧ q < 8)
  | .gamoMax k m t w q => decide (k < 64 ∧ m < 16 ∧ t < 16 ∧ w < 2 ∧ q < 8)
  | .gamoMinn k m t w q => decide (k < 64 ∧ m < 16 ∧ t < 16 ∧ w < 2 ∧ q < 8)
  | .gamoMaxn k m t w q => decide (k < 64 ∧ m < 16 ∧ t < 16 ∧ w < 2 ∧ q < 8)
  | .gamoSwap k m t w q => decide (k < 64 ∧ m < 16 ∧ t < 16 ∧ w < 2 ∧ q < 8)
  | .kadd a b q => decide (a < 32 ∧ b < 32 ∧ q < 8)
  | .kset k r => decide (k < 64 ∧ r < 32)
  | .kread k r => decide (k < 64 ∧ r < 32)
  | .tierpf k m r q => decide (k < 64 ∧ m < 16 ∧ r < 2 ∧ q < 8)
  | .qstat d => decide (d < 32)
  | .bind d a b q => decide (d < 32 ∧ a < 32 ∧ b < 32 ∧ q < 8)
  | .unbind d a b q => decide (d < 32 ∧ a < 32 ∧ b < 32 ∧ q < 8)
  | .acqX a b => decide (a < 32 ∧ b < 32)
  | .acqS a b => decide (a < 32 ∧ b < 32)
  | .rel a => decide (a < 32)
  | .waitn a => decide (a < 32)
  | .waitc k r => decide (k < 64 ∧ r < 32)
  | .rcas d a b q => decide (d < 32 ∧ a < 32 ∧ b < 32 ∧ q < 8 ∧ (q = 2 ∨ q = 3 ∨ q = 6 ∨ q = 7))
  | .ramoAdd d a b q => decide (d < 32 ∧ a < 32 ∧ b < 32 ∧ q < 8 ∧ (q = 2 ∨ q = 3 ∨ q = 6 ∨ q = 7))
  | .ramoAnd d a b q => decide (d < 32 ∧ a < 32 ∧ b < 32 ∧ q < 8 ∧ (q = 2 ∨ q = 3 ∨ q = 6 ∨ q = 7))
  | .ramoOr d a b q => decide (d < 32 ∧ a < 32 ∧ b < 32 ∧ q < 8 ∧ (q = 2 ∨ q = 3 ∨ q = 6 ∨ q = 7))
  | .ramoXor d a b q => decide (d < 32 ∧ a < 32 ∧ b < 32 ∧ q < 8 ∧ (q = 2 ∨ q = 3 ∨ q = 6 ∨ q = 7))
  | .ramoMin d a b q => decide (d < 32 ∧ a < 32 ∧ b < 32 ∧ q < 8 ∧ (q = 2 ∨ q = 3 ∨ q = 6 ∨ q = 7))
  | .ramoMax d a b q => decide (d < 32 ∧ a < 32 ∧ b < 32 ∧ q < 8 ∧ (q = 2 ∨ q = 3 ∨ q = 6 ∨ q = 7))
  | .ramoMinn d a b q => decide (d < 32 ∧ a < 32 ∧ b < 32 ∧ q < 8 ∧ (q = 2 ∨ q = 3 ∨ q = 6 ∨ q = 7))
  | .ramoMaxn d a b q => decide (d < 32 ∧ a < 32 ∧ b < 32 ∧ q < 8 ∧ (q = 2 ∨ q = 3 ∨ q = 6 ∨ q = 7))
  | .ramoSwap d a b q => decide (d < 32 ∧ a < 32 ∧ b < 32 ∧ q < 8 ∧ (q = 2 ∨ q = 3 ∨ q = 6 ∨ q = 7))
  | .iflush k a s q => decide (k < 64 ∧ a < 32 ∧ s < 4 ∧ q < 8)
  | .mldw a q => decide (a < 32 ∧ q < 8)
  | .mstream d a b q => decide (d < 8 ∧ a < 32 ∧ b < 32 ∧ q < 8)
  | .mstreams d a b q => decide (d < 8 ∧ a < 32 ∧ b < 32 ∧ q < 8)
  | .mstreamd d a b q => decide (d < 8 ∧ a < 32 ∧ b < 32 ∧ q < 8)
  | .mcomp a b q => decide (a < 32 ∧ b < 32 ∧ q < 8)
  | .azero d => decide (d < 8)
  | .aldr d a b => decide (d < 8 ∧ a < 32 ∧ b < 32)
  | .astr d a b => decide (d < 8 ∧ a < 32 ∧ b < 32)
  | .amove d a => decide (d < 8 ∧ a < 8)
  | .aout d a b => decide (d < 8 ∧ a < 32 ∧ b < 32)
  | .fbrev d b => decide (d < 8 ∧ b < 32)
  | .fpass d b => decide (d < 8 ∧ b < 32)
  | .ftwg d b => decide (d < 8 ∧ b < 32)
  | .ftwm d b => decide (d < 8 ∧ b < 32)
  | .fcmul d a b => decide (d < 8 ∧ a < 8 ∧ b < 32)
  | .chbind u v => decide (u < 32 ∧ v < 32)
  | .enq a q => decide (a < 32 ∧ q < 8)
  | .deq d q => decide (d < 32 ∧ q < 8)
  | .chwm d a c => decide (d < 32 ∧ a < 32 ∧ c < 32)
  | .send a b q => decide (a < 32 ∧ b < 32 ∧ q < 8)
  | .recv d b q => decide (d < 32 ∧ b < 32 ∧ q < 8)
  | .stagedef a b q => decide (a < 32 ∧ b < 32 ∧ q < 8)
  | .krecv q => decide (q < 8)
  | .klook d a => decide (d < 32 ∧ a < 32)
  | .tpost d a q => decide (d < 32 ∧ a < 32 ∧ q < 8)
  | .tfoot a n q => decide (a < 32 ∧ n < 32 ∧ q < 8)
  | .tstat d a => decide (d < 32 ∧ a < 32)
  | .twait a b => decide (a < 32 ∧ b < 32)
  | .trap a => decide (a < 32)
  | .csrr d n m => decide (d < 32 ∧ n < 32 ∧ m < 8)
  | .csrw d a n m => decide (d < 32 ∧ a < 32 ∧ n < 32 ∧ m < 8)
  | .csrs d a n m => decide (d < 32 ∧ a < 32 ∧ n < 32 ∧ m < 8)
  | .csrc d a n m => decide (d < 32 ∧ a < 32 ∧ n < 32 ∧ m < 8)
  | .snap a => decide (a < 32)
  | .ctxsave a b q => decide (a < 32 ∧ b < 32 ∧ q < 8)
  | .ctxload a b q => decide (a < 32 ∧ b < 32 ∧ q < 8)
  | .tlbinv a b => decide (a < 32 ∧ b < 32)
  | .doffer d a b q => decide (d < 32 ∧ a < 32 ∧ b < 32 ∧ q < 8)
  | .daccept d a q => decide (d < 32 ∧ a < 32 ∧ q < 8)
  | .dreject d a q => decide (d < 32 ∧ a < 32 ∧ q < 8)
  | .dlend d a b q => decide (d < 32 ∧ a < 32 ∧ b < 32 ∧ q < 8)
  | .drecall d a q => decide (d < 32 ∧ a < 32 ∧ q < 8)
  | .drelease d a q => decide (d < 32 ∧ a < 32 ∧ q < 8)
  | .dquery d a => decide (d < 32 ∧ a < 32)
  | .psplit d a b q => decide (d < 32 ∧ a < 32 ∧ b < 32 ∧ q < 8)
  | .pmerge d a q => decide (d < 32 ∧ a < 32 ∧ q < 8)
  | .heatset d a b q => decide (d < 32 ∧ a < 32 ∧ b < 32 ∧ q < 8)
  | .curtain d a b q => decide (d < 32 ∧ a < 32 ∧ b < 32 ∧ q < 8)
  | .token d a b q => decide (d < 32 ∧ a < 32 ∧ b < 32 ∧ q < 8)
  | .cNop => true
  | .yield => true
  | .leave => true
  | .bar => true
  | .ungang => true
  | .waitm => true
  | .fenceCore => true
  | .fenceClus => true
  | .fenceDev => true
  | .fenceDom => true
  | .mswap => true
  | .kyield => true
  | .kretire => true
  | .tdone => true
  | .ecall => true
  | .ebreak => true
  | .xret => true
  | .illegalEncodingDecode => true
  | .fetchFill => true
  | .iflushComplete => true
  | .causeTaken => true
  | .monitorCompletion => true
  | .divideByZeroDelivery => true
  | .lsCorrectedWriteback => true
  | .coreRemap => true
  | .wingsSwapOut => true
  | .wingsSlotGrant => true
  | .wingsMoveDone => true
  | .spawnRequest => true
  | .spawnReply => true
  | .killRequest => true
  | .killReply => true
  | .migrateRequest => true
  | .migrateReply => true
  | .quitDrainEnd => true
  | .reapRecord => true
  | .crewPhaseComplete => true
  | .gangBufferExecute => true
  | .gangVredCombine => true
  | .umpireQueueSelect => true
  | .launch => true
  | .launchPlacement => true
  | .placementCommand => true
  | .launchGateLift => true
  | .launchComplete => true
  | .wait => true
  | .signal => true
  | .seed => true
  | .qadmit => true
  | .doorbell => true
  | .copyEntryService => true
  | .copyEntryComplete => true
  | .copyEntryFail => true
  | .translationWalk => true
  | .translationFaultStall => true
  | .faultRecordWrite => true
  | .faultReplyReplay => true
  | .faultReplyFail => true
  | .tierMigratePage => true
  | .directRead => true
  | .rputWrite => true
  | .counterIncrement => true
  | .counterWindowWrite => true
  | .lsWindowAccess => true
  | .remoteAtomicPerform => true
  | .remoteAtomicReply => true
  | .remoteAtomicCancel => true
  | .cancelAtTarget => true
  | .bindingRequest => true
  | .lockRequest => true
  | .lockRelease => true
  | .lockGrant => true
  | .hubAnswer => true
  | .messageArrival => true
  | .messageReply => true
  | .channelPushArrival => true
  | .channelCreditReturn => true
  | .channelDeadlock => true
  | .recordDispatch => true
  | .roleSpill => true
  | .roleFetchBack => true
  | .idleLimitExpiry => true
  | .taskPostAtHub => true
  | .taskDispatch => true
  | .taskCommit => true
  | .roomAbort => true
  | .weightLoad => true
  | .weightCompress => true
  | .planeSwap => true
  | .streamRowWrite => true
  | .accumulatorWriteOut => true
  | .transformExecute => true
  | .footprintRetire => true
  | .heatBoundary => true
  | .heatExpired => true
  | .linkSlotOpen => true
  | .recallDeadlineExpiry => true
  | .deedTransitEnd => true
  | .zeroOnReadCleared => true
  | .dpcmdDoffer => true
  | .dpcmdDaccept => true
  | .dpcmdDreject => true
  | .dpcmdDlend => true
  | .dpcmdDrecall => true
  | .dpcmdDrelease => true
  | .dpcmdDquery => true
  | .dpcmdNone => true
  | .vipost => true
  | .dbghalt => true
  | .dbgctl => true
  | .snapshotFiring => true
  | .snapshotPin => true
  | .watchdog => true
  | .mgmtClaim => true
  | .mgmtRelease => true
  | .devidWrite => true
  | .linkTraining => true
  | .reset => true
  | .wipeComplete => true
  | .recoveryImage => true
  | .raisesvn => true
  | .lifeCycleTransition => true
  | .monitorVersion => true
  | .policyload => true
  | .monstage => true
  | .thermal => true
  | .monitorUnknownCall => true
  | .monitorUpdateApply => true
  | .thermalThrottle => true
  | .hbmTemperatureThreshold => true
  | .catastrophicShutdown => true
  | .registerWrite => true
  | .azeroAmoveAtHead => true
  | .remoteAcknowledgement => true
  | .hostMemoryAccess => true
  | .powerLoss => true
  | .localStoreEccError => true
  | .dramEccError => true

/-- The check as a proposition. -/
abbrev Instr.WellFormed (i : Instr) : Prop := i.wellFormed = true

end Sys2Proof
end

