-- ==== Sys2Proof/Decode.lean ====
section
/-! DEFINITION. The decoder, total on any bytes, and the encoder, both written from the encoding
tables of the spec (R23 to R32 and each class chapter's own table). The decoder rejects by name and
in the order of R28: an unassigned encoding first, then a set reserved bit. The checks that need the
machine's state (privilege, register numbers, operands) belong to the meanings. -/

namespace Sys2Proof

/-- Why a word is no instruction: the first two checks of R28, or too few bytes. -/
inductive DecodeError where
  /-- ILLEGAL_WORD: an unassigned major, fn, op16, w or sub-operation (R28, R30). -/
  | illegalWord
  /-- RESERVED_FIELD: a reserved bit is 1 (R5). -/
  | reservedField
  /-- The byte list ends inside the word (no such case arises from a fetch block, R21). -/
  | truncated
  deriving DecidableEq, Repr

/-- The `n`-bit field of `w` whose lowest bit is bit `lo` (R1). -/
def field (w lo n : Nat) : Nat := w / 2 ^ lo % 2 ^ n

/-- R5: the instruction, unless a reserved bit is 1 (`res` sums the reserved fields). -/
def unlessReserved (res : Nat) (r : Except DecodeError Instr) : Except DecodeError Instr :=
  if res = 0 then r else .error .reservedField

/-- Major 0x0 (R108). -/
def decodeAlu (w : Nat) : Except DecodeError Instr :=
  match field w 4 8 with
  | 0 => unlessReserved (field w 1 3) (.ok (.add (field w 22 5) (field w 17 5) (field w 12 5)))
  | 1 => unlessReserved (field w 1 3) (.ok (.sub (field w 22 5) (field w 17 5) (field w 12 5)))
  | 2 => unlessReserved (field w 1 3) (.ok (.and (field w 22 5) (field w 17 5) (field w 12 5)))
  | 3 => unlessReserved (field w 1 3) (.ok (.or (field w 22 5) (field w 17 5) (field w 12 5)))
  | 4 => unlessReserved (field w 1 3) (.ok (.xor (field w 22 5) (field w 17 5) (field w 12 5)))
  | 5 => unlessReserved (field w 1 3) (.ok (.andn (field w 22 5) (field w 17 5) (field w 12 5)))
  | 8 => unlessReserved (field w 1 3) (.ok (.sll (field w 22 5) (field w 17 5) (field w 12 5)))
  | 9 => unlessReserved (field w 1 3) (.ok (.srl (field w 22 5) (field w 17 5) (field w 12 5)))
  | 10 => unlessReserved (field w 1 3) (.ok (.sra (field w 22 5) (field w 17 5) (field w 12 5)))
  | 11 => unlessReserved (field w 1 3) (.ok (.rol (field w 22 5) (field w 17 5) (field w 12 5)))
  | 16 => unlessReserved (field w 1 3) (.ok (.min (field w 22 5) (field w 17 5) (field w 12 5)))
  | 17 => unlessReserved (field w 1 3) (.ok (.max (field w 22 5) (field w 17 5) (field w 12 5)))
  | 18 => unlessReserved (field w 1 3) (.ok (.minn (field w 22 5) (field w 17 5) (field w 12 5)))
  | 19 => unlessReserved (field w 1 3) (.ok (.maxn (field w 22 5) (field w 17 5) (field w 12 5)))
  | 20 => unlessReserved (field w 1 3) (.ok (.slt (field w 22 5) (field w 17 5) (field w 12 5)))
  | 21 => unlessReserved (field w 1 3) (.ok (.sltn (field w 22 5) (field w 17 5) (field w 12 5)))
  | 22 => unlessReserved (field w 1 3) (.ok (.sel (field w 22 5) (field w 17 5) (field w 12 5)))
  | 24 => .ok (.addsh (field w 22 5) (field w 17 5) (field w 12 5) (field w 1 3))
  | 32 => unlessReserved (field w 1 3) (.ok (.mul (field w 22 5) (field w 17 5) (field w 12 5)))
  | 33 => unlessReserved (field w 1 3) (.ok (.mulh (field w 22 5) (field w 17 5) (field w 12 5)))
  | 34 => unlessReserved (field w 1 3) (.ok (.mulhn (field w 22 5) (field w 17 5) (field w 12 5)))
  | 36 => unlessReserved (field w 1 3) (.ok (.div (field w 22 5) (field w 17 5) (field w 12 5)))
  | 37 => unlessReserved (field w 1 3) (.ok (.divn (field w 22 5) (field w 17 5) (field w 12 5)))
  | 38 => unlessReserved (field w 1 3) (.ok (.rem (field w 22 5) (field w 17 5) (field w 12 5)))
  | 39 => unlessReserved (field w 1 3) (.ok (.remn (field w 22 5) (field w 17 5) (field w 12 5)))
  | 48 => unlessReserved (field w 1 3 + field w 12 5) (.ok (.clz (field w 22 5) (field w 17 5)))
  | 49 => unlessReserved (field w 1 3 + field w 12 5) (.ok (.ctz (field w 22 5) (field w 17 5)))
  | 50 => unlessReserved (field w 1 3 + field w 12 5) (.ok (.popc (field w 22 5) (field w 17 5)))
  | 51 => unlessReserved (field w 1 3 + field w 12 5) (.ok (.bswap (field w 22 5) (field w 17 5)))
  | _ => .error .illegalWord

/-- Major 0x5 (R111). -/
def decodeShi (w : Nat) : Except DecodeError Instr :=
  match field w 4 2 with
  | 0 => unlessReserved (field w 1 3 + field w 7 5) (.ok (.slli (field w 22 5) (field w 17 5) (field w 12 5) (field w 6 1)))
  | 1 => unlessReserved (field w 1 3 + field w 7 5) (.ok (.srli (field w 22 5) (field w 17 5) (field w 12 5) (field w 6 1)))
  | 2 => unlessReserved (field w 1 3 + field w 7 5) (.ok (.srai (field w 22 5) (field w 17 5) (field w 12 5) (field w 6 1)))
  | _ => unlessReserved (field w 1 3 + field w 7 5) (.ok (.roli (field w 22 5) (field w 17 5) (field w 12 5) (field w 6 1)))

/-- Major 0x9 (R26). -/
def decodeBr (w : Nat) : Except DecodeError Instr :=
  match field w 14 3 with
  | 0 => .ok (.beq (field w 22 5) (field w 17 5) (field w 1 13))
  | 1 => .ok (.bne (field w 22 5) (field w 17 5) (field w 1 13))
  | 2 => .ok (.blt (field w 22 5) (field w 17 5) (field w 1 13))
  | 3 => .ok (.bge (field w 22 5) (field w 17 5) (field w 1 13))
  | 4 => .ok (.bltn (field w 22 5) (field w 17 5) (field w 1 13))
  | 5 => .ok (.bgen (field w 22 5) (field w 17 5) (field w 1 13))
  | 6 => .ok (.bany (field w 22 5) (field w 17 5) (field w 1 13))
  | _ => .ok (.bnone (field w 22 5) (field w 17 5) (field w 1 13))

/-- Major 0xf (R188, R199). -/
def decodeSyncMem (w : Nat) : Except DecodeError Instr :=
  match field w 4 8 with
  | 0 => if (field w 1 3 = 2 ∨ field w 1 3 = 3) then unlessReserved (field w 12 5) (.ok (.ldfe (field w 22 5) (field w 17 5) (field w 1 3))) else .error .illegalWord
  | 1 => if (field w 1 3 = 2 ∨ field w 1 3 = 3) then unlessReserved (field w 12 5) (.ok (.ldf (field w 22 5) (field w 17 5) (field w 1 3))) else .error .illegalWord
  | 2 => if (field w 1 3 = 2 ∨ field w 1 3 = 3) then unlessReserved (field w 12 5) (.ok (.stfe (field w 22 5) (field w 17 5) (field w 1 3))) else .error .illegalWord
  | 3 => if (field w 1 3 = 2 ∨ field w 1 3 = 3) then unlessReserved (field w 12 5) (.ok (.stf (field w 22 5) (field w 17 5) (field w 1 3))) else .error .illegalWord
  | 4 => if (field w 1 3 = 2 ∨ field w 1 3 = 3) then unlessReserved (field w 14 3 + field w 22 5) (.ok (.feset (field w 17 5) (field w 12 2) (field w 1 3))) else .error .illegalWord
  | 5 => if field w 1 3 = 0 then unlessReserved (field w 12 5) (.ok (.feq (field w 22 5) (field w 17 5)))
      else if field w 1 3 = 1 then unlessReserved (field w 12 5) (.ok (.feqTake (field w 22 5) (field w 17 5)))
      else .error .illegalWord
  | 8 => if (field w 1 3 = 2 ∨ field w 1 3 = 3) then .ok (.cas (field w 22 5) (field w 17 5) (field w 12 5) (field w 1 3)) else .error .illegalWord
  | 16 => if (field w 1 3 = 2 ∨ field w 1 3 = 3) then .ok (.amoAdd (field w 22 5) (field w 17 5) (field w 12 5) (field w 1 3)) else .error .illegalWord
  | 17 => if (field w 1 3 = 2 ∨ field w 1 3 = 3) then .ok (.amoAnd (field w 22 5) (field w 17 5) (field w 12 5) (field w 1 3)) else .error .illegalWord
  | 18 => if (field w 1 3 = 2 ∨ field w 1 3 = 3) then .ok (.amoOr (field w 22 5) (field w 17 5) (field w 12 5) (field w 1 3)) else .error .illegalWord
  | 19 => if (field w 1 3 = 2 ∨ field w 1 3 = 3) then .ok (.amoXor (field w 22 5) (field w 17 5) (field w 12 5) (field w 1 3)) else .error .illegalWord
  | 20 => if (field w 1 3 = 2 ∨ field w 1 3 = 3) then .ok (.amoMin (field w 22 5) (field w 17 5) (field w 12 5) (field w 1 3)) else .error .illegalWord
  | 21 => if (field w 1 3 = 2 ∨ field w 1 3 = 3) then .ok (.amoMax (field w 22 5) (field w 17 5) (field w 12 5) (field w 1 3)) else .error .illegalWord
  | 22 => if (field w 1 3 = 2 ∨ field w 1 3 = 3) then .ok (.amoMinn (field w 22 5) (field w 17 5) (field w 12 5) (field w 1 3)) else .error .illegalWord
  | 23 => if (field w 1 3 = 2 ∨ field w 1 3 = 3) then .ok (.amoMaxn (field w 22 5) (field w 17 5) (field w 12 5) (field w 1 3)) else .error .illegalWord
  | 24 => if (field w 1 3 = 2 ∨ field w 1 3 = 3) then .ok (.amoSwap (field w 22 5) (field w 17 5) (field w 12 5) (field w 1 3)) else .error .illegalWord
  | _ => .error .illegalWord

/-- Major 0x10 (R31, R161). -/
def decodeVInt (w : Nat) : Except DecodeError Instr :=
  match field w 8 4 with
  | 0 => if field w 4 4 < 8 then .ok (.vintVadd (field w 22 5) (field w 17 5) (field w 12 5) (field w 4 4) (field w 1 3)) else .error .illegalWord
  | 1 => if field w 4 4 < 8 then .ok (.vintVsub (field w 22 5) (field w 17 5) (field w 12 5) (field w 4 4) (field w 1 3)) else .error .illegalWord
  | 2 => if field w 4 4 < 8 then .ok (.vintVmul (field w 22 5) (field w 17 5) (field w 12 5) (field w 4 4) (field w 1 3)) else .error .illegalWord
  | 3 => if field w 4 4 < 8 then .ok (.vintVmin (field w 22 5) (field w 17 5) (field w 12 5) (field w 4 4) (field w 1 3)) else .error .illegalWord
  | 4 => if field w 4 4 < 8 then .ok (.vintVmax (field w 22 5) (field w 17 5) (field w 12 5) (field w 4 4) (field w 1 3)) else .error .illegalWord
  | 5 => if field w 4 4 < 4 then unlessReserved (field w 12 5) (.ok (.vintVabs (field w 22 5) (field w 17 5) (field w 4 4) (field w 1 3))) else .error .illegalWord
  | 6 => if field w 4 4 < 4 then unlessReserved (field w 12 5) (.ok (.vintVneg (field w 22 5) (field w 17 5) (field w 4 4) (field w 1 3))) else .error .illegalWord
  | 7 => if field w 4 4 < 8 then .ok (.vintVand (field w 22 5) (field w 17 5) (field w 12 5) (field w 4 4) (field w 1 3)) else .error .illegalWord
  | 8 => if field w 4 4 < 8 then .ok (.vintVor (field w 22 5) (field w 17 5) (field w 12 5) (field w 4 4) (field w 1 3)) else .error .illegalWord
  | 9 => if field w 4 4 < 8 then .ok (.vintVxor (field w 22 5) (field w 17 5) (field w 12 5) (field w 4 4) (field w 1 3)) else .error .illegalWord
  | 10 => if field w 4 4 < 8 then .ok (.vintVshl (field w 22 5) (field w 17 5) (field w 12 5) (field w 4 4) (field w 1 3)) else .error .illegalWord
  | 11 => if field w 4 4 < 8 then .ok (.vintVshr (field w 22 5) (field w 17 5) (field w 12 5) (field w 4 4) (field w 1 3)) else .error .illegalWord
  | 12 => if field w 4 4 < 8 then .ok (.vintVcmp (field w 25 2) (field w 22 3) (field w 17 5) (field w 12 5) (field w 4 4) (field w 1 3)) else .error .illegalWord
  | 13 => if field w 4 4 < 8 ∧ field w 12 5 < 6 then .ok (.vintVred (field w 22 5) (field w 17 5) (field w 12 5) (field w 4 4) (field w 1 3)) else .error .illegalWord
  | 14 => if (field w 4 4 = 0 ∨ field w 4 4 = 1 ∨ field w 4 4 = 4 ∨ field w 4 4 = 5) then .ok (.vdot4 (field w 22 5) (field w 17 5) (field w 12 5) (field w 4 4) (field w 1 3)) else .error .illegalWord
  | _ => .error .illegalWord

/-- Major 0x11 (R31, R161). -/
def decodeVFlt (w : Nat) : Except DecodeError Instr :=
  match field w 8 4 with
  | 0 => if 8 ≤ field w 4 4 ∧ field w 4 4 < 12 then .ok (.vfltVadd (field w 22 5) (field w 17 5) (field w 12 5) (field w 4 4) (field w 1 3)) else .error .illegalWord
  | 1 => if 8 ≤ field w 4 4 ∧ field w 4 4 < 12 then .ok (.vfltVsub (field w 22 5) (field w 17 5) (field w 12 5) (field w 4 4) (field w 1 3)) else .error .illegalWord
  | 2 => if 8 ≤ field w 4 4 ∧ field w 4 4 < 12 then .ok (.vfltVmul (field w 22 5) (field w 17 5) (field w 12 5) (field w 4 4) (field w 1 3)) else .error .illegalWord
  | 3 => if 8 ≤ field w 4 4 ∧ field w 4 4 < 12 then .ok (.vfltVmin (field w 22 5) (field w 17 5) (field w 12 5) (field w 4 4) (field w 1 3)) else .error .illegalWord
  | 4 => if 8 ≤ field w 4 4 ∧ field w 4 4 < 12 then .ok (.vfltVmax (field w 22 5) (field w 17 5) (field w 12 5) (field w 4 4) (field w 1 3)) else .error .illegalWord
  | 5 => if 8 ≤ field w 4 4 ∧ field w 4 4 < 12 then unlessReserved (field w 12 5) (.ok (.vfltVabs (field w 22 5) (field w 17 5) (field w 4 4) (field w 1 3))) else .error .illegalWord
  | 6 => if 8 ≤ field w 4 4 ∧ field w 4 4 < 12 then unlessReserved (field w 12 5) (.ok (.vfltVneg (field w 22 5) (field w 17 5) (field w 4 4) (field w 1 3))) else .error .illegalWord
  | 7 => if 8 ≤ field w 4 4 ∧ field w 4 4 < 12 then .ok (.vfma (field w 22 5) (field w 17 5) (field w 12 5) (field w 4 4) (field w 1 3)) else .error .illegalWord
  | 8 => if 8 ≤ field w 4 4 ∧ field w 4 4 < 12 then .ok (.vfnma (field w 22 5) (field w 17 5) (field w 12 5) (field w 4 4) (field w 1 3)) else .error .illegalWord
  | 9 => if 8 ≤ field w 4 4 ∧ field w 4 4 < 12 then .ok (.vminnum (field w 22 5) (field w 17 5) (field w 12 5) (field w 4 4) (field w 1 3)) else .error .illegalWord
  | 10 => if 8 ≤ field w 4 4 ∧ field w 4 4 < 12 then .ok (.vmaxnum (field w 22 5) (field w 17 5) (field w 12 5) (field w 4 4) (field w 1 3)) else .error .illegalWord
  | 12 => if 8 ≤ field w 4 4 ∧ field w 4 4 < 12 then .ok (.vfltVcmp (field w 25 2) (field w 22 3) (field w 17 5) (field w 12 5) (field w 4 4) (field w 1 3)) else .error .illegalWord
  | 13 => if 8 ≤ field w 4 4 ∧ field w 4 4 < 12 ∧ field w 12 5 < 5 then .ok (.vfltVred (field w 22 5) (field w 17 5) (field w 12 5) (field w 4 4) (field w 1 3)) else .error .illegalWord
  | _ => .error .illegalWord

/-- Major 0x12 (R31, R161). -/
def decodeVMisc (w : Nat) : Except DecodeError Instr :=
  match field w 8 4 with
  | 0 => .ok (.vsel (field w 22 5) (field w 17 5) (field w 12 5) (field w 4 4) (field w 1 3))
  | 1 => unlessReserved (field w 12 5) (.ok (.vsplat (field w 22 5) (field w 17 5) (field w 4 4) (field w 1 3)))
  | 2 => .ok (.vperm (field w 22 5) (field w 17 5) (field w 12 5) (field w 4 4) (field w 1 3))
  | 3 => unlessReserved (field w 1 3) (.ok (.vpack (field w 22 5) (field w 17 5) (field w 12 5) (field w 4 4)))
  | 4 => unlessReserved (field w 1 3 + field w 13 4) (.ok (.vunpack (field w 22 5) (field w 17 5) (field w 12 1) (field w 4 4)))
  | _ => .error .illegalWord

/-- Major 0x13 (R31, R161). -/
def decodeVSfu (w : Nat) : Except DecodeError Instr :=
  match field w 8 4 with
  | 0 => unlessReserved (field w 16 1) (.ok (.vcvt (field w 22 5) (field w 17 5) (field w 12 4) (field w 4 4) (field w 1 3)))
  | 1 => unlessReserved (field w 12 5) (.ok (.vrcp (field w 22 5) (field w 17 5) (field w 4 4) (field w 1 3)))
  | 2 => unlessReserved (field w 12 5) (.ok (.vrsqrt (field w 22 5) (field w 17 5) (field w 4 4) (field w 1 3)))
  | 3 => unlessReserved (field w 12 5) (.ok (.vsqrt (field w 22 5) (field w 17 5) (field w 4 4) (field w 1 3)))
  | 4 => unlessReserved (field w 12 5) (.ok (.vexp2 (field w 22 5) (field w 17 5) (field w 4 4) (field w 1 3)))
  | 5 => unlessReserved (field w 12 5) (.ok (.vlog2 (field w 22 5) (field w 17 5) (field w 4 4) (field w 1 3)))
  | 6 => unlessReserved (field w 12 5) (.ok (.vsinpi (field w 22 5) (field w 17 5) (field w 4 4) (field w 1 3)))
  | 7 => unlessReserved (field w 12 5) (.ok (.vcospi (field w 22 5) (field w 17 5) (field w 4 4) (field w 1 3)))
  | _ => .error .illegalWord

/-- Major 0x14 (R31, R186). -/
def decodeVMem (w : Nat) : Except DecodeError Instr :=
  match field w 8 4 with
  | 0 => .ok (.vld (field w 22 5) (field w 17 5) (field w 12 5) (field w 4 4) (field w 1 3))
  | 1 => .ok (.vst (field w 22 5) (field w 17 5) (field w 12 5) (field w 4 4) (field w 1 3))
  | 2 => .ok (.vlds (field w 22 5) (field w 17 5) (field w 12 5) (field w 4 4) (field w 1 3))
  | 3 => .ok (.vldx (field w 22 5) (field w 17 5) (field w 12 5) (field w 4 4) (field w 1 3))
  | 4 => .ok (.vstx (field w 22 5) (field w 17 5) (field w 12 5) (field w 4 4) (field w 1 3))
  | _ => .error .illegalWord

/-- Major 0x15 (R37). -/
def decodeExt (w : Nat) : Except DecodeError Instr :=
  match field w 25 2 with
  | 0 => unlessReserved (field w 19 3) (.ok (.exti (field w 22 3) (field w 17 2) (field w 1 16)))
  | 1 => unlessReserved (field w 1 16) (.ok (.extr (field w 22 3) (field w 17 5)))
  | _ => .error .illegalWord

/-- Major 0x16 (R134). -/
def decodeThread (w : Nat) : Except DecodeError Instr :=
  match field w 4 8 with
  | 0 => .ok (.spawn (field w 22 5) (field w 17 5) (field w 12 5) (field w 1 3))
  | 1 => unlessReserved (field w 1 3 + field w 12 5 + field w 22 5) (.ok (.quit (field w 17 5)))
  | 2 => unlessReserved (field w 17 5) (.ok (.reap (field w 22 5) (field w 12 5) (field w 1 3)))
  | 3 => unlessReserved (field w 12 5 + field w 22 5) (.ok (.kill (field w 17 5) (field w 1 3)))
  | 5 => unlessReserved (field w 1 3 + field w 12 5) (.ok (.pri (field w 22 5) (field w 17 5)))
  | 6 => unlessReserved (field w 12 5 + field w 22 5) (.ok (.migrate (field w 17 5) (field w 1 3)))
  | 7 => unlessReserved (field w 12 5 + field w 22 5) (.ok (.wake (field w 17 5) (field w 1 3)))
  | 8 => unlessReserved (field w 1 3 + field w 12 5 + field w 22 5) (.ok (.join (field w 17 5)))
  | 11 => unlessReserved (field w 12 15) (.ok (.bartry (field w 1 3)))
  | 12 => unlessReserved (field w 22 5) (.ok (.gang (field w 17 5) (field w 12 5) (field w 1 3)))
  | 14 => unlessReserved (field w 1 3 / 2) (.ok (.part (field w 22 5) (field w 17 5) (field w 12 5) (field w 1 3)))
  | 4 => unlessReserved (field w 1 3 + field w 12 15) (.ok .yield)
  | 9 => unlessReserved (field w 1 3 + field w 12 15) (.ok .leave)
  | 10 => unlessReserved (field w 1 3 + field w 12 15) (.ok .bar)
  | 13 => unlessReserved (field w 1 3 + field w 12 15) (.ok .ungang)
  | _ => .error .illegalWord

/-- Major 0x17 (R216). -/
def decodeCopy (w : Nat) : Except DecodeError Instr :=
  match field w 4 8 with
  | 0 => .ok (.get (field w 21 6) (field w 17 4) (field w 12 5) (field w 1 3))
  | 1 => .ok (.put (field w 21 6) (field w 17 4) (field w 12 5) (field w 1 3))
  | 2 => if field w 1 3 < 5 then .ok (.gets (field w 21 6) (field w 17 4) (field w 14 3) (field w 12 2) (field w 1 3)) else .error .illegalWord
  | 3 => if field w 1 3 < 5 then .ok (.puts (field w 21 6) (field w 17 4) (field w 14 3) (field w 12 2) (field w 1 3)) else .error .illegalWord
  | 4 => .ok (.rput (field w 21 6) (field w 17 4) (field w 12 5) (field w 1 3))
  | 8 => .ok (.gamoAdd (field w 21 6) (field w 17 4) (field w 13 4) (field w 12 1) (field w 1 3))
  | 9 => .ok (.gamoAnd (field w 21 6) (field w 17 4) (field w 13 4) (field w 12 1) (field w 1 3))
  | 10 => .ok (.gamoOr (field w 21 6) (field w 17 4) (field w 13 4) (field w 12 1) (field w 1 3))
  | 11 => .ok (.gamoXor (field w 21 6) (field w 17 4) (field w 13 4) (field w 12 1) (field w 1 3))
  | 12 => .ok (.gamoMin (field w 21 6) (field w 17 4) (field w 13 4) (field w 12 1) (field w 1 3))
  | 13 => .ok (.gamoMax (field w 21 6) (field w 17 4) (field w 13 4) (field w 12 1) (field w 1 3))
  | 14 => .ok (.gamoMinn (field w 21 6) (field w 17 4) (field w 13 4) (field w 12 1) (field w 1 3))
  | 15 => .ok (.gamoMaxn (field w 21 6) (field w 17 4) (field w 13 4) (field w 12 1) (field w 1 3))
  | 16 => .ok (.gamoSwap (field w 21 6) (field w 17 4) (field w 13 4) (field w 12 1) (field w 1 3))
  | 32 => unlessReserved (field w 22 5) (.ok (.kadd (field w 17 5) (field w 12 5) (field w 1 3)))
  | 33 => unlessReserved (field w 1 3 + field w 12 4) (.ok (.kset (field w 21 6) (field w 16 5)))
  | 34 => unlessReserved (field w 1 3 + field w 12 4) (.ok (.kread (field w 21 6) (field w 16 5)))
  | 40 => unlessReserved (field w 13 4) (.ok (.tierpf (field w 21 6) (field w 17 4) (field w 12 1) (field w 1 3)))
  | 48 => unlessReserved (field w 1 3 + field w 12 10) (.ok (.qstat (field w 22 5)))
  | _ => .error .illegalWord

/-- Major 0x18 (R235). -/
def decodeOrder (w : Nat) : Except DecodeError Instr :=
  match field w 4 8 with
  | 0 => .ok (.bind (field w 22 5) (field w 17 5) (field w 12 5) (field w 1 3))
  | 1 => .ok (.unbind (field w 22 5) (field w 17 5) (field w 12 5) (field w 1 3))
  | 2 => unlessReserved (field w 1 3 + field w 22 5) (.ok (.acqX (field w 17 5) (field w 12 5)))
  | 3 => unlessReserved (field w 1 3 + field w 22 5) (.ok (.acqS (field w 17 5) (field w 12 5)))
  | 4 => unlessReserved (field w 1 3 + field w 12 5 + field w 22 5) (.ok (.rel (field w 17 5)))
  | 16 => unlessReserved (field w 1 3 + field w 12 5 + field w 22 5) (.ok (.waitn (field w 17 5)))
  | 17 => unlessReserved (field w 1 3 + field w 12 4) (.ok (.waitc (field w 21 6) (field w 16 5)))
  | 24 => if (field w 1 3 = 2 ∨ field w 1 3 = 3 ∨ field w 1 3 = 6 ∨ field w 1 3 = 7) then .ok (.rcas (field w 22 5) (field w 17 5) (field w 12 5) (field w 1 3)) else .error .illegalWord
  | 32 => if (field w 1 3 = 2 ∨ field w 1 3 = 3 ∨ field w 1 3 = 6 ∨ field w 1 3 = 7) then .ok (.ramoAdd (field w 22 5) (field w 17 5) (field w 12 5) (field w 1 3)) else .error .illegalWord
  | 33 => if (field w 1 3 = 2 ∨ field w 1 3 = 3 ∨ field w 1 3 = 6 ∨ field w 1 3 = 7) then .ok (.ramoAnd (field w 22 5) (field w 17 5) (field w 12 5) (field w 1 3)) else .error .illegalWord
  | 34 => if (field w 1 3 = 2 ∨ field w 1 3 = 3 ∨ field w 1 3 = 6 ∨ field w 1 3 = 7) then .ok (.ramoOr (field w 22 5) (field w 17 5) (field w 12 5) (field w 1 3)) else .error .illegalWord
  | 35 => if (field w 1 3 = 2 ∨ field w 1 3 = 3 ∨ field w 1 3 = 6 ∨ field w 1 3 = 7) then .ok (.ramoXor (field w 22 5) (field w 17 5) (field w 12 5) (field w 1 3)) else .error .illegalWord
  | 36 => if (field w 1 3 = 2 ∨ field w 1 3 = 3 ∨ field w 1 3 = 6 ∨ field w 1 3 = 7) then .ok (.ramoMin (field w 22 5) (field w 17 5) (field w 12 5) (field w 1 3)) else .error .illegalWord
  | 37 => if (field w 1 3 = 2 ∨ field w 1 3 = 3 ∨ field w 1 3 = 6 ∨ field w 1 3 = 7) then .ok (.ramoMax (field w 22 5) (field w 17 5) (field w 12 5) (field w 1 3)) else .error .illegalWord
  | 38 => if (field w 1 3 = 2 ∨ field w 1 3 = 3 ∨ field w 1 3 = 6 ∨ field w 1 3 = 7) then .ok (.ramoMinn (field w 22 5) (field w 17 5) (field w 12 5) (field w 1 3)) else .error .illegalWord
  | 39 => if (field w 1 3 = 2 ∨ field w 1 3 = 3 ∨ field w 1 3 = 6 ∨ field w 1 3 = 7) then .ok (.ramoMaxn (field w 22 5) (field w 17 5) (field w 12 5) (field w 1 3)) else .error .illegalWord
  | 40 => if (field w 1 3 = 2 ∨ field w 1 3 = 3 ∨ field w 1 3 = 6 ∨ field w 1 3 = 7) then .ok (.ramoSwap (field w 22 5) (field w 17 5) (field w 12 5) (field w 1 3)) else .error .illegalWord
  | 48 => unlessReserved (field w 12 2) (.ok (.iflush (field w 21 6) (field w 16 5) (field w 14 2) (field w 1 3)))
  | 8 => unlessReserved (field w 1 3 + field w 12 15) (.ok .fenceCore)
  | 9 => unlessReserved (field w 1 3 + field w 12 15) (.ok .fenceClus)
  | 10 => unlessReserved (field w 1 3 + field w 12 15) (.ok .fenceDev)
  | 11 => unlessReserved (field w 1 3 + field w 12 15) (.ok .fenceDom)
  | _ => .error .illegalWord

/-- Major 0x19 (R270). -/
def decodeMatrix (w : Nat) : Except DecodeError Instr :=
  match field w 4 8 with
  | 0 => unlessReserved (field w 12 5 + field w 22 5) (.ok (.mldw (field w 17 5) (field w 1 3)))
  | 2 => unlessReserved (field w 25 2) (.ok (.mstream (field w 22 3) (field w 17 5) (field w 12 5) (field w 1 3)))
  | 3 => unlessReserved (field w 25 2) (.ok (.mstreams (field w 22 3) (field w 17 5) (field w 12 5) (field w 1 3)))
  | 4 => unlessReserved (field w 25 2) (.ok (.mstreamd (field w 22 3) (field w 17 5) (field w 12 5) (field w 1 3)))
  | 5 => unlessReserved (field w 22 5) (.ok (.mcomp (field w 17 5) (field w 12 5) (field w 1 3)))
  | 8 => unlessReserved (field w 1 3 + field w 12 10 + field w 25 2) (.ok (.azero (field w 22 3)))
  | 9 => unlessReserved (field w 1 3 + field w 25 2) (.ok (.aldr (field w 22 3) (field w 17 5) (field w 12 5)))
  | 10 => unlessReserved (field w 1 3 + field w 25 2) (.ok (.astr (field w 22 3) (field w 17 5) (field w 12 5)))
  | 11 => unlessReserved (field w 1 3 + field w 12 5 + field w 20 2 + field w 25 2) (.ok (.amove (field w 22 3) (field w 17 3)))
  | 12 => unlessReserved (field w 1 3 + field w 25 2) (.ok (.aout (field w 22 3) (field w 17 5) (field w 12 5)))
  | 1 => unlessReserved (field w 1 3 + field w 12 15) (.ok .mswap)
  | _ => .error .illegalWord

/-- Major 0x1a (R294). -/
def decodeXform (w : Nat) : Except DecodeError Instr :=
  match field w 4 8 with
  | 0 => unlessReserved (field w 1 3 + field w 17 5 + field w 25 2) (.ok (.fbrev (field w 22 3) (field w 12 5)))
  | 1 => unlessReserved (field w 1 3 + field w 17 5 + field w 25 2) (.ok (.fpass (field w 22 3) (field w 12 5)))
  | 2 => unlessReserved (field w 1 3 + field w 17 5 + field w 25 2) (.ok (.ftwg (field w 22 3) (field w 12 5)))
  | 3 => unlessReserved (field w 1 3 + field w 17 5 + field w 25 2) (.ok (.ftwm (field w 22 3) (field w 12 5)))
  | 4 => unlessReserved (field w 1 3 + field w 20 2 + field w 25 2) (.ok (.fcmul (field w 22 3) (field w 17 3) (field w 12 5)))
  | _ => .error .illegalWord

/-- Major 0x1b (R313). -/
def decodeStage (w : Nat) : Except DecodeError Instr :=
  match field w 4 8 with
  | 0 => unlessReserved (field w 1 3 + field w 22 5) (.ok (.chbind (field w 17 5) (field w 12 5)))
  | 1 => unlessReserved (field w 12 5 + field w 22 5) (.ok (.enq (field w 17 5) (field w 1 3)))
  | 2 => unlessReserved (field w 12 10) (.ok (.deq (field w 22 5) (field w 1 3)))
  | 3 => unlessReserved (field w 1 3) (.ok (.chwm (field w 22 5) (field w 17 5) (field w 12 5)))
  | 8 => unlessReserved (field w 22 5) (.ok (.send (field w 17 5) (field w 12 5) (field w 1 3)))
  | 9 => unlessReserved (field w 17 5) (.ok (.recv (field w 22 5) (field w 12 5) (field w 1 3)))
  | 16 => unlessReserved (field w 22 5) (.ok (.stagedef (field w 17 5) (field w 12 5) (field w 1 3)))
  | 17 => unlessReserved (field w 12 15) (.ok (.krecv (field w 1 3)))
  | 20 => unlessReserved (field w 1 3 + field w 12 5) (.ok (.klook (field w 22 5) (field w 17 5)))
  | 10 => unlessReserved (field w 1 3 + field w 12 15) (.ok .waitm)
  | 18 => unlessReserved (field w 1 3 + field w 12 15) (.ok .kyield)
  | 19 => unlessReserved (field w 1 3 + field w 12 15) (.ok .kretire)
  | _ => .error .illegalWord

/-- Major 0x1c (R347). -/
def decodeTask (w : Nat) : Except DecodeError Instr :=
  match field w 4 8 with
  | 0 => unlessReserved (field w 12 5) (.ok (.tpost (field w 22 5) (field w 17 5) (field w 1 3)))
  | 1 => unlessReserved (field w 22 5) (.ok (.tfoot (field w 17 5) (field w 12 5) (field w 1 3)))
  | 3 => unlessReserved (field w 1 3 + field w 12 5) (.ok (.tstat (field w 22 5) (field w 17 5)))
  | 4 => unlessReserved (field w 1 3 + field w 22 5) (.ok (.twait (field w 17 5) (field w 12 5)))
  | 2 => unlessReserved (field w 1 3 + field w 12 15) (.ok .tdone)
  | _ => .error .illegalWord

/-- Major 0x1d (R379, R402). -/
def decodeSystem (w : Nat) : Except DecodeError Instr :=
  match field w 4 8 with
  | 0 => unlessReserved (field w 1 3 + field w 12 5 + field w 22 5) (.ok (.trap (field w 17 5)))
  | 8 => unlessReserved (field w 17 5) (.ok (.csrr (field w 22 5) (field w 12 5) (field w 1 3)))
  | 9 => .ok (.csrw (field w 22 5) (field w 17 5) (field w 12 5) (field w 1 3))
  | 10 => .ok (.csrs (field w 22 5) (field w 17 5) (field w 12 5) (field w 1 3))
  | 11 => .ok (.csrc (field w 22 5) (field w 17 5) (field w 12 5) (field w 1 3))
  | 16 => unlessReserved (field w 1 3 + field w 12 5 + field w 22 5) (.ok (.snap (field w 17 5)))
  | 128 => unlessReserved (field w 22 5) (.ok (.ctxsave (field w 17 5) (field w 12 5) (field w 1 3)))
  | 129 => unlessReserved (field w 22 5) (.ok (.ctxload (field w 17 5) (field w 12 5) (field w 1 3)))
  | 130 => unlessReserved (field w 1 3 + field w 22 5) (.ok (.tlbinv (field w 17 5) (field w 12 5)))
  | 144 => .ok (.doffer (field w 22 5) (field w 17 5) (field w 12 5) (field w 1 3))
  | 145 => unlessReserved (field w 12 5) (.ok (.daccept (field w 22 5) (field w 17 5) (field w 1 3)))
  | 146 => unlessReserved (field w 12 5) (.ok (.dreject (field w 22 5) (field w 17 5) (field w 1 3)))
  | 147 => .ok (.dlend (field w 22 5) (field w 17 5) (field w 12 5) (field w 1 3))
  | 148 => unlessReserved (field w 12 5) (.ok (.drecall (field w 22 5) (field w 17 5) (field w 1 3)))
  | 149 => unlessReserved (field w 12 5) (.ok (.drelease (field w 22 5) (field w 17 5) (field w 1 3)))
  | 150 => unlessReserved (field w 1 3 + field w 12 5) (.ok (.dquery (field w 22 5) (field w 17 5)))
  | 160 => .ok (.psplit (field w 22 5) (field w 17 5) (field w 12 5) (field w 1 3))
  | 161 => unlessReserved (field w 12 5) (.ok (.pmerge (field w 22 5) (field w 17 5) (field w 1 3)))
  | 168 => .ok (.heatset (field w 22 5) (field w 17 5) (field w 12 5) (field w 1 3))
  | 176 => .ok (.curtain (field w 22 5) (field w 17 5) (field w 12 5) (field w 1 3))
  | 177 => .ok (.token (field w 22 5) (field w 17 5) (field w 12 5) (field w 1 3))
  | 1 => unlessReserved (field w 1 3 + field w 12 15) (.ok .ecall)
  | 2 => unlessReserved (field w 1 3 + field w 12 15) (.ok .ebreak)
  | 3 => unlessReserved (field w 1 3 + field w 12 15) (.ok .xret)
  | _ => .error .illegalWord

/-- A 32-bit word by its major opcode (R23, R30). -/
def decode32 (w : Nat) : Except DecodeError Instr :=
  match field w 27 5 with
  | 0 => decodeAlu w
  | 1 => .ok (.addi (field w 22 5) (field w 17 5) (field w 1 16))
  | 2 => .ok (.andi (field w 22 5) (field w 17 5) (field w 1 16))
  | 3 => .ok (.ori (field w 22 5) (field w 17 5) (field w 1 16))
  | 4 => .ok (.xori (field w 22 5) (field w 17 5) (field w 1 16))
  | 5 => decodeShi w
  | 6 => .ok (.slti (field w 22 5) (field w 17 5) (field w 1 16))
  | 7 => .ok (.lui (field w 22 5) (field w 1 21))
  | 8 => .ok (.addpc (field w 22 5) (field w 1 21))
  | 9 => decodeBr w
  | 10 => .ok (.j (field w 1 26))
  | 11 => .ok (.jal (field w 1 26))
  | 12 => .ok (.jalr (field w 22 5) (field w 17 5) (field w 1 16))
  | 13 => if field w 14 3 < 7 then .ok (.ld (field w 22 5) (field w 17 5) (field w 14 3) (field w 1 13)) else .error .illegalWord
  | 14 => if field w 14 3 < 4 then .ok (.st (field w 22 5) (field w 17 5) (field w 14 3) (field w 1 13)) else .error .illegalWord
  | 15 => decodeSyncMem w
  | 16 => decodeVInt w
  | 17 => decodeVFlt w
  | 18 => decodeVMisc w
  | 19 => decodeVSfu w
  | 20 => decodeVMem w
  | 21 => decodeExt w
  | 22 => decodeThread w
  | 23 => decodeCopy w
  | 24 => decodeOrder w
  | 25 => decodeMatrix w
  | 26 => decodeXform w
  | 27 => decodeStage w
  | 28 => decodeTask w
  | 29 => decodeSystem w
  | _ => .error .illegalWord

/-- A 16-bit word by its op16 (R27); the word 0x0000 is not C.MV. -/
def decode16 (w : Nat) : Except DecodeError Instr :=
  match field w 11 5 with
  | 0 => if w = 0 then .error .illegalWord else .ok (.cMv (field w 6 5) (field w 1 5))
  | 1 => .ok (.cAdd (field w 6 5) (field w 1 5))
  | 2 => .ok (.cSub (field w 6 5) (field w 1 5))
  | 3 => .ok (.cAnd (field w 6 5) (field w 1 5))
  | 4 => .ok (.cOr (field w 6 5) (field w 1 5))
  | 5 => .ok (.cAddi (field w 6 5) (field w 1 5))
  | 6 => .ok (.cLi (field w 6 5) (field w 1 5))
  | 7 => .ok (.cSlli (field w 6 5) (field w 1 5))
  | 8 => .ok (.cSrli (field w 6 5) (field w 1 5))
  | 9 => .ok (.cSrai (field w 6 5) (field w 1 5))
  | 10 => .ok (.cLw (field w 6 5) (field w 1 5))
  | 11 => .ok (.cSw (field w 6 5) (field w 1 5))
  | 12 => .ok (.cBeqz (field w 6 5) (field w 1 5))
  | 13 => .ok (.cBnez (field w 6 5) (field w 1 5))
  | 14 => unlessReserved (field w 6 5) (.ok (.cJr (field w 1 5)))
  | 15 => unlessReserved (field w 1 10) (.ok .cNop)
  | _ => .error .illegalWord

/-- The length in bytes that bit 0 of the first halfword gives (R20). -/
def wordBytes (half : Nat) : Nat := if half % 2 = 0 then 2 else 4

/-- One whole word by its length in bytes. -/
def decodeWord (len w : Nat) : Except DecodeError Instr :=
  if len = 2 then decode16 w else decode32 w

/-- The instruction at the head of a byte list and the bytes after it (R1, R20). -/
def decode : List Byte → Except DecodeError (Instr × List Byte)
  | b0 :: b1 :: rest =>
    let h := b0.toNat + 256 * b1.toNat
    if wordBytes h = 2 then (decode16 h).map (·, rest)
    else
      match rest with
      | b2 :: b3 :: rest' => (decode32 (h + 65536 * (b2.toNat + 256 * b3.toNat))).map (·, rest')
      | _ => .error .truncated
  | _ => .error .truncated

/-- The `n` low bytes of `w`, the least significant first (R1). -/
def leBytes : Nat → Nat → List Byte
  | 0, _ => []
  | n + 1, w => BitVec.ofNat 8 w :: leBytes n (w / 256)

/-- The number a little-endian byte list holds (R1). -/
def ofLeBytes : List Byte → Nat
  | [] => 0
  | b :: bs => b.toNat + 256 * ofLeBytes bs

/-- A word with one operand field placed at its lowest bit. -/
def with1 (m x lx : Nat) : Nat := m + x * 2 ^ lx
/-- A word with two operand fields placed. -/
def with2 (m x lx y ly : Nat) : Nat := with1 m x lx + y * 2 ^ ly
/-- A word with three operand fields placed. -/
def with3 (m x lx y ly z lz : Nat) : Nat := with2 m x lx y ly + z * 2 ^ lz
/-- A word with four operand fields placed. -/
def with4 (m x lx y ly z lz u lu : Nat) : Nat := with3 m x lx y ly z lz + u * 2 ^ lu
/-- A word with five operand fields placed. -/
def with5 (m x lx y ly z lz u lu v lv : Nat) : Nat := with4 m x lx y ly z lz u lu + v * 2 ^ lv
/-- A word with six operand fields placed. -/
def with6 (m x lx y ly z lz u lu v lv t lt : Nat) : Nat := with5 m x lx y ly z lz u lu v lv + t * 2 ^ lt

/-- The word of an instruction: its length in bits and its value, from the encoding tables of the
spec; `none` for a device step, which has no word. -/
def encode : Instr → Option (Nat × Nat)
  | .add d a b => some (32, with3 0x00000001 d 22 a 17 b 12)
  | .sub d a b => some (32, with3 0x00000011 d 22 a 17 b 12)
  | .and d a b => some (32, with3 0x00000021 d 22 a 17 b 12)
  | .or d a b => some (32, with3 0x00000031 d 22 a 17 b 12)
  | .xor d a b => some (32, with3 0x00000041 d 22 a 17 b 12)
  | .andn d a b => some (32, with3 0x00000051 d 22 a 17 b 12)
  | .sll d a b => some (32, with3 0x00000081 d 22 a 17 b 12)
  | .srl d a b => some (32, with3 0x00000091 d 22 a 17 b 12)
  | .sra d a b => some (32, with3 0x000000A1 d 22 a 17 b 12)
  | .rol d a b => some (32, with3 0x000000B1 d 22 a 17 b 12)
  | .min d a b => some (32, with3 0x00000101 d 22 a 17 b 12)
  | .max d a b => some (32, with3 0x00000111 d 22 a 17 b 12)
  | .minn d a b => some (32, with3 0x00000121 d 22 a 17 b 12)
  | .maxn d a b => some (32, with3 0x00000131 d 22 a 17 b 12)
  | .slt d a b => some (32, with3 0x00000141 d 22 a 17 b 12)
  | .sltn d a b => some (32, with3 0x00000151 d 22 a 17 b 12)
  | .sel d a b => some (32, with3 0x00000161 d 22 a 17 b 12)
  | .addsh d a b s => some (32, with4 0x00000181 d 22 a 17 b 12 s 1)
  | .mul d a b => some (32, with3 0x00000201 d 22 a 17 b 12)
  | .mulh d a b => some (32, with3 0x00000211 d 22 a 17 b 12)
  | .mulhn d a b => some (32, with3 0x00000221 d 22 a 17 b 12)
  | .div d a b => some (32, with3 0x00000241 d 22 a 17 b 12)
  | .divn d a b => some (32, with3 0x00000251 d 22 a 17 b 12)
  | .rem d a b => some (32, with3 0x00000261 d 22 a 17 b 12)
  | .remn d a b => some (32, with3 0x00000271 d 22 a 17 b 12)
  | .clz d a => some (32, with2 0x00000301 d 22 a 17)
  | .ctz d a => some (32, with2 0x00000311 d 22 a 17)
  | .popc d a => some (32, with2 0x00000321 d 22 a 17)
  | .bswap d a => some (32, with2 0x00000331 d 22 a 17)
  | .slli d a s h => some (32, with4 0x28000001 d 22 a 17 s 12 h 6)
  | .srli d a s h => some (32, with4 0x28000011 d 22 a 17 s 12 h 6)
  | .srai d a s h => some (32, with4 0x28000021 d 22 a 17 s 12 h 6)
  | .roli d a s h => some (32, with4 0x28000031 d 22 a 17 s 12 h 6)
  | .addi d a i => some (32, with3 0x08000001 d 22 a 17 i 1)
  | .andi d a i => some (32, with3 0x10000001 d 22 a 17 i 1)
  | .ori d a i => some (32, with3 0x18000001 d 22 a 17 i 1)
  | .xori d a i => some (32, with3 0x20000001 d 22 a 17 i 1)
  | .slti d a i => some (32, with3 0x30000001 d 22 a 17 i 1)
  | .lui d i => some (32, with2 0x38000001 d 22 i 1)
  | .addpc d i => some (32, with2 0x40000001 d 22 i 1)
  | .beq a b o => some (32, with3 0x48000001 a 22 b 17 o 1)
  | .bne a b o => some (32, with3 0x48004001 a 22 b 17 o 1)
  | .blt a b o => some (32, with3 0x48008001 a 22 b 17 o 1)
  | .bge a b o => some (32, with3 0x4800C001 a 22 b 17 o 1)
  | .bltn a b o => some (32, with3 0x48010001 a 22 b 17 o 1)
  | .bgen a b o => some (32, with3 0x48014001 a 22 b 17 o 1)
  | .bany a b o => some (32, with3 0x48018001 a 22 b 17 o 1)
  | .bnone a b o => some (32, with3 0x4801C001 a 22 b 17 o 1)
  | .j o => some (32, with1 0x50000001 o 1)
  | .jal o => some (32, with1 0x58000001 o 1)
  | .jalr d a i => some (32, with3 0x60000001 d 22 a 17 i 1)
  | .ld d a w o => some (32, with4 0x68000001 d 22 a 17 w 14 o 1)
  | .st d a w o => some (32, with4 0x70000001 d 22 a 17 w 14 o 1)
  | .cMv d s => some (16, with2 0x0000 d 6 s 1)
  | .cAdd d s => some (16, with2 0x0800 d 6 s 1)
  | .cSub d s => some (16, with2 0x1000 d 6 s 1)
  | .cAnd d s => some (16, with2 0x1800 d 6 s 1)
  | .cOr d s => some (16, with2 0x2000 d 6 s 1)
  | .cAddi d i => some (16, with2 0x2800 d 6 i 1)
  | .cLi d i => some (16, with2 0x3000 d 6 i 1)
  | .cSlli d s => some (16, with2 0x3800 d 6 s 1)
  | .cSrli d s => some (16, with2 0x4000 d 6 s 1)
  | .cSrai d s => some (16, with2 0x4800 d 6 s 1)
  | .cLw d s => some (16, with2 0x5000 d 6 s 1)
  | .cSw d s => some (16, with2 0x5800 d 6 s 1)
  | .cBeqz d o => some (16, with2 0x6000 d 6 o 1)
  | .cBnez d o => some (16, with2 0x6800 d 6 o 1)
  | .cJr s => some (16, with1 0x7000 s 1)
  | .exti n s i => some (32, with3 0xA8000001 n 22 s 17 i 1)
  | .extr n a => some (32, with2 0xAA000001 n 22 a 17)
  | .ldfe d a q => some (32, with3 0x78000001 d 22 a 17 q 1)
  | .ldf d a q => some (32, with3 0x78000011 d 22 a 17 q 1)
  | .stfe d a q => some (32, with3 0x78000021 d 22 a 17 q 1)
  | .stf d a q => some (32, with3 0x78000031 d 22 a 17 q 1)
  | .feset a s q => some (32, with3 0x78000041 a 17 s 12 q 1)
  | .feq d a => some (32, with2 0x78000051 d 22 a 17)
  | .feqTake d a => some (32, with2 0x78000053 d 22 a 17)
  | .cas d a b q => some (32, with4 0x78000081 d 22 a 17 b 12 q 1)
  | .amoAdd d a b q => some (32, with4 0x78000101 d 22 a 17 b 12 q 1)
  | .amoAnd d a b q => some (32, with4 0x78000111 d 22 a 17 b 12 q 1)
  | .amoOr d a b q => some (32, with4 0x78000121 d 22 a 17 b 12 q 1)
  | .amoXor d a b q => some (32, with4 0x78000131 d 22 a 17 b 12 q 1)
  | .amoMin d a b q => some (32, with4 0x78000141 d 22 a 17 b 12 q 1)
  | .amoMax d a b q => some (32, with4 0x78000151 d 22 a 17 b 12 q 1)
  | .amoMinn d a b q => some (32, with4 0x78000161 d 22 a 17 b 12 q 1)
  | .amoMaxn d a b q => some (32, with4 0x78000171 d 22 a 17 b 12 q 1)
  | .amoSwap d a b q => some (32, with4 0x78000181 d 22 a 17 b 12 q 1)
  | .vintVadd d a b t q => some (32, with5 0x80000001 d 22 a 17 b 12 t 4 q 1)
  | .vintVsub d a b t q => some (32, with5 0x80000101 d 22 a 17 b 12 t 4 q 1)
  | .vintVmul d a b t q => some (32, with5 0x80000201 d 22 a 17 b 12 t 4 q 1)
  | .vintVmin d a b t q => some (32, with5 0x80000301 d 22 a 17 b 12 t 4 q 1)
  | .vintVmax d a b t q => some (32, with5 0x80000401 d 22 a 17 b 12 t 4 q 1)
  | .vintVabs d a t q => some (32, with4 0x80000501 d 22 a 17 t 4 q 1)
  | .vintVneg d a t q => some (32, with4 0x80000601 d 22 a 17 t 4 q 1)
  | .vintVand d a b t q => some (32, with5 0x80000701 d 22 a 17 b 12 t 4 q 1)
  | .vintVor d a b t q => some (32, with5 0x80000801 d 22 a 17 b 12 t 4 q 1)
  | .vintVxor d a b t q => some (32, with5 0x80000901 d 22 a 17 b 12 t 4 q 1)
  | .vintVshl d a b t q => some (32, with5 0x80000A01 d 22 a 17 b 12 t 4 q 1)
  | .vintVshr d a b t q => some (32, with5 0x80000B01 d 22 a 17 b 12 t 4 q 1)
  | .vintVcmp c p a b t q => some (32, with6 0x80000C01 c 25 p 22 a 17 b 12 t 4 q 1)
  | .vintVred d a k t q => some (32, with5 0x80000D01 d 22 a 17 k 12 t 4 q 1)
  | .vdot4 d a b t q => some (32, with5 0x80000E01 d 22 a 17 b 12 t 4 q 1)
  | .vfltVadd d a b t q => some (32, with5 0x88000001 d 22 a 17 b 12 t 4 q 1)
  | .vfltVsub d a b t q => some (32, with5 0x88000101 d 22 a 17 b 12 t 4 q 1)
  | .vfltVmul d a b t q => some (32, with5 0x88000201 d 22 a 17 b 12 t 4 q 1)
  | .vfltVmin d a b t q => some (32, with5 0x88000301 d 22 a 17 b 12 t 4 q 1)
  | .vfltVmax d a b t q => some (32, with5 0x88000401 d 22 a 17 b 12 t 4 q 1)
  | .vfltVabs d a t q => some (32, with4 0x88000501 d 22 a 17 t 4 q 1)
  | .vfltVneg d a t q => some (32, with4 0x88000601 d 22 a 17 t 4 q 1)
  | .vfma d a b t q => some (32, with5 0x88000701 d 22 a 17 b 12 t 4 q 1)
  | .vfnma d a b t q => some (32, with5 0x88000801 d 22 a 17 b 12 t 4 q 1)
  | .vminnum d a b t q => some (32, with5 0x88000901 d 22 a 17 b 12 t 4 q 1)
  | .vmaxnum d a b t q => some (32, with5 0x88000A01 d 22 a 17 b 12 t 4 q 1)
  | .vfltVcmp c p a b t q => some (32, with6 0x88000C01 c 25 p 22 a 17 b 12 t 4 q 1)
  | .vfltVred d a k t q => some (32, with5 0x88000D01 d 22 a 17 k 12 t 4 q 1)
  | .vsel d a b t q => some (32, with5 0x90000001 d 22 a 17 b 12 t 4 q 1)
  | .vsplat d a t q => some (32, with4 0x90000101 d 22 a 17 t 4 q 1)
  | .vperm d a b t q => some (32, with5 0x90000201 d 22 a 17 b 12 t 4 q 1)
  | .vpack d a b t => some (32, with4 0x90000301 d 22 a 17 b 12 t 4)
  | .vunpack d a h t => some (32, with4 0x90000401 d 22 a 17 h 12 t 4)
  | .vcvt d a u t q => some (32, with5 0x98000001 d 22 a 17 u 12 t 4 q 1)
  | .vrcp d a t q => some (32, with4 0x98000101 d 22 a 17 t 4 q 1)
  | .vrsqrt d a t q => some (32, with4 0x98000201 d 22 a 17 t 4 q 1)
  | .vsqrt d a t q => some (32, with4 0x98000301 d 22 a 17 t 4 q 1)
  | .vexp2 d a t q => some (32, with4 0x98000401 d 22 a 17 t 4 q 1)
  | .vlog2 d a t q => some (32, with4 0x98000501 d 22 a 17 t 4 q 1)
  | .vsinpi d a t q => some (32, with4 0x98000601 d 22 a 17 t 4 q 1)
  | .vcospi d a t q => some (32, with4 0x98000701 d 22 a 17 t 4 q 1)
  | .vld d a b t q => some (32, with5 0xA0000001 d 22 a 17 b 12 t 4 q 1)
  | .vst d a b t q => some (32, with5 0xA0000101 d 22 a 17 b 12 t 4 q 1)
  | .vlds d a b t q => some (32, with5 0xA0000201 d 22 a 17 b 12 t 4 q 1)
  | .vldx d a b t q => some (32, with5 0xA0000301 d 22 a 17 b 12 t 4 q 1)
  | .vstx d a b t q => some (32, with5 0xA0000401 d 22 a 17 b 12 t 4 q 1)
  | .spawn d a b q => some (32, with4 0xB0000001 d 22 a 17 b 12 q 1)
  | .quit a => some (32, with1 0xB0000011 a 17)
  | .reap d b q => some (32, with3 0xB0000021 d 22 b 12 q 1)
  | .kill a q => some (32, with2 0xB0000031 a 17 q 1)
  | .pri d a => some (32, with2 0xB0000051 d 22 a 17)
  | .migrate a q => some (32, with2 0xB0000061 a 17 q 1)
  | .wake a q => some (32, with2 0xB0000071 a 17 q 1)
  | .join a => some (32, with1 0xB0000081 a 17)
  | .bartry q => some (32, with1 0xB00000B1 q 1)
  | .gang a n q => some (32, with3 0xB00000C1 a 17 n 12 q 1)
  | .part d a b q => some (32, with4 0xB00000E1 d 22 a 17 b 12 q 1)
  | .get k m b q => some (32, with4 0xB8000001 k 21 m 17 b 12 q 1)
  | .put k m b q => some (32, with4 0xB8000011 k 21 m 17 b 12 q 1)
  | .gets k m p jj z => some (32, with5 0xB8000021 k 21 m 17 p 14 jj 12 z 1)
  | .puts k m p jj z => some (32, with5 0xB8000031 k 21 m 17 p 14 jj 12 z 1)
  | .rput k m b q => some (32, with4 0xB8000041 k 21 m 17 b 12 q 1)
  | .gamoAdd k m t w q => some (32, with5 0xB8000081 k 21 m 17 t 13 w 12 q 1)
  | .gamoAnd k m t w q => some (32, with5 0xB8000091 k 21 m 17 t 13 w 12 q 1)
  | .gamoOr k m t w q => some (32, with5 0xB80000A1 k 21 m 17 t 13 w 12 q 1)
  | .gamoXor k m t w q => some (32, with5 0xB80000B1 k 21 m 17 t 13 w 12 q 1)
  | .gamoMin k m t w q => some (32, with5 0xB80000C1 k 21 m 17 t 13 w 12 q 1)
  | .gamoMax k m t w q => some (32, with5 0xB80000D1 k 21 m 17 t 13 w 12 q 1)
  | .gamoMinn k m t w q => some (32, with5 0xB80000E1 k 21 m 17 t 13 w 12 q 1)
  | .gamoMaxn k m t w q => some (32, with5 0xB80000F1 k 21 m 17 t 13 w 12 q 1)
  | .gamoSwap k m t w q => some (32, with5 0xB8000101 k 21 m 17 t 13 w 12 q 1)
  | .kadd a b q => some (32, with3 0xB8000201 a 17 b 12 q 1)
  | .kset k r => some (32, with2 0xB8000211 k 21 r 16)
  | .kread k r => some (32, with2 0xB8000221 k 21 r 16)
  | .tierpf k m r q => some (32, with4 0xB8000281 k 21 m 17 r 12 q 1)
  | .qstat d => some (32, with1 0xB8000301 d 22)
  | .bind d a b q => some (32, with4 0xC0000001 d 22 a 17 b 12 q 1)
  | .unbind d a b q => some (32, with4 0xC0000011 d 22 a 17 b 12 q 1)
  | .acqX a b => some (32, with2 0xC0000021 a 17 b 12)
  | .acqS a b => some (32, with2 0xC0000031 a 17 b 12)
  | .rel a => some (32, with1 0xC0000041 a 17)
  | .waitn a => some (32, with1 0xC0000101 a 17)
  | .waitc k r => some (32, with2 0xC0000111 k 21 r 16)
  | .rcas d a b q => some (32, with4 0xC0000181 d 22 a 17 b 12 q 1)
  | .ramoAdd d a b q => some (32, with4 0xC0000201 d 22 a 17 b 12 q 1)
  | .ramoAnd d a b q => some (32, with4 0xC0000211 d 22 a 17 b 12 q 1)
  | .ramoOr d a b q => some (32, with4 0xC0000221 d 22 a 17 b 12 q 1)
  | .ramoXor d a b q => some (32, with4 0xC0000231 d 22 a 17 b 12 q 1)
  | .ramoMin d a b q => some (32, with4 0xC0000241 d 22 a 17 b 12 q 1)
  | .ramoMax d a b q => some (32, with4 0xC0000251 d 22 a 17 b 12 q 1)
  | .ramoMinn d a b q => some (32, with4 0xC0000261 d 22 a 17 b 12 q 1)
  | .ramoMaxn d a b q => some (32, with4 0xC0000271 d 22 a 17 b 12 q 1)
  | .ramoSwap d a b q => some (32, with4 0xC0000281 d 22 a 17 b 12 q 1)
  | .iflush k a s q => some (32, with4 0xC0000301 k 21 a 16 s 14 q 1)
  | .mldw a q => some (32, with2 0xC8000001 a 17 q 1)
  | .mstream d a b q => some (32, with4 0xC8000021 d 22 a 17 b 12 q 1)
  | .mstreams d a b q => some (32, with4 0xC8000031 d 22 a 17 b 12 q 1)
  | .mstreamd d a b q => some (32, with4 0xC8000041 d 22 a 17 b 12 q 1)
  | .mcomp a b q => some (32, with3 0xC8000051 a 17 b 12 q 1)
  | .azero d => some (32, with1 0xC8000081 d 22)
  | .aldr d a b => some (32, with3 0xC8000091 d 22 a 17 b 12)
  | .astr d a b => some (32, with3 0xC80000A1 d 22 a 17 b 12)
  | .amove d a => some (32, with2 0xC80000B1 d 22 a 17)
  | .aout d a b => some (32, with3 0xC80000C1 d 22 a 17 b 12)
  | .fbrev d b => some (32, with2 0xD0000001 d 22 b 12)
  | .fpass d b => some (32, with2 0xD0000011 d 22 b 12)
  | .ftwg d b => some (32, with2 0xD0000021 d 22 b 12)
  | .ftwm d b => some (32, with2 0xD0000031 d 22 b 12)
  | .fcmul d a b => some (32, with3 0xD0000041 d 22 a 17 b 12)
  | .chbind u v => some (32, with2 0xD8000001 u 17 v 12)
  | .enq a q => some (32, with2 0xD8000011 a 17 q 1)
  | .deq d q => some (32, with2 0xD8000021 d 22 q 1)
  | .chwm d a c => some (32, with3 0xD8000031 d 22 a 17 c 12)
  | .send a b q => some (32, with3 0xD8000081 a 17 b 12 q 1)
  | .recv d b q => some (32, with3 0xD8000091 d 22 b 12 q 1)
  | .stagedef a b q => some (32, with3 0xD8000101 a 17 b 12 q 1)
  | .krecv q => some (32, with1 0xD8000111 q 1)
  | .klook d a => some (32, with2 0xD8000141 d 22 a 17)
  | .tpost d a q => some (32, with3 0xE0000001 d 22 a 17 q 1)
  | .tfoot a n q => some (32, with3 0xE0000011 a 17 n 12 q 1)
  | .tstat d a => some (32, with2 0xE0000031 d 22 a 17)
  | .twait a b => some (32, with2 0xE0000041 a 17 b 12)
  | .trap a => some (32, with1 0xE8000001 a 17)
  | .csrr d n m => some (32, with3 0xE8000081 d 22 n 12 m 1)
  | .csrw d a n m => some (32, with4 0xE8000091 d 22 a 17 n 12 m 1)
  | .csrs d a n m => some (32, with4 0xE80000A1 d 22 a 17 n 12 m 1)
  | .csrc d a n m => some (32, with4 0xE80000B1 d 22 a 17 n 12 m 1)
  | .snap a => some (32, with1 0xE8000101 a 17)
  | .ctxsave a b q => some (32, with3 0xE8000801 a 17 b 12 q 1)
  | .ctxload a b q => some (32, with3 0xE8000811 a 17 b 12 q 1)
  | .tlbinv a b => some (32, with2 0xE8000821 a 17 b 12)
  | .doffer d a b q => some (32, with4 0xE8000901 d 22 a 17 b 12 q 1)
  | .daccept d a q => some (32, with3 0xE8000911 d 22 a 17 q 1)
  | .dreject d a q => some (32, with3 0xE8000921 d 22 a 17 q 1)
  | .dlend d a b q => some (32, with4 0xE8000931 d 22 a 17 b 12 q 1)
  | .drecall d a q => some (32, with3 0xE8000941 d 22 a 17 q 1)
  | .drelease d a q => some (32, with3 0xE8000951 d 22 a 17 q 1)
  | .dquery d a => some (32, with2 0xE8000961 d 22 a 17)
  | .psplit d a b q => some (32, with4 0xE8000A01 d 22 a 17 b 12 q 1)
  | .pmerge d a q => some (32, with3 0xE8000A11 d 22 a 17 q 1)
  | .heatset d a b q => some (32, with4 0xE8000A81 d 22 a 17 b 12 q 1)
  | .curtain d a b q => some (32, with4 0xE8000B01 d 22 a 17 b 12 q 1)
  | .token d a b q => some (32, with4 0xE8000B11 d 22 a 17 b 12 q 1)
  | .cNop => some (16, 0x7800)
  | .yield => some (32, 0xB0000041)
  | .leave => some (32, 0xB0000091)
  | .bar => some (32, 0xB00000A1)
  | .ungang => some (32, 0xB00000D1)
  | .waitm => some (32, 0xD80000A1)
  | .fenceCore => some (32, 0xC0000081)
  | .fenceClus => some (32, 0xC0000091)
  | .fenceDev => some (32, 0xC00000A1)
  | .fenceDom => some (32, 0xC00000B1)
  | .mswap => some (32, 0xC8000011)
  | .kyield => some (32, 0xD8000121)
  | .kretire => some (32, 0xD8000131)
  | .tdone => some (32, 0xE0000021)
  | .ecall => some (32, 0xE8000011)
  | .ebreak => some (32, 0xE8000021)
  | .xret => some (32, 0xE8000031)
  | .illegalEncodingDecode => none
  | .fetchFill => none
  | .iflushComplete => none
  | .causeTaken => none
  | .monitorCompletion => none
  | .divideByZeroDelivery => none
  | .lsCorrectedWriteback => none
  | .coreRemap => none
  | .wingsSwapOut => none
  | .wingsSlotGrant => none
  | .wingsMoveDone => none
  | .spawnRequest => none
  | .spawnReply => none
  | .killRequest => none
  | .killReply => none
  | .migrateRequest => none
  | .migrateReply => none
  | .quitDrainEnd => none
  | .reapRecord => none
  | .crewPhaseComplete => none
  | .gangBufferExecute => none
  | .gangVredCombine => none
  | .umpireQueueSelect => none
  | .launch => none
  | .launchPlacement => none
  | .placementCommand => none
  | .launchGateLift => none
  | .launchComplete => none
  | .wait => none
  | .signal => none
  | .seed => none
  | .qadmit => none
  | .doorbell => none
  | .copyEntryService => none
  | .copyEntryComplete => none
  | .copyEntryFail => none
  | .translationWalk => none
  | .translationFaultStall => none
  | .faultRecordWrite => none
  | .faultReplyReplay => none
  | .faultReplyFail => none
  | .tierMigratePage => none
  | .directRead => none
  | .rputWrite => none
  | .counterIncrement => none
  | .counterWindowWrite => none
  | .lsWindowAccess => none
  | .remoteAtomicPerform => none
  | .remoteAtomicReply => none
  | .remoteAtomicCancel => none
  | .cancelAtTarget => none
  | .bindingRequest => none
  | .lockRequest => none
  | .lockRelease => none
  | .lockGrant => none
  | .hubAnswer => none
  | .messageArrival => none
  | .messageReply => none
  | .channelPushArrival => none
  | .channelCreditReturn => none
  | .channelDeadlock => none
  | .recordDispatch => none
  | .roleSpill => none
  | .roleFetchBack => none
  | .idleLimitExpiry => none
  | .taskPostAtHub => none
  | .taskDispatch => none
  | .taskCommit => none
  | .roomAbort => none
  | .weightLoad => none
  | .weightCompress => none
  | .planeSwap => none
  | .streamRowWrite => none
  | .accumulatorWriteOut => none
  | .transformExecute => none
  | .footprintRetire => none
  | .heatBoundary => none
  | .heatExpired => none
  | .linkSlotOpen => none
  | .recallDeadlineExpiry => none
  | .deedTransitEnd => none
  | .zeroOnReadCleared => none
  | .dpcmdDoffer => none
  | .dpcmdDaccept => none
  | .dpcmdDreject => none
  | .dpcmdDlend => none
  | .dpcmdDrecall => none
  | .dpcmdDrelease => none
  | .dpcmdDquery => none
  | .dpcmdNone => none
  | .vipost => none
  | .dbghalt => none
  | .dbgctl => none
  | .snapshotFiring => none
  | .snapshotPin => none
  | .watchdog => none
  | .mgmtClaim => none
  | .mgmtRelease => none
  | .devidWrite => none
  | .linkTraining => none
  | .reset => none
  | .wipeComplete => none
  | .recoveryImage => none
  | .raisesvn => none
  | .lifeCycleTransition => none
  | .monitorVersion => none
  | .policyload => none
  | .monstage => none
  | .thermal => none
  | .monitorUnknownCall => none
  | .monitorUpdateApply => none
  | .thermalThrottle => none
  | .hbmTemperatureThreshold => none
  | .catastrophicShutdown => none
  | .registerWrite => none
  | .azeroAmoveAtHead => none
  | .remoteAcknowledgement => none
  | .hostMemoryAccess => none
  | .powerLoss => none
  | .localStoreEccError => none
  | .dramEccError => none

/-- The instruction this decoder reads from a table word of `nbits` bits: the bytes of the word in
memory order, with zero bytes above it up to the longest instruction. -/
def decodeTableWord (nbits w : Nat) : Option Instr :=
  match decode (leBytes (nbits / 8) w ++ leBytes (4 - nbits / 8) 0) with
  | .ok (i, _) => some i
  | .error _ => none

end Sys2Proof
end

