-- ==== Sys2Proof/Config.lean ====
section
/-! DEFINITION. What the machine takes from outside the spec's words: the free values. Each is opaque,
without a body, so no proof can use a value of it; the assumption log names each. -/

namespace Sys2Proof.Config

/-- TIME's advance, in nanoseconds, over the passage of core time numbered by the argument: R441 gives
no relation between the two clocks (DESIGN CHOICE, log entry 4). -/
opaque regattaNanos : Nat → Nat

/-- The XVAL of a cause whose rule names no value, by the running number of such values (DESIGN CHOICE, log entry 11). -/
opaque unstatedXval : Nat → Word

/-- A byte that another device of the domain returns, by its running number (DESIGN CHOICE, log entry 7). -/
opaque fabricByte : Nat → Byte

/-- A byte of a key drawn from on-die entropy, by its running number (R431, DESIGN CHOICE, log entry 9). -/
opaque entropyByte : Nat → Byte

/-- What a boot image's 64-byte header says: image size, SVN, monitor version, flash offset of the signature; none where it is
not well formed. R427 names the fields and gives no layout (DESIGN CHOICE, log entry 9). -/
opaque bootHeader : List Byte → Option (Nat × Nat × Nat × Nat)

/-- The boot flash as it leaves the factory, by offset (DESIGN CHOICE, log entry 9). -/
opaque factoryFlash : Nat → Byte

/-- A byte that a loss of power leaves in a torn range of the boot flash, by its running number (R429, DESIGN CHOICE, log entry 9). -/
opaque tornByte : Nat → Byte

/-- A byte of the 64-byte public key that boot and policy images are checked with: R427 gives its fused hash and not where the
device keeps the key (DESIGN CHOICE, log entry 9). -/
opaque bootKeyByte : Nat → Byte

/-- The member of a gang whose rounding mode and FTZ the cross-member steps of a reduction follow, by a running number: R169 does
not say whose (DESIGN CHOICE, log entry 49). -/
opaque gangMode : Nat → Nat

/-- The place of the entry that a fill of a full translation cache replaces, by its running number (R227, DESIGN CHOICE, log
entry 8). -/
opaque tlbVictim : Nat → Nat

/-- The die that owns a die-local page, by the page's physical address and modulo 4: a leaf has no field for it (R14, R228, DESIGN
CHOICE, log entry 50). -/
opaque pageDie : Nat → Nat

end Sys2Proof.Config
end

