-- ==== Sys2Proof/Store.lean ====
section
/-! DEFINITION. Plain-data stores keyed by a natural number, in one canonical form.

A `Tbl` lists what is present. A `Map` is a `Tbl` read with a default: it lists no entry equal to what
an unlisted key reads as, so equal contents are equal data. The update erases the key before it
inserts in order, so that the read-after-write laws hold of any list, canonical or not. -/

namespace Sys2Proof

/-- Present entries by key, keys strictly rising in the canonical form. -/
abbrev Tbl (α : Type) := List (Nat × α)

namespace Tbl

variable {α : Type}

/-- The entry at a key, if one is listed. -/
def get? : Tbl α → Nat → Option α
  | [], _ => none
  | (k', v) :: m, k => if k' = k then some v else get? m k

/-- Every entry but those at the key. -/
def del : Tbl α → Nat → Tbl α
  | [], _ => []
  | (k', v) :: m, k => if k' = k then del m k else (k', v) :: del m k

/-- The entry put before the first larger key. -/
def insert : Tbl α → Nat → α → Tbl α
  | [], k, v => [(k, v)]
  | (k', v') :: m, k, v => if k' < k then (k', v') :: insert m k v else (k, v) :: (k', v') :: m

/-- The store with `v` at `k`. -/
def put (m : Tbl α) (k : Nat) (v : α) : Tbl α := insert (del m k) k v

/-- The entry at a key changed by `f`, nothing if none is listed. -/
def adjust (m : Tbl α) (k : Nat) (f : α → α) : Tbl α :=
  match get? m k with
  | some v => put m k (f v)
  | none => m

/-- The least key not listed from `n` up, within `fuel` steps. -/
def freeFrom (m : Tbl α) : Nat → Nat → Option Nat
  | 0, _ => none
  | fuel + 1, n => match get? m n with
    | none => some n
    | some _ => freeFrom m fuel (n + 1)

/-- Keys strictly rising. -/
def sorted : Tbl α → Bool
  | [] => true
  | [_] => true
  | (k, _) :: (k', v') :: m => decide (k < k') && sorted ((k', v') :: m)

end Tbl

/-- A store read with a default. -/
abbrev Map (α : Type) := List (Nat × α)

namespace Map

variable {α : Type}

/-- What the key reads as, `d` where nothing is listed. -/
def get (d : α) (m : Map α) (k : Nat) : α := (Tbl.get? m k).getD d

/-- The store with `v` at `k`; writing the default removes the entry. -/
def set [DecidableEq α] (d : α) (m : Map α) (k : Nat) (v : α) : Map α :=
  if v = d then Tbl.del m k else Tbl.put m k v

/-- The canonical form: keys strictly rising, no entry equal to the default. -/
def wf [DecidableEq α] (d : α) (m : Map α) : Bool :=
  Tbl.sorted m && m.all (fun e => decide (e.2 ≠ d))

end Map

end Sys2Proof
end

