-- ==== Sys2Proof/Machine/State.lean ====
section
/-! DEFINITION. The state of the device as plain data: thread contexts, cores, clusters, dies, the hub,
the platform, memory, the operations in flight between agents, and the machine's own schedule.

Names follow the spec. A register whose fields software reads and writes whole stays a bit vector; what
exists only inside the machine is an inductive type, a number or a list. Registers and memories that
read as a default where nothing is listed are `Map`s in canonical form. -/

namespace Sys2Proof.Machine

/-- The reasons of R371, in the order of their numbers 0 to 95. -/
inductive Reason where
  | illegalWord | reservedField | privileged | fetchMisaligned | fetchFault | extInvalid
  | registerInvalid | immediateRange | breakpoint | watchpoint | singleStep | softwareTrap
  | environmentCall | contextZeroOnly | gangBroken | gangForbidden | divideByZero | subnormalOperand
  | fpInvalid | fpDivideByZero | fpOverflow | fpUnderflow | fpInexact | formatUnsupported
  | scaleInvalid | convertRange | transformSize | transformLayout | lsRange | lsMisaligned
  | lsUncorrectable | lsRetired | feWaitLimit | feWatchedWrite | feStateInvalid | amoMisaligned
  | accRange | accPoisoned | planeEmpty | footprintWrap | pageNotPresent | pagePermission
  | addressNoncanonical | deedNotHeld | deedRecalled | deedRevoked | deedScrubbing | tierUnavailable
  | dramUncorrectable | remoteUnreachable | remoteDenied | shapeInvalid | globalAmoMisaligned
  | copyDestinationInvalid | counterIndex | crewInvalid | crewNotMember | crewCoresidency
  | syncObjectUnbound | releaseNotHeld | channelUnbound | channelDeadlock | migrateRefused
  | wakeInvalid | remoteAtomicTimeout | timelineFault | matrixOperandUe | matrixShape
  | matrixFormatMismatch | sparseMetadata | taskRecordInvalid | taskFootprintInvalid
  | taskSpeculativeForbidden | taskAbortLimit | stageUndefined | stageKeyRange | roleSpillFault
  | stageRecordMalformed | preempt | saveAreaFault | saveAreaExhausted | restoreInvalid
  | tokenMismatch | heatExpired | partitionFence | recallNotice | deedBreach | watchdog
  | snapshotTaken | virtualInterrupt | coreRetired | thermalThrottle | thermalShutdownPending
  | firmwareNotice | externalInterrupt | machineCheck
  deriving DecidableEq, Repr

/-- The origin of a cause (R369). -/
inductive Origin where
  | execute | access | remote | async
  deriving DecidableEq, Repr

/-- Why a step stops the machine. -/
inductive Fault where
  /-- Raised by `step` when the device has no power or has shut down (R429, R437) and no input is
  waiting: nothing happens until a reset. Safe: the device performs no step either. -/
  | deviceOff
  deriving DecidableEq, Repr

/-- Why a step has no meaning. -/
inductive Refusal where
  /-- Raised by an arm of `exec` whose instruction has no meaning yet. Safe: nothing is claimed. -/
  | notModelled (mnemonic : String)
  deriving DecidableEq, Repr

/-- Who acts: a thread of a core. -/
structure Actor where
  core : Nat
  thread : Nat
  deriving DecidableEq, Repr

/-- A step that is due, with its arguments (the machine's own schedule, DESIGN CHOICE, log entry 2). -/
structure Due where
  at_ : Nat
  step : Instr
  args : List Nat
  deriving DecidableEq, Repr

/-- An input or a scheduling choice: a thread's turn, a device step with its arguments, a cycle that passes, or the move
that an empty tape would give (DESIGN CHOICE, log entries 1 and 3). -/
inductive Turn where
  | thread (core thread : Nat)
  | event (step : Instr) (args : List Nat)
  | cycle
  | usual
  deriving DecidableEq, Repr

/-- An entry of the pending causes (R377): the 9-bit cause, its value, and the access of the failed operation (R226) and the
physical frame of a deed cause (R231) for the record it may become. -/
structure Pending where
  cause : Nat
  xval : Word
  access : Nat
  frame : Nat
  deriving DecidableEq, Repr

/-- Where a thread is resident (R127, R130): a barrel slot, the wings port on its way out or in, or the
wings; `since` orders PENDING threads (R131). -/
inductive Place where
  | live (slot : Nat)
  | wings (since : Nat)
  | moving (toSlot : Option Nat) (done : Nat)
  deriving DecidableEq, Repr

/-- Why a thread ends (R138, R140, R325, R350, R362). -/
inductive DrainKind where
  | quit | kill | tdone | retire | abort | discard
  deriving DecidableEq, Repr

/-- What a context is doing. -/
inductive Status where
  /-- In the rotation when it is live. -/
  | running
  /-- Parked with the reason of its park word (R128). -/
  | parked
  /-- Not ready and not parked: waiting for a hub's answer (R239, R241), the monitor (R95, R380) or a
  gang reduction (R169). -/
  | waiting
  /-- A divide by zero waits for the end of its occupancy (R110). -/
  | divWait
  /-- Held after forwarding a cause, until the reply to the record (R374). -/
  | held (die seq : Nat)
  /-- In the drain of its end (R138), with the exit value. -/
  | draining (kind : DrainKind) (value : Word)
  deriving DecidableEq, Repr

/-- An instruction in a follower's gang buffer (R153, R116): its address, length, and the stroke's next
PC and link value. -/
structure GangItem where
  instr : Instr
  pc : Word
  next : Word
  link : Word
  deriving DecidableEq, Repr

/-- Membership of a gang: the members in index order (the stroke is the first to have issued GANG) and
the thread's own index (R152). -/
structure Gang where
  stroke : Actor
  members : List Actor
  index : Nat
  buffer : List GangItem
  deriving DecidableEq, Repr

/-- A member's part in a gang reduction (R169): the cycle of its own instruction (R176), its value if any element was active,
the flags of the local tree, the lowest lane for XVAL, the destination, kind and type of the instruction, and once every part
is present the gang's value and the exceptions of the cross-member steps. -/
structure Partial where
  joinedAt : Nat
  value : Option Nat
  flags : Nat
  lane : Nat
  d : Nat
  kind : Nat
  type : Nat
  result : Option (Nat × Nat)
  deriving DecidableEq, Repr

/-- A remote operation that has left the core and is not yet acknowledged (R234). -/
structure Unacked where
  id : Nat
  dest : Nat
  deriving DecidableEq, Repr

/-- A full/empty or channel wait of the instruction at the PC (R189, R190, R310): what is waited on,
the order of the first attempt, the wakes so far, whether it has been woken and is to re-test, whether
WAKE woke it (R143), and whether the wait limit has moved it to the wings (R192). -/
structure WaitState where
  key : Nat
  attempt : Nat
  wakes : Nat
  retest : Bool
  byWake : Bool
  limited : Bool
  deriving DecidableEq, Repr

/-- One 64-byte fetch block with its tags (R45, R46). -/
structure IBlock where
  code : Nat
  addr : Word
  bytes : List Byte
  deriving DecidableEq, Repr

/-- A thread context (R33) with its place, its status and what the core keeps beside it. `monitored` says that the monitor
completes the instruction `current` (R95). `called` says that the thread is called to
a live slot: a barrier's phase waits only for members in the wings (R147), WAKE has named it (R143), or its stage resumes it
(R321), `throttled` that THROTTLE parked the thread (R311), `calling` the monitor
call that it waits for (R433). -/
structure Ctx where
  g : Map Word
  v : Map W256
  p : Map W32
  e : Map Word
  pc : Word
  xpc : Word
  xval : Word
  xvec : Word
  xcause : W32
  xstat : W32
  fpc : W32
  prio : W32
  ctxid : W32
  rank : W32
  gsize : W32
  crewsz : W32
  felim : W32
  crewSlot : W16
  codeId : W16
  park : W32
  bindU : Nat
  bindV : Nat
  held28 : Word
  held29 : Word
  pend : List Pending
  place : Place
  status : Status
  readyAt : Nat
  wait : Option WaitState
  called : Bool
  throttled : Bool
  calling : Option Nat
  fetch : Option IBlock
  fetching : Bool
  lastOutcome : Nat
  lastCounter : Nat
  unacked : List Unacked
  spawner : Option Nat
  isMember : Bool
  arrived : Option Nat
  gang : Option Gang
  reduction : Option Partial
  ticket : Option Nat
  role : Option Nat
  finale : Bool
  suspended : Bool
  suspendedAt : Nat
  suspendedOn : Nat
  stopped : Option Nat
  ending : Option (DrainKind × Word)
  halted : Bool
  monitored : Bool
  current : Option Instr
  timeoutAt : Option Nat
  deriving DecidableEq, Repr

/-- A set of local-store bytes in rows: `rows` runs of `rowLen` bytes, `pitch` apart (R202, R219). -/
structure Bytes where
  base : Nat
  rowLen : Nat
  pitch : Nat
  rows : Nat
  deriving DecidableEq, Repr

/-- A footprint in flight (R202): its owner, its parts still in flight, whether a part is done and
waits to retire, and whether it is a tile operation (R244). -/
structure Footprint where
  id : Nat
  owner : Nat
  reads : List Bytes
  writes : List Bytes
  readDone : Bool
  writeDone : Bool
  tile : Bool
  deriving DecidableEq, Repr

/-- The operation of a put-and-get queue entry (R216), with what was read at issue. -/
inductive CopyOp where
  | get (len : Nat)
  | put (len : Nat)
  | gets (z n0 n1 n2 pitch : Nat) (s1 s2 : Int)
  | puts (z n0 n1 n2 pitch : Nat) (s1 s2 : Int)
  | rput (len : Nat) (full : Bool)
  | gamo (op : Nat) (wide : Bool) (operand : Nat)
  | kadd (increment : Nat)
  | tierpf (len : Nat) (dir : Nat)
  | iflush (code scope : Nat)
  deriving DecidableEq, Repr

/-- Where a queue entry stands. -/
inductive EntryState where
  /-- Waits for the copy engine (R132). -/
  | waiting
  /-- Waits for a walk of an address (R227). -/
  | walking
  /-- Stalled on a fault of the merger (R230). -/
  | stalled
  /-- Sent; its data or its report travels (R218, R248). -/
  | sent
  /-- Performed; to be completed (R211). -/
  | performed
  /-- Failed with a cause, its value and the frame of a deed cause; to be ended (R226, R231). -/
  | failed (cause : Nat) (xval : Word) (frame : Nat)
  /-- A held put in the commit buffer (R356). -/
  | heldPut
  deriving DecidableEq, Repr

/-- An entry of a put-and-get queue (R209); `begun` says that the copy engine has taken it up, `index` is its place in the
debug window (R392). -/
structure Entry where
  id : Nat
  op : CopyOp
  counter : Option Nat
  owner : Nat
  loc : Nat
  rem : Word
  lenWord : Word
  eff : Nat
  since : Nat
  moved : Nat
  state : EntryState
  begun : Bool
  held : List (Nat × List Byte)
  word : Nat
  index : Nat
  deriving DecidableEq, Repr

/-- A message of an inbox with its sender word (R317, R318). -/
structure Message where
  m0 : Word
  m1 : Word
  sender : Word
  deriving DecidableEq, Repr

/-- An inbound channel (R310, R311); `reserved` names the holding thread of R268. -/
structure Channel where
  values : List Word
  lo : Nat
  hi : Nat
  throttle : Bool
  reserved : Option Nat
  deriving DecidableEq, Repr

/-- A weight plane's state (R263). -/
inductive PlaneState where
  | empty
  | loaded
  | damaged (addr : Nat)
  | badmeta (column group : Nat)
  deriving DecidableEq, Repr

/-- A weight plane (R263): the record of each column, index store and scales as bytes, state and tag. -/
structure WPlane where
  values : List Byte
  index : List Byte
  scales : List Byte
  state : PlaneState
  format : Nat
  scaled : Bool
  sparsity : Nat
  deriving DecidableEq, Repr

/-- An instruction in the engine queue (R267), by kind: `hold` is a thread's instruction that holds its context until its
check phase ends (R268), `swap` an MSWAP with the loads issued before it (R269). -/
inductive EngineOp where
  | hold (thread : Nat)
  | swap (loadsBefore : List Nat)
  | zero (d : Nat)
  | move (d a : Nat)
  | xform (fn d a : Nat) (ctl : Word)
  deriving DecidableEq, Repr

/-- An entry of the engine queue: its id, owner, operation and whether it has been accepted. -/
structure EngineEntry where
  id : Nat
  owner : Nat
  op : EngineOp
  deriving DecidableEq, Repr

/-- A row in the array on its way to an accumulator row (R276): the plane it is streamed against, the
decoded bytes read, and its target. -/
structure StreamRow where
  d : Nat
  row : Nat
  half : Nat
  double : Bool
  desc : Word
  plane : Nat
  acts : List Byte
  scales : List Byte
  deriving DecidableEq, Repr

/-- Rows copied by ASTR or AOUT, to be written to the local store (R282, R283). -/
structure WriteOut where
  footprint : Nat
  owner : Nat
  addr : Nat
  bytes : List Byte
  deriving DecidableEq, Repr

/-- An MLDW or MCOMP in the weight loader (R269). -/
inductive Load where
  | weights (id owner base : Nat) (desc : Word) (swapsBefore : List Nat)
  | compress (id owner src dst : Nat) (desc : Word) (image : Option (List Byte)) (held : Bool)
  deriving DecidableEq, Repr

/-- The matrix engine of a core (R263, R267, R269). Accumulator word (p, r, c) has key
1024 p + 32 r + c; a poison bit has key 32 p + r. -/
structure Engine where
  planes : List WPlane
  active : Nat
  acc : Map W32
  poison : List Nat
  queue : List EngineEntry
  rows : List StreamRow
  outs : List WriteOut
  loads : List Load
  deriving DecidableEq, Repr

/-- A record waiting in a pending slot: header and payload (R319, R321). -/
structure Record where
  header : Word
  payload : List Word
  deriving DecidableEq, Repr

/-- An entry of the spill index, or of a spill that is being written (R323): the key, the slot, the deadline on TIME,
whether the role is being fetched back, and the reason with which it is to enter the finale, 0 for none. -/
structure Spill where
  key : Nat
  slot : Nat
  deadline : Nat
  fetching : Bool
  finale : Nat
  owner : Nat
  arrived : Option Nat
  deriving DecidableEq, Repr

/-- A stage (R320): the descriptor copy, channel, direction, and the dispatcher's tables. `spilling` lists the spills
that are being written; `ending` says that STAGEDEF NONE, NONE has been issued. -/
structure Stage where
  desc : List Word
  input : Nat
  output : Nat
  codeId : Nat
  prio : Nat
  ceil : Nat
  slots : Tbl (List Record)
  spills : List Spill
  spilling : List Spill
  ending : Bool
  deriving DecidableEq, Repr

/-- A watch-table entry (R192). -/
structure Watch where
  addr : Nat
  handle : Nat
  deriving DecidableEq, Repr

/-- A MIGRATE forwarding entry (R144). -/
structure Forward where
  old : Nat
  new : Nat
  deriving DecidableEq, Repr

/-- What the launch resident on a core fixes for its threads (R121, R76, R137, R145). -/
structure CoreLaunch where
  id : Nat
  kernel : Nat
  threads : Nat
  stack : Nat
  ceil : Nat
  coresident : Bool
  crewBase : Nat
  crews : Nat
  tasks : Bool
  deriving DecidableEq, Repr

/-- A physical core under its logical name (R10, R12, R33). `readySince` is the first cycle since which the core has held a
ready context (R395). -/
structure Core where
  ls : Map Byte
  lsState : Map (BitVec 2)
  lsBad : List Nat
  lsSingle : List Nat
  lsHealed : List Nat
  corrected : Nat
  threads : Tbl Ctx
  gens : Map Nat
  kval : Map W32
  kout : Map W16
  xdeleg : Word
  instret : Word
  queue : List Entry
  dbgIssued : Nat
  prints : List Footprint
  watch : List Watch
  reaps : List (Nat × Word)
  children : Nat
  forwards : List Forward
  inbox : List Message
  chans : Tbl Channel
  credits : Map Nat
  stage : Option Stage
  eng : Engine
  divFree : Nat
  lastSlot : Nat
  nextIssue : Nat
  readySince : Nat
  icache : List IBlock
  launch : Option CoreLaunch
  retired : Bool
  unmapped : Bool
  stopped : Bool
  portBusy : Nat
  dbgHalt : Word
  dbgCtl : Word
  bps : Map Word
  wps : Map Word
  deriving DecidableEq, Repr

/-- A cached translation (R227, R228). `space` is a partition, 64 + kernel for a control core, or 80
for the Umpire (R230, R420, R444). -/
structure TlbEntry where
  space : Nat
  vpage : Nat
  log2 : Nat
  phys : Nat
  perms : Nat
  device : Nat
  dieLocal : Bool
  tier : Bool
  direct : Bool
  deriving DecidableEq, Repr

/-- A cluster (R10): instruction cache, translation cache, permits in use. Cluster 256 is the hub's. -/
structure Cluster where
  icache : List IBlock
  tlb : List TlbEntry
  permits : Nat
  deriving DecidableEq, Repr

/-- Who waits for a translation (R227, R230). -/
inductive Waiter where
  | entry (core id : Nat)
  | queue (slot qid : Nat)
  | launch (id : Nat)
  | placement (launch core : Nat)
  | twait (core thread : Nat)
  | spill (core key : Nat)
  | fetchBack (core key : Nat)
  deriving DecidableEq, Repr

/-- A walk in flight, or a fault on its way to the merger. -/
structure Walk where
  waiter : Waiter
  space : Nat
  va : Word
  access : Nat
  cause : Option Nat
  frame : Nat
  deriving DecidableEq, Repr

/-- A key of the fault merger (R230): those that wait on it, each with its own faulting
address, and its record's sequence number, access, cause, address and frame. -/
structure FaultKey where
  space : Nat
  page : Nat
  seq : Nat
  waiters : List (Waiter × Word)
  access : Nat
  cause : Nat
  va : Word
  frame : Nat
  deriving DecidableEq, Repr

/-- A die: its fault merger (R230), its free understudies, and the logical-to-physical table: the understudy that a logical
core has been mapped to; one that is not listed occupies the physical core of its own position (R11). -/
structure Die where
  keys : List FaultKey
  overflow : List Walk
  seq : Nat
  understudies : List Nat
  remaps : Tbl Nat
  deriving DecidableEq, Repr

/-- A fault record (R231). -/
structure FRecord where
  cause : Nat
  partition : Nat
  access : Nat
  thread : Nat
  address : Word
  frame : Nat
  seq : Nat
  die : Nat
  flags : Nat
  event : Nat
  deriving DecidableEq, Repr

/-- The registers of a fault queue and the records that wait for room (R375). -/
structure FaultQueue where
  base : Word
  note : Word
  head : Word
  tail : Word
  waiting : List FRecord
  deriving DecidableEq, Repr

/-- STATE of a deed entry (R400). -/
inductive DeedState where
  | owned | offered | lent | recalling | zeroOnRead
  deriving DecidableEq, Repr

/-- A deed-table entry (R400): OTHER is `other` in states 1 to 3, else `borrower`, the last borrower; with the TIME at which
a recall falls due (R405) and the kernel whose accesses the frame's home refuses since a revocation (R406). -/
structure Deed where
  state : DeedState
  transit : Bool
  owner : Nat
  other : Nat
  borrower : Nat
  ended : Nat
  clear : Bool
  breaches : Nat
  deadline : Nat
  due : Nat
  refused : Option Nat
  deriving DecidableEq, Repr

/-- Who asked for a deed operation: a thread, or a slot of the host deed port. -/
inductive DeedClient where
  | thread (core thread d q : Nat)
  | port (slot : Nat)
  | hub
  deriving DecidableEq, Repr

/-- A transit in progress (R406): which operation, and the client that waits for its answer. -/
structure Transit where
  op : Nat
  client : DeedClient
  deriving DecidableEq, Repr

/-- A slot of the host deed port (R408). -/
structure PortSlot where
  frame : Word
  arg : Word
  result : Word
  deriving DecidableEq, Repr

/-- A heat record (R412), with the TIME at which HEATSET wrote it. -/
structure HeatRec where
  start : Nat
  end_ : Nat
  period : Nat
  root : Nat
  save : Nat
  linkSlots : Word
  msiAddr : Nat
  msiData : Nat
  part : Nat
  gate : Bool
  tenant : Nat
  saveLog2 : Nat
  since : Nat
  deriving DecidableEq, Repr

/-- An occurrence of a heat (R413): its sheet entry, the record as it stood at the start, the TIME at which it ends. -/
structure Run where
  entry : Nat
  heat : HeatRec
  until_ : Nat
  deriving DecidableEq, Repr

/-- A boundary whose steps are under way (R413): the occurrence that comes in, if any, and whether only its restore is left. -/
structure Switch where
  incoming : Option Run
  restoring : Bool
  deriving DecidableEq, Repr

/-- A partition (R410) with its heat state (R413): the tenant, the record under which it runs, the heat
sequence, the occurrence in progress and whether it has started, the sheet entries whose occurrences have passed without starting, a
boundary under way, whether a failed restore keeps it from issuing (R391), and the TIME
of the last boundary; its floor (R346), token mailbox (R415), and the frames that its kernel has granted it for migration
between tiers (R222). -/
structure Part where
  root : Word
  node : Nat
  kernel : Nat
  valid : Bool
  tenant : Nat
  heat : Option HeatRec
  heatSeq : Nat
  running : Option Run
  started : Bool
  expired : List Nat
  switch : Option Switch
  barred : Bool
  lastBoundary : Nat
  floor : Nat
  mailbox : List Byte
  pool : List Nat
  deriving DecidableEq, Repr

/-- A queue in a hardware slot of the Umpire (R333 to R335): what its QCB said at admission, READ and WRITE, whether its
head packet is being acted on, the type of a packet that has been acted on in vain (a WAIT since the last timeline update, a LAUNCH
that found no crew slots since the last launch completed; else 0), whether a fault of its packet is being served, and the
entries of a SEED that are still to be posted. -/
structure Queue where
  qcb : Nat
  qid : Nat
  prio : Nat
  part : Nat
  kernel : Nat
  control : Bool
  msi : Bool
  ring : Word
  log2n : Nat
  timeline : Word
  msiAddr : Nat
  msiData : Nat
  read : Nat
  write : Nat
  busy : Bool
  tested : Nat
  stalled : Bool
  seeds : List (List Word × List Word)
  deriving DecidableEq, Repr

/-- A launch in progress (R120 to R123, R338): `cores` are still to be reserved, `toSend` are reserved, `loading` have
their placement command, `loaded` hold their contexts; `broken` says that the load of one has failed (R16), `stalled` that a fault
of its timeline update is being served (R344). -/
structure Launch where
  queue : Nat
  qid : Nat
  part : Nat
  kernel : Nat
  control : Bool
  entry : Word
  codeId : Nat
  lsAddr : Word
  lsSize : Nat
  lsTotal : Nat
  stack : Nat
  threads : Nat
  prio : Nat
  ceil : Nat
  crewBase : Nat
  crews : Nat
  mask : Word
  coresident : Bool
  gate : Bool
  tasks : Bool
  args : List Word
  done : Word
  cores : Nat
  toSend : List Nat
  loading : List Nat
  loaded : List Nat
  lifted : Bool
  broken : Bool
  stalled : Bool
  timeline : Word
  msi : Bool
  msiAddr : Nat
  msiData : Nat
  deriving DecidableEq, Repr

/-- A crew (R145 to R147): members with their ranks, those that have arrived, phase and next rank. -/
structure Crew where
  members : List (Actor × Nat)
  arrived : List Actor
  phase : Nat
  nextRank : Nat
  deriving DecidableEq, Repr

/-- A binding of a partition (R237). -/
structure Binding where
  part : Nat
  object : Word
  region : Word
  deriving DecidableEq, Repr

/-- A request in an object's queue (R240). -/
structure LockReq where
  handle : Nat
  core : Nat
  exclusive : Bool
  slot : Nat
  deriving DecidableEq, Repr

/-- A sync object (R236): holders (handle, exclusive), queue, release count. -/
structure SyncObj where
  part : Nat
  object : Word
  holders : List (Nat × Bool)
  queue : List LockReq
  count : Word
  deriving DecidableEq, Repr

/-- STATE of a task (R351). -/
inductive TaskState where
  | waiting | dispatched | finished
  deriving DecidableEq, Repr

/-- A posted task (R345, R346, R353): record fields, ordering, edges, speculation state. -/
structure Task where
  gen : Nat
  part : Nat
  entry : Word
  args : List Word
  ts : Nat
  posted : Nat
  prio : Nat
  early : Bool
  note : Option Word
  crew : Nat
  limit : Nat
  user : Nat
  regions : List Word
  edges : List Nat
  state : TaskState
  withEdge : Bool
  aborts : Nat
  poster : Option Nat
  actor : Option Actor
  readSet : List Nat
  puts : List (Nat × Nat)
  deriving DecidableEq, Repr

/-- What an operation between agents carries (R233 and the entries of its instruction). -/
inductive Payload where
  | rput (core : Nat) (entry : Nat) (offset : Nat) (bytes : List Byte) (full : Bool)
  | increment (core : Nat) (entry : Nat) (counter : Nat) (value : Nat)
  | atomic (actor : Actor) (d : Nat) (op : Nat) (wide full : Bool) (offset : Nat) (operand expected : Nat)
      (name : Word)
  | atomicReply (actor : Actor) (d : Nat) (wide : Bool) (answer : Nat) (old : Nat) (name : Word)
  | cancel (actor : Actor)
  | ack (actor : Actor) (id : Nat)
  | spawn (actor : Actor) (d q : Nat) (entry : Word) (args : List Word) (codeId prio : Nat)
  | spawnReply (actor : Actor) (d q : Nat) (result : Option Nat)
  | kill (actor : Actor) (q : Nat) (handle : Nat)
  | killReply (actor : Actor) (q : Nat) (ok : Bool)
  | migrate (actor : Actor) (q : Nat) (ctx : Ctx)
  | migrateReply (actor : Actor) (q : Nat) (new : Option Nat)
  | reap (handle : Nat) (value : Word)
  | binding (actor : Actor) (d q : Nat) (unbind : Bool) (part : Nat) (object region : Word)
  | lock (actor : Actor) (part : Nat) (object : Word) (exclusive : Bool) (slot : Nat)
  | lockAnswer (actor : Actor) (answer : Nat) (object : Word) (slot : Nat) (count : Word)
  | release (actor : Actor) (part : Nat) (object : Word)
  | releaseAnswer (actor : Actor) (held : Bool) (object : Word)
  | grant (actor : Actor) (slot : Nat) (count : Word)
  | message (actor : Actor) (q : Nat) (m0 m1 sender : Word)
  | messageReply (actor : Actor) (q : Nat) (answer : Nat) (name : Word)
  | push (channel : Nat) (value : Word)
  | credit (direction : Nat)
  | status (actor : Actor) (d q : Nat) (value : Word) (ok : Bool)
  | plain (actor : Actor) (d : Nat) (value : Word)
  | post (actor : Actor) (d q : Nat) (record : List Word) (regions : List Word) (part : Nat)
  | timeline (actor : Actor) (addr : Word) (value : Word)
  deriving DecidableEq, Repr

/-- The delivery class of an operation (R233). -/
inductive NetClass where
  | data | counter | atomic | message | channel | control
  deriving DecidableEq, Repr

/-- An operation in flight: operations of one class, source and destination arrive in order (R233);
`handle` is the sending thread, for the order of R221, and `eff` the EFF that it was issued with (R132). -/
structure Flight where
  id : Nat
  cls : NetClass
  src : Nat
  dst : Nat
  handle : Nat
  payload : Payload
  eff : Nat
  deriving DecidableEq, Repr

/-- A saved core of a switched-out partition (R389): its image, the messages and counter increments that have
arrived since, and the replies that are kept for it. -/
structure SavedCore where
  core : Nat
  image : Core
  messages : List Message
  increments : List (Nat × Nat)
  replies : List Flight
  deriving DecidableEq, Repr

/-- A committed save of a tenant in a partition (R389, R391), with what the hub keeps meanwhile: its tasks
(R366), its bindings, holds and requests (R242), and its crews. -/
structure Saved where
  part : Nat
  tenant : Nat
  seq : Nat
  cores : List SavedCore
  tasks : Tbl Task
  bindings : List Binding
  objects : List SyncObj
  crews : Tbl Crew
  deriving DecidableEq, Repr

/-- How another device of the domain answers (DESIGN CHOICE, log entry 7). -/
inductive FabricAnswer where
  | unreachable | denies | accepts
  deriving DecidableEq, Repr

/-- The hub die (R15, chapters 18 and 21). `lastServed` gives the slot served last among the queues of each priority (R120),
255 where none is listed. -/
structure Hub where
  deeds : Map Deed
  lines : Tbl (List Nat)
  transits : Tbl Transit
  breachk : Map Nat
  ctlKernel : Map Nat
  port : Tbl PortSlot
  evBase : Word
  evHead : Word
  evTail : Word
  evMsi : Word
  evData : Word
  hostRecords : List FRecord
  fqs : Tbl FaultQueue
  kroot : Map Word
  uroot : Word
  parts : Tbl Part
  sheet : Tbl HeatRec
  tenantKeys : Map Nat
  admissionKey : Nat
  admissions : Nat
  signIndex : Nat
  saved : List Saved
  vifbase : Map Word
  vidrop : Word
  queues : Tbl Queue
  admitList : List Queue
  evicted : List Queue
  halted : List (Nat × Nat)
  qovf : Bool
  lastServed : Map Nat
  launches : Tbl Launch
  launchCount : Nat
  crews : Tbl Crew
  bindings : List Binding
  objects : List SyncObj
  tasks : Tbl Task
  taskGens : Map Nat
  posts : Nat
  linkOpen : Nat
  deriving DecidableEq, Repr

/-- A scheduler-policy image pinned by a tenant (R432, R433). -/
structure Policy where
  tenant : Nat
  image : Nat
  deriving DecidableEq, Repr

/-- An update of the firmware under way (R429): the caller, the slot and sequence it installs, the marker copy it rewrites
first, the image with its version and SVN, and the step of R429 that writes now: 1, 2 or 3. -/
structure Update where
  caller : Actor
  slot : Nat
  seq : Nat
  first : Nat
  image : List Byte
  version : Nat
  svn : Nat
  phase : Nat
  deriving DecidableEq, Repr

/-- The platform (chapter 23, R394). `keyHash` is the fused hash of the boot key (R427), `signKey` and `signPrf` the two secret
values of the engine's signing key (R431). -/
structure Platform where
  snapctl : Word
  snapshot : Tbl (List Word)
  lastFiring : Option Nat
  owner : Nat
  handTo : Nat
  devid : Nat
  devidWritten : Bool
  access : Map Word
  lifeCycle : Nat
  minSvn : Nat
  svnRises : Nat
  bootFail : Bool
  wiping : Bool
  bootSlot : Option Nat
  flash : Tbl Byte
  runSvn : Nat
  version : Nat
  updating : Option Update
  staged : Option Nat
  unitVersions : Map Nat
  policies : List Policy
  keyHash : W256
  signKey : W256
  signPrf : W256
  publicKey : List Byte
  temps : Map Nat
  stackState : Map Nat
  shutdownAt : Option Nat
  clockMhz : Nat
  power : Nat
  trained : Bool
  deriving DecidableEq, Repr

/-- The whole device, the operations in flight, and the machine's own schedule. `msis` are the interrupts written out
so far, `lastLoad` and `lastFault` what the host's last access returned and whether it raised an access fault,
`lastDirect` what the last direct read returned (R232), `resetAt` the core clock at the last reset, from which CYCLE
counts (R369). -/
structure State where
  actor : Actor
  args : List Nat
  now : Nat
  resetAt : Nat
  time : Nat
  ids : Nat
  fresh : Nat
  agenda : List Due
  tape : List Turn
  powered : Bool
  net : List Flight
  dram : Map Byte
  dramBad : List Nat
  cores : Tbl Core
  clusters : Tbl Cluster
  dies : Tbl Die
  walks : Tbl Walk
  fabric : Map FabricAnswer
  msis : List (Nat × Nat)
  lastLoad : Word
  lastFault : Bool
  lastDirect : Option (List Byte)
  hub : Hub
  plat : Platform
  deriving DecidableEq, Repr

/-! ### The values after reset

Where the spec gives a register no reset value the model names one, zero, in DESIGN CHOICE, log entry 6. -/

/-- A newly created context (R34): zero everywhere but FELIM's limit of 16; both bindings are 4 (R309).
The launch or SPAWN sets the fields that its entry names. -/
def Ctx.fresh : Ctx where
  g := []
  v := []
  p := []
  e := []
  pc := 0
  xpc := 0
  xval := 0
  xvec := 0
  xcause := 0
  xstat := 0
  fpc := 0
  prio := 0
  ctxid := 0
  rank := 0
  gsize := 0
  crewsz := 0
  felim := 16
  crewSlot := 0
  codeId := 0
  park := 0
  bindU := 4
  bindV := 4
  held28 := 0
  held29 := 0
  pend := []
  place := .live 0
  status := .running
  readyAt := 0
  wait := none
  called := false
  throttled := false
  calling := none
  fetch := none
  fetching := false
  lastOutcome := 0
  lastCounter := 0
  unacked := []
  spawner := none
  isMember := false
  arrived := none
  gang := none
  reduction := none
  ticket := none
  role := none
  finale := false
  suspended := false
  suspendedAt := 0
  suspendedOn := 0
  stopped := none
  ending := none
  halted := false
  monitored := false
  current := none
  timeoutAt := none

/-- A weight plane in state empty (R263). -/
def WPlane.empty : WPlane where
  values := []
  index := []
  scales := []
  state := .empty
  format := 0
  scaled := false
  sparsity := 0

/-- The matrix engine after reset: both planes empty, the accumulators zero (R263). -/
def Engine.reset : Engine where
  planes := [WPlane.empty, WPlane.empty]
  active := 0
  acc := []
  poison := []
  queue := []
  rows := []
  outs := []
  loads := []

/-- A channel with its reset status word: LO 0, HI 64 (R311). -/
def Channel.reset : Channel where
  values := []
  lo := 0
  hi := 64
  throttle := false
  reserved := none

/-- A core after reset: the local store zero and full (R182), the counters zero, no thread, all credits at
64 (listed credits are those spent). -/
def Core.reset : Core where
  ls := []
  lsState := []
  lsBad := []
  lsSingle := []
  lsHealed := []
  corrected := 0
  threads := []
  gens := []
  kval := []
  kout := []
  xdeleg := 0
  instret := 0
  queue := []
  dbgIssued := 0
  prints := []
  watch := []
  reaps := []
  children := 0
  forwards := []
  inbox := []
  chans := []
  credits := []
  stage := none
  eng := Engine.reset
  divFree := 0
  lastSlot := 0
  nextIssue := 0
  readySince := 0
  icache := []
  launch := none
  retired := false
  unmapped := false
  stopped := false
  portBusy := 0
  dbgHalt := 0
  dbgCtl := 0
  bps := []
  wps := []

/-- A cluster after reset: nothing cached. -/
def Cluster.reset : Cluster where
  icache := []
  tlb := []
  permits := 0

/-- A die after reset: no merger key in use, 32 free understudies (R11). -/
def Die.reset : Die where
  keys := []
  overflow := []
  seq := 0
  understudies := List.range 32
  remaps := []

/-- A frame's entry after the wipe: OWNED by kernel 0 (R400, R430). -/
def Deed.reset : Deed where
  state := .owned
  transit := false
  owner := 0
  other := 0
  borrower := 0
  ended := 0
  clear := false
  breaches := 0
  deadline := 0
  due := 0
  refused := none

/-- A partition ID that is not in use: NODE 0, KERNEL 1, VALID 0 (R410). -/
def Part.unused : Part where
  root := 0
  node := 0
  kernel := 1
  valid := false
  tenant := 0
  heat := none
  heatSeq := 0
  running := none
  started := false
  expired := []
  switch := none
  barred := false
  lastBoundary := 0
  floor := 0
  mailbox := []
  pool := []

/-- Partition 0 at reset: the package, held by kernel 1 (R410). -/
def Part.package : Part := { Part.unused with node := 1, valid := true }

/-- An absent fault queue (R375). -/
def FaultQueue.reset : FaultQueue where
  base := 0
  note := 0
  head := 0
  tail := 0
  waiting := []

/-- An idle slot of the deed port (R408). -/
def PortSlot.reset : PortSlot where
  frame := 0
  arg := 0
  result := 0

/-- The hub die after reset. -/
def Hub.reset : Hub where
  deeds := []
  lines := []
  transits := []
  breachk := []
  ctlKernel := []
  port := []
  evBase := 0
  evHead := 0
  evTail := 0
  evMsi := 0
  evData := 0
  hostRecords := []
  fqs := []
  kroot := []
  uroot := 0
  parts := [(0, Part.package)]
  sheet := []
  tenantKeys := []
  admissionKey := 0
  admissions := 0
  signIndex := 0
  saved := []
  vifbase := []
  vidrop := 0
  queues := []
  admitList := []
  evicted := []
  halted := []
  qovf := false
  lastServed := []
  launches := []
  launchCount := 0
  crews := []
  bindings := []
  objects := []
  tasks := []
  taskGens := []
  posts := 0
  linkOpen := 0

/-- The platform after a reset whose boot succeeded and whose wipe runs (R427, R430). -/
def Platform.reset : Platform where
  snapctl := 0
  snapshot := []
  lastFiring := none
  owner := 0
  handTo := 0
  devid := 0
  devidWritten := false
  access := []
  lifeCycle := 0
  minSvn := 0
  svnRises := 0
  bootFail := false
  wiping := true
  bootSlot := some 0
  flash := []
  runSvn := 0
  version := 0
  updating := none
  staged := none
  unitVersions := []
  policies := []
  keyHash := 0
  signKey := 0
  signPrf := 0
  publicKey := []
  temps := []
  stackState := []
  shutdownAt := none
  clockMhz := 3600
  power := 0
  trained := false

/-- The device right after reset: no thread on any core, memory with nothing listed, the wipe under way
(R427, R430). The two steps that reset starts, the training of the links and the end of the wipe, are
due. A program comes to run through a queue and a launch (DESIGN CHOICE, log entry 10). -/
def State.reset : State where
  actor := ⟨0, 0⟩
  args := []
  now := 0
  resetAt := 0
  time := 0
  ids := 0
  fresh := 0
  agenda := [⟨0, .linkTraining, [0, 0]⟩, ⟨0, .wipeComplete, []⟩]
  tape := []
  powered := true
  net := []
  dram := []
  dramBad := []
  cores := []
  clusters := []
  dies := []
  walks := []
  fabric := []
  msis := []
  lastLoad := 0
  lastFault := false
  lastDirect := none
  hub := Hub.reset
  plat := Platform.reset

end Sys2Proof.Machine
end

