-- ==== Sys2Proof/Machine/Ops.lean ====
section
/-! DEFINITION. The named operations over the state that the meanings share: access to cores, contexts,
registers and memory; the ends of an instruction (retire, stall, park); wakes; the records and messages that travel
between agents; and the one operation that takes a cause, with the return from a handler beside it. -/

namespace Sys2Proof.Machine

/-- What a meaning answers. -/
abbrev Result := Host.Outcome State Fault Refusal

/-! ### Names of cores and threads -/

/-- The core key of hub core `n` (R214): 0 to 7 the control cores, 8 the Umpire. -/
def hubKey (n : Nat) : Nat := 4096 + n
/-- The Umpire's key. -/
def umpireKey : Nat := 4104
/-- Whether the key names a hub core. -/
def isHub (k : Nat) : Bool := 4096 ≤ k
/-- Whether the key names a control core. -/
def isControl (k : Nat) : Bool := 4096 ≤ k && decide (k < 4104)
/-- Whether the key names a core of the device. -/
def isCore (k : Nat) : Bool := decide (k < 4105)
/-- The die whose units serve the core; die 0 for a hub core (R421). -/
def dieOf (k : Nat) : Nat := if isHub k then 0 else k / 1024
/-- The global cluster of a compute core (R10, R410); 256 stands for the hub. -/
def clusterOf (k : Nat) : Nat := if isHub k then 256 else k / 16
/-- The column of a compute core in its die's logical mesh (R10). -/
def meshX (k : Nat) : Nat := 4 * (k % 1024 / 16 % 8) + k % 4
/-- The row of a compute core in its die's logical mesh (R10). -/
def meshY (k : Nat) : Nat := 4 * (k % 1024 / 16 / 8) + k % 16 / 4
/-- The core at column `x`, row `y` of a die. -/
def meshKey (die x y : Nat) : Nat := 1024 * die + 16 * (8 * (y / 4) + x / 4) + (4 * (y % 4) + x % 4)

/-- The core in direction `dir` (R308), none at the edge of the die. -/
def neighbour (k dir : Nat) : Option Nat :=
  if isHub k then none else
  let x := meshX k
  let y := meshY k
  let d := k / 1024
  match dir with
  | 0 => if y = 0 then none else some (meshKey d x (y - 1))
  | 1 => if x = 31 then none else some (meshKey d (x + 1) y)
  | 2 => if y = 31 then none else some (meshKey d x (y + 1))
  | 3 => if x = 0 then none else some (meshKey d (x - 1) y)
  | _ => none

/-- The opposite direction, `v XOR 2` (R308). -/
def opposite (dir : Nat) : Nat := (dir + 2) % 4

/-- The local-store limit of a core (R12, R179). -/
def lsLimit (k : Nat) : Nat := if isHub k then 2 ^ 21 else 2 ^ 18

/-- A thread handle (R124). -/
def mkHandle (k t gen : Nat) : Nat :=
  if isHub k then t + 2 ^ 6 * (k - 4096) + 2 ^ 18 * gen + 2 ^ 26
  else t + 2 ^ 6 * (k % 1024) + 2 ^ 16 * (k / 1024) + 2 ^ 18 * gen

/-- Bits `lo` up to `lo + n - 1` of a number. -/
def bits (x lo n : Nat) : Nat := x / 2 ^ lo % 2 ^ n

/-- The core key that the HUB, CORE and DIE fields of a handle or counter name give, none where they name
no core (R124, R214). -/
def coreOfFields (core die : Nat) (hub : Bool) : Option Nat :=
  if hub then (if core ≤ 8 ∧ die = 0 then some (4096 + core) else none) else some (1024 * die + core)

/-- The core that a handle names. -/
def handleCore (h : Nat) : Option Nat := coreOfFields (bits h 6 10) (bits h 16 2) (bits h 26 1 == 1)
/-- The thread number in a handle. -/
def handleThread (h : Nat) : Nat := bits h 0 6

/-! ### Cores and contexts -/

/-- The core under a key. -/
def State.core (s : State) (k : Nat) : Core := (Tbl.get? s.cores k).getD Core.reset
/-- The state with a core's contents replaced. -/
def State.setCore (s : State) (k : Nat) (c : Core) : State := { s with cores := Tbl.put s.cores k c }
/-- The state with a core changed. -/
def State.onCore (s : State) (k : Nat) (f : Core → Core) : State := s.setCore k (f (s.core k))
/-- The resident context of a thread, if there is one. -/
def State.ctx? (s : State) (a : Actor) : Option Ctx := Tbl.get? (s.core a.core).threads a.thread
/-- The context of a thread. -/
def State.ctx (s : State) (a : Actor) : Ctx := (s.ctx? a).getD Ctx.fresh
/-- The state with a thread's context replaced. -/
def State.setCtx (s : State) (a : Actor) (c : Ctx) : State :=
  s.setCore a.core { s.core a.core with threads := Tbl.put (s.core a.core).threads a.thread c }
/-- The state with a resident thread's context changed; nothing where no such thread is resident. -/
def State.onCtx (s : State) (a : Actor) (f : Ctx → Ctx) : State :=
  match s.ctx? a with
  | some c => s.setCtx a (f c)
  | none => s
/-- The acting thread's context. -/
def State.me (s : State) : Ctx := s.ctx s.actor
/-- The state with the acting thread's context replaced. -/
def State.setMe (s : State) (c : Ctx) : State := s.setCtx s.actor c
/-- The state with the acting thread's context changed. -/
def State.onMe (s : State) (f : Ctx → Ctx) : State := s.setMe (f s.me)
/-- The acting thread's core. -/
def State.here (s : State) : Core := s.core s.actor.core
/-- The state with the acting thread's core replaced. -/
def State.setHere (s : State) (c : Core) : State := s.setCore s.actor.core c
/-- A cluster; 256 is the hub's. -/
def State.cluster (s : State) (g : Nat) : Cluster := (Tbl.get? s.clusters g).getD Cluster.reset
/-- The state with a cluster replaced. -/
def State.setCluster (s : State) (g : Nat) (c : Cluster) : State := { s with clusters := Tbl.put s.clusters g c }
/-- A die. -/
def State.die (s : State) (d : Nat) : Die := (Tbl.get? s.dies d).getD Die.reset
/-- The state with a die replaced. -/
def State.setDie (s : State) (d : Nat) (v : Die) : State := { s with dies := Tbl.put s.dies d v }
/-- A partition by its ID. -/
def State.part (s : State) (p : Nat) : Part := (Tbl.get? s.hub.parts p).getD Part.unused
/-- The state with a partition replaced. -/
def State.setPart (s : State) (p : Nat) (v : Part) : State :=
  { s with hub := { s.hub with parts := Tbl.put s.hub.parts p v } }
/-- The fault queue of a kernel (R375). -/
def State.faultQueue (s : State) (k : Nat) : FaultQueue := (Tbl.get? s.hub.fqs k).getD FaultQueue.reset
/-- The state with a kernel's fault queue replaced. -/
def State.setFaultQueue (s : State) (k : Nat) (v : FaultQueue) : State :=
  { s with hub := { s.hub with fqs := Tbl.put s.hub.fqs k v } }
/-- The state with the hub changed. -/
def State.onHub (s : State) (f : Hub → Hub) : State := { s with hub := f s.hub }
/-- The `n`-th argument of a device step. (DESIGN CHOICE, log entry 38.) -/
def State.arg (s : State) (n : Nat) : Nat := s.args.getD n 0

/-- Whether the matrix engine or the weight loader holds a thread of the core, or values at the head of a channel are reserved for
one that waits for its place in them (R268). -/
def Core.holds (c : Core) (t : Nat) : Bool :=
  (c.eng.queue.any fun e => decide (e.op = .hold t)) || (c.eng.loads.any fun l => match l with
    | .compress _ owner _ _ _ _ true => handleThread owner == t
    | _ => false) || c.chans.any fun e => e.2.reserved == some t

/-- Whether a debugger halts a thread: its HALT bit, or a breakpoint or watchpoint that halts (R393). The instruction that
holds it ends its hold first (R268). -/
def Core.halts (c : Core) (t : Nat) (x : Ctx) : Bool := (x.halted || c.dbgHalt.getLsbD t) && !c.holds t

/-! ### Registers -/

/-- A g register; g0 reads zero (R33). -/
def Ctx.rg (c : Ctx) (r : Nat) : Word := if r = 0 then 0 else Map.get 0 c.g r
/-- A write of a g register; a write to g0 is discarded (R29). -/
def Ctx.wg (c : Ctx) (r : Nat) (x : Word) : Ctx := if r = 0 then c else { c with g := Map.set 0 c.g r x }
/-- A v register. -/
def Ctx.rv (c : Ctx) (r : Nat) : W256 := Map.get 0 c.v r
/-- A write of a v register. -/
def Ctx.wv (c : Ctx) (r : Nat) (x : W256) : Ctx := { c with v := Map.set 0 c.v r x }
/-- A predicate register; p0 reads all ones (R33). -/
def Ctx.rp (c : Ctx) (r : Nat) : W32 := if r = 0 then BitVec.allOnes 32 else Map.get 0 c.p r
/-- A write of a predicate register. -/
def Ctx.wp (c : Ctx) (r : Nat) (x : W32) : Ctx := { c with p := Map.set 0 c.p r x }
/-- The success value, all ones, or the failure value, zero, of a predicate (R134). -/
def Ctx.wpOk (c : Ctx) (r : Nat) (ok : Bool) : Ctx := c.wp r (if ok then BitVec.allOnes 32 else 0)
/-- An e register. -/
def Ctx.re (c : Ctx) (r : Nat) : Word := Map.get 0 c.e r
/-- A write of an e register. -/
def Ctx.we (c : Ctx) (r : Nat) (x : Word) : Ctx := { c with e := Map.set 0 c.e r x }

/-! ### Fields of the control registers -/

/-- A number with the field of `n` bits at `lo` replaced. -/
def setBits (x lo n v : Nat) : Nat := x - bits x lo n * 2 ^ lo + v % 2 ^ n * 2 ^ lo

/-- XSTAT.MODE: 0 U, 1 S, 3 M (R369). -/
def Ctx.mode (c : Ctx) : Nat := bits c.xstat.toNat 0 2
/-- XSTAT.INTRAP. -/
def Ctx.intrap (c : Ctx) : Bool := bits c.xstat.toNat 10 1 == 1
/-- XSTAT with a field replaced. -/
def Ctx.setXstat (c : Ctx) (lo n v : Nat) : Ctx := { c with xstat := BitVec.ofNat 32 (setBits c.xstat.toNat lo n v) }
/-- PRIO.PRIO (R126). -/
def Ctx.priority (c : Ctx) : Nat := bits c.prio.toNat 0 4
/-- PRIO.CEIL. -/
def Ctx.ceil (c : Ctx) : Nat := bits c.prio.toNat 4 4
/-- PRIO.EFF. -/
def Ctx.eff (c : Ctx) : Nat := bits c.prio.toNat 8 4
/-- PRIO with a field replaced. -/
def Ctx.setPrioField (c : Ctx) (lo n v : Nat) : Ctx := { c with prio := BitVec.ofNat 32 (setBits c.prio.toNat lo n v) }
/-- The handle in CTXID. -/
def Ctx.handle (c : Ctx) : Nat := c.ctxid.toNat
/-- RANK.CREW (R125). -/
def Ctx.crewRank (c : Ctx) : Nat := bits c.rank.toNat 0 18
/-- RANK with a field replaced. -/
def Ctx.setRank (c : Ctx) (lo n v : Nat) : Ctx := { c with rank := BitVec.ofNat 32 (setBits c.rank.toNat lo n v) }
/-- Whether a binding is not 4, so that the channels are bound (R309). -/
def Ctx.bound (c : Ctx) : Bool := c.bindU != 4 || c.bindV != 4
/-- Whether the thread occupies a live slot. -/
def Ctx.isLive (c : Ctx) : Bool := match c.place with | .live _ => true | _ => false
/-- Whether the thread has left its slot for the wings (R192): it is there, or the port is moving it there (R130). -/
def Ctx.hasLeft (c : Ctx) : Bool := match c.place with | .wings _ | .moving none _ => true | _ => false
/-- Whether the thread is in the wings. -/
def Ctx.isWinged (c : Ctx) : Bool := match c.place with | .wings _ => true | _ => false
/-- The live slot, 0 where there is none. -/
def Ctx.slot (c : Ctx) : Nat := match c.place with | .live i => i | _ => 0
/-- The reason of a parked thread's park word (R128). -/
def Ctx.parkReason (c : Ctx) : Nat := if c.status = .parked then bits c.park.toNat 0 4 else 0
/-- Whether the thread waits in the wings for a live slot (R130): it is ready, or it is called to a slot to test its barrier or
lock again, by WAKE (R143) or because its crew's phase waits only for its members in the wings (R147, DEDUCED, log entry 21). -/
def Ctx.isPending (c : Ctx) : Bool :=
  c.isWinged && !c.suspended && (decide (c.status = .running) || (c.called && (c.parkReason == 5 || c.parkReason == 6)))
/-- The park word as the context image shows it (R128, R325). -/
def Ctx.parkWord (c : Ctx) : Nat :=
  (match c.status with
    | .parked | .draining _ _ => c.park.toNat
    | _ => 0) + (if c.hasLeft then 16 else 0)
    + (if c.isPending then 32 else 0)

/-- Whether a throttled channel feeds a thread: its upstream binding, or the input of a role's stage (R311). -/
def isFedLate (core : Core) (c : Ctx) : Bool :=
  let throttled (u : Nat) : Bool := ((Tbl.get? core.chans u).getD Channel.reset).throttle
  throttled c.bindU || (c.role.isSome && core.stage.any fun st => throttled st.input)

/-- EFF as a priority and a throttled upstream channel give it (R126, R311). -/
def effAt (core : Core) (c : Ctx) (p : Nat) : Nat := if isFedLate core c then max p (min (p + 2) 9) else p

/-- EFF as PRIO and a throttled upstream channel give it (R126, R311). -/
def effOf (core : Core) (c : Ctx) : Nat := effAt core c c.priority

/-- The priority from which a thread's EFF is taken: the stage's while its stage calls it to a slot (R321), else its own (R126).
(DEDUCED, log entry 27.) -/
def Ctx.base (core : Core) (c : Ctx) : Nat :=
  if c.called && c.role.isSome && decide (c.status = .running) then (core.stage.map (·.prio)).getD c.priority else c.priority

/-- EFF brought up to date (R126, R311). -/
def refreshed (core : Core) (c : Ctx) : Ctx := c.setPrioField 8 4 (effAt core c (c.base core))

/-- PRIO.PRIO set, EFF following it. -/
def setPriority (core : Core) (p : Nat) (c : Ctx) : Ctx :=
  let c := c.setPrioField 0 4 p
  c.setPrioField 8 4 (effOf core c)

/-- Whether a thread is in the drain of its end. -/
def Ctx.isDraining (c : Ctx) : Bool := match c.status with | .draining _ _ => true | _ => false

/-- Whether the debugger or a forwarded cause holds a thread or keeps it from its next instruction (R374, R393). -/
def Core.isStill (c : Core) (t : Nat) (x : Ctx) : Bool := c.halts t x || match x.status with | .held _ _ => true | _ => false

/-- Whether the device keeps every core from issuing: it has failed to boot, or its wipe runs (R400, R427, R430). -/
def inReset (s : State) : Bool := s.plat.bootFail || s.plat.wiping

/-! ### Partitions and kernels -/

/-- Whether a node of the buddy tree covers global cluster `g` (R410). -/
def nodeCovers (node g : Nat) : Bool := (List.range 9).any fun i => (256 + g) / 2 ^ i == node

/-- The partition that holds a compute core (R410). -/
def State.partOf (s : State) (k : Nat) : Option Nat :=
  if isHub k then none
  else (s.hub.parts.find? fun e => e.2.valid && nodeCovers e.2.node (k / 16)).map (·.1)

/-- The kernel ID of control core `n`, which the firmware fixes at boot (R399); 1 where nothing is listed
(DESIGN CHOICE, log entry 5). -/
def State.controlKernel (s : State) (n : Nat) : Nat := Map.get 1 s.hub.ctlKernel n

/-- The kernel that a core acts for: the partition's, the control core's own, none (0) for the Umpire
(R399, R444). -/
def State.kernelOf (s : State) (k : Nat) : Nat :=
  if isControl k then s.controlKernel (k - 4096)
  else match s.partOf k with
    | some p => (s.part p).kernel
    | none => 0

/-- The translation space of a core's accesses: a partition, 64 + kernel for a control core, 80 for the Umpire
(R230, R420, R444). -/
def State.spaceOf (s : State) (k : Nat) : Nat :=
  if k = umpireKey then 80 else if isHub k then 64 + s.kernelOf k else (s.partOf k).getD 0

/-- Whether `issuer` may name core `k` of its own device (R446). -/
def State.mayName (s : State) (issuer k : Nat) : Bool :=
  if isControl issuer then
    let kern := s.kernelOf issuer
    if isControl k then s.kernelOf k == kern
    else if isHub k then false
    else s.kernelOf k == kern
  else if isHub issuer then false
  else if isControl k then s.kernelOf k == s.kernelOf issuer
  else if isHub k then false
  else s.partOf k == s.partOf issuer

/-- The keys of the cores that a partition's node covers, in ascending die and L. -/
def partCores (p : Part) : List Nat :=
  if p.valid then (List.range 4096).filter fun k => nodeCovers p.node (k / 16) else []

/-! ### The thread that a handle names -/

/-- Whether the thread of a handle has been accepted elsewhere under a new handle (R144). -/
def Core.hasMoved (c : Core) (h : Nat) : Bool := c.forwards.any fun f => f.old == h && f.new != h

/-- The resident thread with this handle (R124). -/
def State.threadOf (s : State) (h : Nat) : Option Actor :=
  match handleCore h with
  | some k =>
    let a : Actor := ⟨k, handleThread h⟩
    match s.ctx? a with
    | some c => if c.handle = h ∧ (s.core k).hasMoved h = false then some a else none
    | none => none
  | none => none

/-- The thread that answers to a handle, through at most `n` forwarding entries (R144). -/
def State.ownerIn (s : State) : Nat → Nat → Option Actor
  | 0, h => s.threadOf h
  | n + 1, h => match s.threadOf h with
    | some a => some a
    | none => match handleCore h with
      | some k => match (s.core k).forwards.find? fun f => f.old == h && f.new != h with
        | some f => s.ownerIn n f.new
        | none => none
      | none => none

/-- The thread that answers to a handle (R144). -/
def State.ownerOf (s : State) (h : Nat) : Option Actor := s.ownerIn 8 h

/-! ### Bytes -/

/-- The little-endian number in `n` bytes at `x`. -/
def readBytes (m : Map Byte) (x : Nat) : Nat → Nat
  | 0 => 0
  | n + 1 => (Map.get 0 m x).toNat + 256 * readBytes m (x + 1) n

/-- The low `n` bytes of `v` written at `x`, little-endian. -/
def writeBytes (m : Map Byte) (x : Nat) : Nat → Nat → Map Byte
  | 0, _ => m
  | n + 1, v => writeBytes (Map.set 0 m x (BitVec.ofNat 8 v)) (x + 1) n (v / 256)

/-- The bytes at `x`, `n` of them. -/
def getBytes (m : Map Byte) (x : Nat) : Nat → List Byte
  | 0 => []
  | n + 1 => Map.get 0 m x :: getBytes m (x + 1) n

/-- A list of bytes written at `x` upward. -/
def putBytes (m : Map Byte) (x : Nat) : List Byte → Map Byte
  | [] => m
  | b :: bs => putBytes (Map.set 0 m x b) (x + 1) bs

/-- The canonical form of a byte memory. (DESIGN CHOICE, log entry 35.) -/
def Memory.wf (m : Map Byte) : Bool := Map.wf 0 m

/-- The number that a list of bytes spells, little-endian. -/
def natOfBytes : List Byte → Nat
  | [] => 0
  | b :: bs => b.toNat + 256 * natOfBytes bs

/-- The low `n` bytes of a number, little-endian. -/
def bytesOfNat : Nat → Nat → List Byte
  | 0, _ => []
  | n + 1, v => BitVec.ofNat 8 v :: bytesOfNat n (v / 256)

/-! ### The local store (chapter 08) -/

/-- A word's state code (R181); full where nothing is listed (R182). -/
def Core.wordState (c : Core) (w : Nat) : BitVec 2 := Map.get 1 c.lsState w

/-- The 32-bit words, by number, that bytes `x` to `x + n - 1` touch. -/
def wordsOf (x n : Nat) : List Nat := if n = 0 then [] else (List.range ((x + n - 1) / 4 - x / 4 + 1)).map (x / 4 + ·)

/-- The address of the first word of an access that holds an uncorrectable error (R183). -/
def Core.badWord (c : Core) (x n : Nat) : Option Nat :=
  ((wordsOf x n).find? fun w => c.lsBad.contains w).map (4 * ·)

/-- The number in `n` bytes of a core's local store. -/
def Core.lsRead (c : Core) (x n : Nat) : Nat := readBytes c.ls x n
/-- Bytes written into a core's local store, word states unchanged. -/
def Core.lsWrite (c : Core) (x n v : Nat) : Core := { c with ls := writeBytes c.ls x n v }
/-- A list of bytes written into a core's local store, word states unchanged. -/
def Core.lsPut (c : Core) (x : Nat) (bs : List Byte) : Core := { c with ls := putBytes c.ls x bs }

/-! ### The machine's schedule -/

/-- A step made due `delay` cycles from now. (DESIGN CHOICE, log entry 2.) -/
def State.post (s : State) (delay : Nat) (step : Instr) (args : List Nat) : State :=
  { s with agenda := s.agenda ++ [⟨s.now + delay, step, args⟩] }

/-- The entry of a core's queue with this number. -/
def State.entry? (s : State) (k id : Nat) : Option Entry := (s.core k).queue.find? fun e => e.id == id

/-- The order of service of an entry: EFF, which is 9 after a wait of 4,096 cycles (R132). -/
def serviceEff (now : Nat) (e : Entry) : Nat := if e.since + 4096 ≤ now then 9 else e.eff

/-- The thread that an operation in flight will answer to, if it will answer. -/
def Payload.answersTo : Payload → Option Actor
  | .atomic a .. | .atomicReply a .. | .cancel a | .ack a _ | .spawn a .. | .spawnReply a .. | .kill a ..
  | .killReply a .. | .migrate a .. | .migrateReply a .. | .binding a .. | .lock a .. | .lockAnswer a ..
  | .release a .. | .releaseAnswer a .. | .message a .. | .messageReply a .. | .status a .. | .plain a ..
  | .post a .. | .timeline a .. => some a
  | _ => none

/-- The EFF that an operation is issued with: that of its entry, or of the thread that it serves (R132); 0 for what the hub sends
of its own. (DEDUCED, log entry 52.) -/
def State.sendEff (s : State) (p : Payload) : Nat :=
  match p with
  | .rput k id .. | .increment k id .. => ((s.entry? k id).map (serviceEff s.now)).getD 0
  | .grant a .. => (s.ctx a).eff
  | p => (p.answersTo.map fun a => (s.ctx a).eff).getD 0

/-- An operation sent toward another agent with an EFF; the step that receives it is due (R132, R233). -/
def State.sendAt (s : State) (eff : Nat) (cls : NetClass) (src dst handle : Nat) (p : Payload) (step : Instr) : State :=
  State.post { s with net := s.net ++ [⟨s.ids, cls, src, dst, handle, p, eff⟩], ids := s.ids + 1 } 0 step [s.ids]

/-- An operation sent toward another agent, for its entry or its thread (R132, R233). -/
def State.send (s : State) (cls : NetClass) (src dst handle : Nat) (p : Payload) (step : Instr) : State :=
  s.sendAt (s.sendEff p) cls src dst handle p step

/-- The mark of an agent of another device, to which its number is added. -/
def elsewhere : Nat := 2 ^ 20

/-- Whether a space's traffic may use the links to other devices: in a heat, only in the tenant's slots (R412, R414). -/
def State.linkAllowed (s : State) (space : Nat) : Bool :=
  match (s.part space).heat with
  | some h => decide (64 ≤ space) || h.linkSlots.getLsbD s.hub.linkOpen
  | none => true

/-- The operation with this number, if it may arrive: no earlier one of its class, source and destination is
still on its way (R233), and one from another device has its link slot (R414). -/
def State.arriving (s : State) (id : Nat) : Option Flight :=
  match s.net.find? fun f => f.id == id with
  | some f =>
    if elsewhere ≤ f.src ∧ s.linkAllowed (s.spaceOf f.dst) = false then none
    else if s.net.any fun e => decide (e.id < id) && decide (e.cls = f.cls) && e.src == f.src && e.dst == f.dst then none
    else some f
  | none => none

/-- The state with an operation no longer in flight. -/
def State.landed (s : State) (id : Nat) : State := { s with net := s.net.filter fun f => f.id != id }

/-- The step that receives an operation in flight: it acts once the operation may arrive, and is due again while an
earlier one is on its way (R233). -/
def onFlight (step : Instr) (go : Flight → State → Option State) (s : State) : State :=
  match s.arriving (s.arg 0) with
  | some f => (go f (s.landed f.id)).getD s
  | none => if s.net.any fun f => f.id == s.arg 0 then s.post 1 step [s.arg 0] else s

/-- The thread whose remote atomic, message, posted task or supervisor operation an operation in flight belongs to. -/
def Payload.exchangeOf : Payload → Option Actor
  | .atomic a .. | .atomicReply a .. | .cancel a | .message a .. | .messageReply a .. | .post a .. | .status a .. => some a
  | _ => none

/-- Whether a thread is parked for the reply to its remote atomic or message, its TPOST or its supervisor operation, which a save
and a pre-emption wait for (R247, R317, R349, R403). -/
def awaitsReply (s : State) (a : Actor) (c : Ctx) : Bool :=
  c.parkReason == 9 && (c.timeoutAt.isSome || s.net.any fun f => f.payload.exchangeOf == some a)

/-- Whether a thread has reached an instruction boundary (R106, R177, R247, R389): the occupancy of its last instruction has
passed and no engine holds it, or it is parked or held. -/
def hasReached (s : State) (a : Actor) (c : Ctx) : Bool :=
  match c.status with
  | .running => decide (c.readyAt ≤ s.now) && !(s.core a.core).holds a.thread
  | .parked => !awaitsReply s a c
  | .held _ _ | .draining _ _ => true
  | .waiting | .divWait => false

/-- Whether a thread is halted: a debugger halts it, and it has stopped as for a heat switch (R389, R393). -/
def isHalted (s : State) (a : Actor) (c : Ctx) : Bool := (s.core a.core).halts a.thread c && hasReached s a c

/-- Whether a thread is held or halted (R385). -/
def isHeldOrHalted (s : State) (a : Actor) : Bool :=
  isHalted s a (s.ctx a) || match (s.ctx a).status with
    | .held _ _ => true
    | _ => false

/-- A running number that names an entry, a footprint or an attempt. -/
def State.newId (s : State) : Nat × State := (s.ids, { s with ids := s.ids + 1 })

/-! ### How an instruction ends -/

/-- The core notes the slot that issued (R17). -/
def State.issued (s : State) : State :=
  s.setHere { s.here with lastSlot := s.me.slot, nextIssue := s.now + 1 }

/-- The instruction completes and the PC becomes `pc`; the context is not ready for `occ` cycles (R103). -/
def goTo (pc : Word) (occ : Nat) (s : State) : State :=
  let s := s.setHere { s.here with instret := s.here.instret + 1, lastSlot := s.me.slot, nextIssue := s.now + 1 }
  s.onMe fun c => { c with pc := pc, readyAt := s.now + occ, wait := none }

/-- The instruction, `len` bytes long, completes. -/
def retire (len occ : Nat) (s : State) : State := goTo (s.me.pc + word len) occ s

/-- The context is not ready: the instruction has no effect now and is tried again. -/
def stall (s : State) : State := s.onMe fun c => { c with readyAt := s.now + 1 }

/-- The thread parks before the instruction's effect; it will execute the instruction again (R128), not before 4 cycles have
passed since this issue (R17, R129). -/
def parkAt (reason arg : Nat) (s : State) : State :=
  s.issued.onMe fun c => { c with
    status := .parked
    park := BitVec.ofNat 32 (reason + 256 * arg)
    readyAt := s.now + 4 }

/-- The thread parks after the instruction, whose reply or event will end the park. -/
def parkAfter (len occ reason arg : Nat) (s : State) : State :=
  (retire len occ s).onMe fun c => { c with status := .parked, park := BitVec.ofNat 32 (reason + 256 * arg) }

/-- The context waits for an answer after the instruction; this is not a park. -/
def waitAfter (len occ : Nat) (s : State) : State :=
  (retire len occ s).onMe fun c => { c with status := .waiting }

/-- A park or wait ends: the thread is ready from the next cycle, PENDING if it is in the wings (R129). -/
def resume (now : Nat) (c : Ctx) : Ctx :=
  match c.status with
  | .parked | .waiting =>
    { c with
      status := .running
      park := 0
      timeoutAt := none
      called := false
      throttled := false
      readyAt := max c.readyAt (now + 1)
      place := match c.place with
        | .wings _ => .wings now
        | p => p }
  | _ => c

/-- A park or wait of a thread ends. -/
def State.wake (s : State) (a : Actor) : State := s.onCtx a (resume s.now)

/-- A change applied to every context of a core. -/
def Core.mapCtx (c : Core) (f : Nat → Ctx → Ctx) : Core := { c with threads := c.threads.map fun e => (e.1, f e.1 e.2) }

/-- Whether a thread waits in the wings, or on its way there, since its wait limit (R192): only WAKE or R195 ends that park. -/
def Ctx.isLimited (x : Ctx) : Bool := !x.isLive && match x.wait with
  | some w => w.limited
  | none => false

/-- A woken waiter: it will re-test, with one more wake counted (R190). -/
def woken (now : Nat) (c : Ctx) : Ctx :=
  { resume now c with wait := c.wait.map fun w => { w with retest := true, wakes := w.wakes + 1 } }

/-- Every parked thread of a core that satisfies `p` is woken to re-test, but one that THROTTLE parked (R311). -/
def wakeWhere (k : Nat) (p : Ctx → Bool) (s : State) : State :=
  s.onCore k fun core =>
    core.mapCtx fun _ c => if c.status = .parked ∧ p c = true ∧ c.isLimited = false ∧ c.throttled = false then
      woken s.now c else c

/-- The key of a full/empty wait on `n` bytes at `x`. -/
def feKey (x n : Nat) : Nat := 2 * x + (if n = 8 then 1 else 0)

/-- The words that a full/empty wait covers. -/
def feWords (key : Nat) : List Nat := wordsOf (key / 2) (if key % 2 = 1 then 8 else 4)

/-- Whether a thread waits on a full/empty word among `ws`. -/
def waitsOn (ws : List Nat) (c : Ctx) : Bool :=
  c.parkReason == 1 && match c.wait with
    | some w => (feWords w.key).any fun i => ws.contains i
    | none => false

/-- Whether a state reads as empty (R181). -/
def isEmptyCode (b : BitVec 2) : Bool := b == 0 || b == 2

/-- Whether a thread is parked on a grant slot whose two words are both full (R239). -/
def holdsGrant (core : Core) (c : Ctx) : Bool :=
  c.parkReason == 6 && (wordsOf (bits c.park.toNat 8 24) 8).all fun w => core.wordState w == 1

/-- The states of words set; a change, empty against full, wakes the words' waiters (R190) and ends the park of an
ACQ whose slot has become full (R239). -/
def setStates (k : Nat) (ws : List Nat) (st : BitVec 2) (s : State) : State :=
  let core := s.core k
  let changed := ws.filter fun w => isEmptyCode (core.wordState w) != isEmptyCode st
  let core := { core with lsState := ws.foldl (fun m w => Map.set 1 m w st) core.lsState }
  let s := s.setCore k core
  if changed.isEmpty then s
  else
    wakeWhere k (waitsOn changed)
      (s.onCore k fun c => c.mapCtx fun _ x => if holdsGrant core x then resume s.now x else x)

/-! ### Fault records (R231, R375) -/

/-- A record given to a kernel, numbered by its die; it waits until the queue has room. Kernel 0 is the host
kernel, whose records go to the host event ring (R407). -/
def sendRecord (kernel : Nat) (r : FRecord) (s : State) : State :=
  let d := s.die r.die
  let r := { r with seq := d.seq }
  let s := s.setDie r.die { d with seq := (d.seq + 1) % 2 ^ 16 }
  let s :=
    if kernel = 0 then s.onHub fun h => { h with hostRecords := h.hostRecords ++ [r] }
    else s.setFaultQueue kernel { s.faultQueue kernel with waiting := (s.faultQueue kernel).waiting ++ [r] }
  let s :=
    if bits s.plat.snapctl.toNat 9 1 = 1 ∧ bits s.plat.snapctl.toNat 0 9 = r.cause
    then s.post 0 .snapshotFiring [0, r.cause, if r.partition < 64 then r.partition else 64 + kernel] else s
  s.post 0 .faultRecordWrite [kernel]

/-- A record with the fields that most rules leave 0. -/
def plainRecord (cause partition access thread : Nat) (address : Word) (die : Nat) : FRecord where
  cause := cause
  partition := partition
  access := access
  thread := thread
  address := address
  frame := 0
  seq := 0
  die := die
  flags := 0
  event := 0

/-- The partition byte of a record about a core: 0xFF for a hub core (R231). -/
def State.recordPart (s : State) (k : Nat) : Nat := (s.partOf k).getD 0xFF

/-- A notice to a kernel (access 9, R374). -/
def notice (kernel cause partition thread : Nat) (address : Word) (die : Nat) (s : State) : State :=
  sendRecord kernel (plainRecord cause partition 9 thread address die) s

/-! ### Causes -/

/-- A cause code, ORIGIN × 128 + REASON (R369). -/
def causeCode (o : Origin) (r : Reason) : Nat := 128 * o.ctorIdx + r.ctorIdx

/-- The origins with which each reason can arise (R371): bit 0 EXECUTE, bit 1 ACCESS, bit 2 REMOTE, bit 3 ASYNC taken by
a thread; 16 marks an ASYNC cause that is only ever a record. -/
def reasonOrigins : List Nat :=
  [1, 1, 1, 1, 2, 1, 1, 1, 1, 2, 8, 1, 1, 1, 8, 1, 1, 1, 1, 1, 1, 1, 1, 1, 1, 1, 1, 1, 2, 2, 6, 8, 1, 1, 1, 3, 1, 1, 1, 1, 6, 6,
   1, 6, 6, 6, 6, 6, 6, 4, 4, 1, 1, 1, 1, 1, 1, 1, 1, 1, 1, 8, 1, 1, 4, 3, 2, 1, 1, 1, 1, 1, 1, 8, 1, 9, 8, 8, 8, 16, 16, 17, 16,
   16, 1, 16, 16, 16, 16, 16, 16, 16, 16, 16, 16, 8]

/-- Whether a reason is listed with an origin (R371). -/
def Reason.arises (r : Reason) (o : Origin) : Bool := (reasonOrigins.getD r.ctorIdx 0).testBit o.ctorIdx

/-- The origin of a failed memory access of an instruction: ACCESS, or REMOTE for a reason that is not listed with ACCESS (R371). -/
def memoryOrigin (r : Reason) : Origin := if r.arises .access then .access else .remote

/-- Whether XDELEG delegates a reason (R370). -/
def delegated (xdeleg : Word) (reason : Nat) : Bool :=
  if reason = 12 ∨ reason = 31 ∨ reason = 61 ∨ 79 ≤ reason then false
  else if reason = 78 then xdeleg.getLsbD 63
  else if reason < 48 then xdeleg.getLsbD reason
  else xdeleg.getLsbD (48 + (reason - 48) / 2)

/-- The handler address VEC : 0 (R369). -/
def handlerPc (xvec : Word) : Word := word (bits xvec.toNat 1 56 * 2)

/-- The trap registers as an entry writes them (R372), the PC at the handler. -/
def enterHandler (c : Ctx) (cause : Nat) (xval stop : Word) : Ctx :=
  let c := { c with xpc := stop, xcause := BitVec.ofNat 32 cause, xval := xval, pc := handlerPc c.xvec }
  ((c.setXstat 4 4 c.priority).setXstat 2 2 c.mode).setXstat 10 1 1

/-- Whether a cause of a thread can be taken now: not while a delegated cause meets INTRAP (R376). -/
def takeable (core : Core) (c : Ctx) (cause : Nat) : Bool :=
  c.mode != 0 || !(delegated core.xdeleg (cause % 128) && c.intrap)

/-- The context leaves its gang (R154). -/
def leaveGang (c : Ctx) : Ctx :=
  { (c.setRank 18 3 0).setXstat 8 2 0 with gsize := 0, gang := none, reduction := none }

/-- The key of the wait in TWAIT's reply park (R352). -/
def twaitKey : Nat := 2 ^ 67
/-- The key of a speculative task's wait to become the oldest (R357). -/
def specKey : Nat := 2 ^ 67 + 1
/-- The key of MIGRATE's wait for its acknowledgements (R144). -/
def migrateKey : Nat := 2 ^ 67 + 2
/-- The key of a stroke's wait for its followers' UNGANG (R154). -/
def ungangKey : Nat := 2 ^ 67 + 3
/-- The key of a wait in gang await, with the predicate that the instruction names (R151). -/
def gangKey (q : Nat) : Nat := 2 ^ 67 + 16 + q

/-- Whether a reason parks the thread so that a pending cause ends the park (R445): the park's instruction can
execute again. The reply park of TWAIT is told by its wait. -/
def causeEndsPark (c : Ctx) : Bool :=
  match c.parkReason with
  | 1 => !c.isLimited
  | 2 | 3 | 4 | 7 | 8 => true
  | 9 => c.wait.any fun w => w.key == twaitKey
  | _ => false

/-- A pending park ended by a cause; the instruction will execute again afresh. -/
def unpark (now : Nat) (c : Ctx) : Ctx := { resume now c with wait := none }

/-- An XVAL of which a rule names only the bits of `mask`, here of value `v`: the other bits are free (DESIGN CHOICE, log entry 11). -/
def partXval (mask : Nat) (v : Word) (s : State) : Word := v ||| (Config.unstatedXval s.fresh &&& ~~~word mask)

/-- A REMOTE or ASYNC cause becomes pending in a resident thread, within its four entries (R377), and ends a
park of the first row of R445. -/
def pendIn (a : Actor) (c : Ctx) (p : Pending) (s : State) : State :=
  let core := s.core a.core
  let toRecord (q : Pending) (access : Nat) (s : State) : State :=
    sendRecord (s.kernelOf a.core)
      { plainRecord q.cause (s.recordPart a.core) access c.handle q.xval (dieOf a.core) with frame := q.frame } s
  let isRemote (q : Pending) : Bool := q.cause / 128 == 2
  let ended (c : Ctx) : Ctx :=
    if causeEndsPark c && takeable core c p.cause then unpark s.now c else c
  if c.pend.length < 4 then s.setCtx a (ended { c with pend := c.pend ++ [p] })
  else if isRemote p then toRecord p p.access s
  else
    match (c.pend.reverse).find? isRemote with
    | some q =>
      let kept := (c.pend.reverse.erase q).reverse
      toRecord q q.access (s.setCtx a (ended { c with pend := kept ++ [p] }))
    | none => toRecord p 9 s

/-- A REMOTE or ASYNC cause delivered to the owner of a handle; a record if that thread has ended (R226). -/
def pendCause (handle core : Nat) (p : Pending) (s : State) : State :=
  match s.ownerOf handle with
  | some a => pendIn a (s.ctx a) p s
  | none =>
    sendRecord (s.kernelOf core)
      { plainRecord p.cause (s.recordPart core) p.access handle p.xval (dieOf core) with frame := p.frame } s

/-- Whether a thread waits in a gang reduction, or for the monitor before it joins one: its VRED counts as unexecuted where the
gang breaks (R169). -/
def Ctx.isReducing (c : Ctx) : Bool :=
  decide (c.status = .waiting) && (c.reduction.isSome || match c.current with
    | some (.vfltVred ..) => c.monitored
    | _ => false)

/-- A gang breaks (R155): every follower discards its buffer and stands at the first discarded instruction, or after the last
that it has executed, which is the stroke's next PC (R116); every member leaves; a stroke that did not itself trap receives
GANG_BROKEN, whose XVAL[2:0] is free after a heat switch, which no member causes (DESIGN CHOICE, log entry 11). A member that waits
in a gang reduction has not executed it (R169). A follower that has left by UNGANG keeps what it has since become, and one that waits
for the monitor or for a hub's answer goes on waiting (R176). -/
def breakGang (member : Actor) (reason : Nat) (s : State) : State :=
  match (s.ctx member).gang with
  | none => s
  | some g =>
    let leave (s : State) (m : Actor) : State :=
      s.onCtx m fun c =>
        let c' := leaveGang c
        let c' := if c.isReducing then { c' with status := .running, monitored := false, current := none } else c'
        if m = g.stroke then c'
        else
          { c' with pc := ((c.gang.bind (·.buffer.head?)).map (·.pc)).getD c.pc }
    let here := g.members.filter fun m => (s.ctx m).gang.any fun x => x.stroke == g.stroke
    let s := here.foldl leave s
    if g.stroke = member ∧ reason = 0 then s
    else
      match s.ctx? g.stroke with
      | some c =>
        let xval := if reason = 2 then partXval 0x300 512 s else partXval 0x307 (word (g.index + 256 * reason)) s
        pendIn g.stroke c ⟨causeCode .async .gangBroken, xval, 9, 0⟩ { s with fresh := s.fresh + 1 }
      | none => s

/-- SINGLE_STEP, whose value is unstated (DESIGN CHOICE, log entry 11), becomes pending in a thread whose instruction has
completed with XSTAT.STEP = 1 (R378). -/
def stepTrap (a : Actor) (s : State) : State :=
  match s.ctx? a with
  | some c =>
    if bits c.xstat.toNat 11 1 = 1 ∧ c.isDraining = false then
      pendIn a c ⟨causeCode .async .singleStep, Config.unstatedXval s.fresh, 9, 0⟩ { s with fresh := s.fresh + 1 }
    else s
  | none => s

/-- The core is stopped and the kernel receives a MACHINE_CHECK record (R371, R373). -/
def machineCheck (k : Nat) (handle : Nat) (s : State) : State :=
  notice (s.kernelOf k) (causeCode .async .machineCheck) (s.recordPart k) handle 0 (dieOf k)
    (s.onCore k fun c => { c with stopped := true })

/-- Taking a cause, the one operation behind every trap (R372 to R374): at the thread's own handler, or
forwarded to the kernel with the thread held, whose next turn is 4 cycles or more after this one (R17). `stop` is the stopping
point. -/
def takeCause (a : Actor) (cause : Nat) (xval stop : Word) (s : State) : State :=
  let s := breakGang a 0 s
  let c := { s.ctx a with wait := none, park := 0 }
  let core := s.core a.core
  let snap (s : State) : State :=
    if bits s.plat.snapctl.toNat 9 1 = 1 ∧ bits s.plat.snapctl.toNat 0 9 = cause
    then s.post 0 .snapshotFiring [0, cause, s.spaceOf a.core] else s
  if c.mode ≠ 0 then
    if bits c.xvec.toNat 1 56 = 0 then
      machineCheck a.core c.handle (s.setCtx a { c with pc := stop })
    else
      snap (s.setCtx a (setPriority core (if c.mode = 3 then 11 else 10)
        { enterHandler c cause xval stop with status := .running, readyAt := s.now + 8 }))
  else if delegated core.xdeleg (cause % 128) ∧ bits c.xvec.toNat 1 56 ≠ 0 ∧ c.intrap = false then
    snap (s.setCtx a { enterHandler c cause xval stop with status := .running, readyAt := s.now + 8 })
  else
    let d := dieOf a.core
    let held := { c with
      pc := stop
      xpc := stop
      xcause := BitVec.ofNat 32 cause
      xval := xval
      readyAt := max c.readyAt (s.now + 4)
      status := .held d (s.die d).seq }
    sendRecord (s.kernelOf a.core)
      { plainRecord cause (s.recordPart a.core) 7 c.handle xval d with flags := 1 } (s.setCtx a held)

/-- The acting thread's instruction raises a cause; it has changed nothing (R376). -/
def trap (o : Origin) (r : Reason) (xval : Word) (s : State) : State :=
  takeCause s.actor (causeCode o r) xval s.me.pc s.issued

/-- A cause with origin EXECUTE. -/
def trapE (r : Reason) (xval : Word) (s : State) : State := trap .execute r xval s
/-- A cause with origin ACCESS. -/
def trapA (r : Reason) (xval : Word) (s : State) : State := trap .access r xval s
/-- A cause for which the spec names no value: XVAL is a free value (DESIGN CHOICE, log entry 11). -/
def trapOpen (r : Reason) (s : State) : State :=
  trapE r (Config.unstatedXval s.fresh) { s with fresh := s.fresh + 1 }

/-- A cause for which the spec names a part of XVAL: the rest is a free value (DESIGN CHOICE, log entry 11). -/
def trapPart (r : Reason) (mask : Nat) (v : Word) (s : State) : State :=
  trapE r (partXval mask v s) { s with fresh := s.fresh + 1 }

/-- Whether the acting thread is the stroke of a gang. -/
def isStroke (s : State) : Bool := match s.me.gang with
  | some g => g.stroke == s.actor
  | none => false

/-- A copy of an instruction of the stroke placed in every follower's gang buffer (R153), with the stroke's next PC
and link value (R116). -/
def copyToGang (item : GangItem) (s : State) : State :=
  match s.me.gang with
  | some g => g.members.foldl (fun s m =>
      if m = s.actor then s
      else s.onCtx m fun c => { c with gang := c.gang.map fun x => { x with buffer := x.buffer ++ [item] } }) s
  | none => s

/-- The return from a handler (R381). -/
def returnFromTrap (s : State) : State :=
  let c := s.me
  let t := c.xpc
  if bits t.toNat 57 7 ≠ 0 then trapE .addressNoncanonical t s
  else if t.getLsbD 0 then trapE .fetchMisaligned t s
  else
    let mode := if c.mode ≠ 0 then bits c.xstat.toNat 2 2 else 0
    let c := c.setXstat 0 2 mode
    let c := if mode = 0 then c.setPrioField 4 4 (min c.ceil 9) else c
    let c := setPriority s.here (min (bits c.xstat.toNat 4 4) c.ceil) c
    goTo t 4 (s.setMe (c.setXstat 10 1 0))

end Sys2Proof.Machine
end

