-- ==== Sys2Proof/Machine/Operands.lean ====
section
/-! DEFINITION. The operand forms that instructions share: g registers with the channel operands qin and qout
(R35, R107, R309, R310), register-field checks (R29), local-store addresses with their checks (R179), and the
comparison with engine footprints (R204, R256). -/

namespace Sys2Proof.Machine

/-! ### Channels -/

/-- An inbound channel of a core. -/
def Core.chan (c : Core) (u : Nat) : Channel := (Tbl.get? c.chans u).getD Channel.reset
/-- The core with an inbound channel replaced. -/
def Core.setChan (c : Core) (u : Nat) (ch : Channel) : Core := { c with chans := Tbl.put c.chans u ch }
/-- The credits that a core holds for an outbound direction (R310). -/
def Core.creditsLeft (c : Core) (v : Nat) : Nat := 64 - Map.get 0 c.credits v

/-- EFF of every context of a core brought up to date (R311). -/
def refreshEff (k : Nat) (s : State) : State :=
  s.onCore k fun core => core.mapCtx fun _ c => refreshed core c

/-- The producers that THROTTLE descheduled: parked on the channel, waiting for nothing else. -/
def isThrottled (v : Nat) (c : Ctx) : Bool :=
  c.parkReason == 4 && bits c.park.toNat 8 24 == 4 + v && c.throttled

/-- THROTTLE of inbound channel `u` cleared where DEPTH has fallen below LO; its producers' parks end (R311). -/
def clearThrottle (k u : Nat) (s : State) : State :=
  let core := s.core k
  let ch := core.chan u
  if ch.throttle && decide (ch.values.length < ch.lo) then
    let s := refreshEff k (s.setCore k (core.setChan u { ch with throttle := false }))
    match neighbour k u with
    | some p => s.onCore p fun pc => pc.mapCtx fun _ c => if isThrottled (opposite u) c then resume s.now c else c
    | none => s
  else s

/-- One value popped from inbound channel `u`, with the EFF of what pops it; its credit travels back to the producing core (R132,
R310). -/
def popValue (k u eff : Nat) (s : State) : State :=
  let core := s.core k
  let ch := core.chan u
  let s := clearThrottle k u (s.setCore k (core.setChan u { ch with values := ch.values.tail }))
  match neighbour k u with
  | some p => s.sendAt eff .channel k p 0 (.credit (opposite u)) .channelCreditReturn
  | none => s

/-- `n` values popped from inbound channel `u`. -/
def popValues (k u eff : Nat) : Nat → State → State
  | 0, s => s
  | n + 1, s => popValues k u eff n (popValue k u eff s)

/-- A value pushed toward direction `v`, with the EFF of what pushes it: a credit is spent and the value travels to the neighbour
(R132, R308, R310). -/
def pushValue (k v eff : Nat) (x : Word) (s : State) : State :=
  let core := s.core k
  let s := s.setCore k { core with credits := Map.set 0 core.credits v (Map.get 0 core.credits v + 1) }
  match neighbour k v with
  | some n => s.sendAt eff .channel k n 0 (.push (opposite v) x) .channelPushArrival
  | none => s

/-- The key of a wait to pop channel `u`. -/
def popKey (u : Nat) : Nat := 2 ^ 66 + u
/-- The key of a wait to push toward `v`. -/
def pushKey (v : Nat) : Nat := 2 ^ 66 + 8 + v

/-- Whether thread `t` may re-test what `key` names: no woken thread whose first attempt was earlier, live or on its way back
from the wings, still has its re-test to make (R190, R310). -/
def mayTest (core : Core) (t : Nat) (sameWait : Nat → Bool) (mine : Option Nat) : Bool :=
  !core.threads.any fun e =>
    e.1 != t && decide (e.2.status = .running) && match e.2.wait with
      | some w => w.retest && sameWait w.key && (match mine with
        | some a => decide (w.attempt < a)
        | none => true)
      | none => false

/-- The attempt number of the acting thread's wait on `key`, if it already waits on it. -/
def attemptOf (c : Ctx) (key : Nat) : Option Nat :=
  match c.wait with
  | some w => if w.key = key then some w.attempt else none
  | none => none

/-- A thread that parks on a channel is looked at again after 2^20 cycles (R312). -/
def watchDeadlock (s : State) : State :=
  (s.onMe fun c => { c with timeoutAt := some (s.now + 2 ^ 20) }).post (2 ^ 20) .channelDeadlock
    [s.actor.core, s.actor.thread]

/-- The acting thread parks on `key`; a first attempt takes its place in the order (R189, R310). -/
def parkOn (reason arg key : Nat) (s : State) : State :=
  let (w, s) : WaitState × State := match s.me.wait with
    | some w =>
      if w.key = key then
        ({ w with retest := false, byWake := false, wakes := if w.byWake then 0 else w.wakes }, s)
      else ({ key := key, attempt := s.ids, wakes := 0, retest := false, byWake := false, limited := false }, s.newId.2)
    | none => ({ key := key, attempt := s.ids, wakes := 0, retest := false, byWake := false, limited := false }, s.newId.2)
  let s := (parkAt reason arg s).onMe fun c => { c with wait := some w }
  if reason = 4 then watchDeadlock s else s

/-! ### Operands from g registers, qin and qout -/

/-- How many values the read fields pop. -/
def popsOf (c : Ctx) (reads : List Nat) : Nat := if c.bound then reads.count 28 else 0

/-! ### Speculative tasks (R346, R357) -/

/-- Whether a task is earlier than another (R346). -/
def isEarlier (a b : Task) : Bool := decide (a.ts < b.ts) || (a.ts == b.ts && decide (a.posted < b.posted))

/-- The oldest uncommitted task of a partition: its record entry (R346). -/
def oldestTask (tasks : Tbl Task) (part : Nat) : Option Nat :=
  (tasks.foldl (fun best e => if e.2.part ≠ part then best else match best with
    | none => some e
    | some b => if isEarlier e.2 b.2 then some e else some b) none).map (·.1)

/-- The record entry that a ticket names (R346). -/
def ticketEntry (ticket : Nat) : Nat := ticket % 8192

/-- Whether a thread runs a task that is not the oldest of its partition. -/
def State.isSpeculative (s : State) (c : Ctx) : Bool :=
  match c.ticket with
  | some tk => match Tbl.get? s.hub.tasks (ticketEntry tk) with
    | some t => oldestTask s.hub.tasks t.part != some (ticketEntry tk)
    | none => false
  | none => false

/-- An instruction of the first group of R357: in a speculative task it parks until the task is the oldest. -/
def specPark (go : State → State) (s : State) : State :=
  if s.isSpeculative s.me then parkOn 9 0 specKey s else go s

/-- An instruction of the second group of R357. -/
def specForbid (go : State → State) (s : State) : State :=
  if s.isSpeculative s.me then trapOpen .taskSpeculativeForbidden s else go s

/-- Why an instruction with these read and written g fields does not execute now, if it does not: a field that its
bound channels do not allow (R35, R309), a value not yet there, or no credit (R107, R310). In a speculative task every
pop and push waits until the task is the oldest (R357). -/
def operandStop (reads writes : List Nat) (s : State) : Option State :=
  let c := s.me
  if !c.bound then none
  else if reads.contains 29 || writes.contains 28 then some (trapOpen .registerInvalid s)
  else if (reads.contains 28 && c.bindU == 4) || (writes.contains 29 && c.bindV == 4) then
    some (trapOpen .channelUnbound s)
  else
    let core := s.here
    let t := s.actor.thread
    let ch := core.chan c.bindU
    let n := popsOf c reads
    let free := ch.reserved == some t || mayTest core t (· == popKey c.bindU) (attemptOf c (popKey c.bindU))
    if (0 < n || writes.contains 29) && s.isSpeculative c then some (parkOn 9 0 specKey s)
    else if 0 < n && (decide (ch.values.length < n) || !free || (ch.reserved.isSome && ch.reserved != some t)) then
      some (if decide (n ≤ ch.values.length) && !free then stall s else parkOn 4 c.bindU (popKey c.bindU) s)
    else if writes.contains 29 then
      let free := mayTest core t (· == pushKey c.bindV) (attemptOf c (pushKey c.bindV))
      if core.creditsLeft c.bindV < writes.count 29 then some (parkOn 4 (4 + c.bindV) (pushKey c.bindV) s)
      else if !free then some (stall s)
      else none
    else none

/-- The values of read fields, popped values in field order (R107). -/
def takeReads (c : Ctx) : List Word → List Nat → List Word
  | _, [] => []
  | vals, r :: rs =>
    if c.bound && r == 28 then vals.headD 0 :: takeReads c vals.tail rs else c.rg r :: takeReads c vals rs

/-- The operand values that an instruction reads; nothing is popped yet. -/
def operands (reads : List Nat) (s : State) : List Word :=
  takeReads s.me (s.here.chan s.me.bindU).values reads

/-- The values that the read fields name are popped. -/
def popReads (reads : List Nat) (s : State) : State := popValues s.actor.core s.me.bindU s.me.eff (popsOf s.me reads) s

/-- A result written to a g field; qout pushes it downstream. -/
def writeReg (d : Nat) (x : Word) (s : State) : State :=
  if s.me.bound && d == 29 then pushValue s.actor.core s.me.bindV s.me.eff x s else s.onMe (·.wg d x)

/-- A parking instruction whose result will go to qout spends the credit of its push at issue (R310). -/
def spendOut (d : Nat) (s : State) : State :=
  if s.me.bound && d == 29 then
    let v := s.me.bindV
    s.setHere { s.here with credits := Map.set 0 s.here.credits v (Map.get 0 s.here.credits v + 1) }
  else s

/-- The credit that `spendOut` spent given back: nothing will be pushed. -/
def refundOut (a : Actor) (d : Nat) (s : State) : State :=
  let c := s.ctx a
  if c.bound && d == 29 then
    s.onCore a.core fun core =>
      { core with credits := Map.set 0 core.credits c.bindV (Map.get 0 core.credits c.bindV - 1) }
  else s
/-- The result of a parking instruction reaches its thread: written to the g field, or pushed downstream. A thread that
is ending pushes nothing. -/
def deliver (a : Actor) (d : Nat) (x : Word) (s : State) : State :=
  let c := s.ctx a
  if c.isDraining then refundOut a d s
  else if c.bound && d == 29 then pushValue a.core c.bindV c.eff x (refundOut a d s)
  else s.onCtx a (·.wg d x)

/-- An instruction with g operands: it waits or traps as its fields require, else goes on with their values. -/
def withOperands (reads writes : List Nat) (go : List Word → State → State) (s : State) : State :=
  match operandStop reads writes s with
  | some t => t
  | none => go (operands reads s) s

/-- A register-to-register instruction: pop, compute, write, in one turn. -/
def compute (len occ : Nat) (reads : List Nat) (d : Nat) (f : List Word → Word) (s : State) : State :=
  withOperands reads [d] (fun x s => retire len occ (writeReg d (f x) (popReads reads s))) s

/-! ### Register-field checks (R29) -/

/-- The field checks of R29 hold, or REGISTER_INVALID is raised. -/
def checkRegs (ok : Bool) (go : State → State) (s : State) : State := if ok then go s else trapOpen .registerInvalid s

/-- A field that names a vector register. -/
def isV (r : Nat) : Bool := decide (r < 16)
/-- A field that names a predicate to be written. -/
def isPq (q : Nat) : Bool := q != 0
/-- A field that names an even register of a pair. -/
def isEven (r : Nat) : Bool := r % 2 == 0

/-! ### Footprints (R202 to R204, R256) -/

/-- Whether a set of rows shares a byte with bytes `x` to `x + n - 1`. -/
def Bytes.overlaps (b : Bytes) (x n : Nat) : Bool :=
  if n = 0 ∨ b.rows = 0 ∨ b.rowLen = 0 ∨ x + n ≤ b.base then false
  else
    let r := min (b.rows - 1) ((x + n - 1 - b.base) / b.pitch)
    decide (x < b.base + r * b.pitch + b.rowLen)

/-- Whether two sets of rows share a byte. -/
def Bytes.meets (a b : Bytes) : Bool :=
  (List.range a.rows).any fun r => b.overlaps (a.base + r * a.pitch) a.rowLen

/-- A run of bytes. -/
def run (x n : Nat) : Bytes where
  base := x
  rowLen := n
  pitch := 0
  rows := 1

/-- Whether a local access waits for a footprint: a load for the write parts, a store for both parts (R204). -/
def awaits (core : Core) (loads stores : List Bytes) : Bool :=
  core.prints.any fun f =>
    let w := if f.writeDone then [] else f.writes
    let r := if f.readDone then [] else f.reads
    loads.any (fun b => w.any b.meets) || stores.any (fun b => w.any b.meets || r.any b.meets)

/-- Whether an engine instruction with these parts must wait: an overlap, or 32 footprints in flight (R202, R256). -/
def engineWaits (core : Core) (reads writes : List Bytes) : Bool :=
  decide (32 ≤ core.prints.length) || awaits core reads writes

/-- A footprint entered into the core's hazard unit (R202). -/
def enterFootprint (k id owner : Nat) (reads writes : List Bytes) (tile : Bool) (s : State) : State :=
  s.onCore k fun core => { core with prints := core.prints ++
    [{ id := id, owner := owner, reads := reads, writes := writes, readDone := false, writeDone := false, tile := tile }] }

/-- A footprint's parts marked as done; the step that retires them is due. -/
def finishFootprint (k id : Nat) (read write : Bool) (s : State) : State :=
  (s.onCore k fun core => { core with prints := core.prints.map fun f =>
    if f.id = id then { f with readDone := f.readDone || read, writeDone := f.writeDone || write } else f }).post 0
    .footprintRetire [k, id]

/-! ### Local accesses -/

/-- The limit check of R179, then the alignment check, of an access of `n` bytes aligned to `al`. -/
def checkLs (x n al : Nat) (misaligned : State → State) (go : State → State) (s : State) : State :=
  if lsLimit s.actor.core < x + n then trapA .lsRange (word x) s
  else if x % al ≠ 0 then misaligned s
  else go s

/-- LS_MISALIGNED (ACCESS) at `x`. -/
def lsMisaligned (x : Nat) (s : State) : State := trapA .lsMisaligned (word x) s

/-- The instruction goes on once no footprint overlaps its access (R204). -/
def awaitPrints (loads stores : List Bytes) (go : State → State) (s : State) : State :=
  if awaits s.here loads stores then stall s else go s

/-- The instruction goes on if the words of its access are readable, else raises LS_UNCORRECTABLE (R183). -/
def checkEcc (x n : Nat) (go : State → State) (s : State) : State :=
  match s.here.badWord x n with
  | some w => trapA .lsUncorrectable (word w) s
  | none => go s

/-- Words of a core whose single-bit errors a read corrects: counted, their write-backs due (R183). -/
def correctWords (k : Nat) (ws : List Nat) (s : State) : State :=
  ws.foldl (fun s w => s.post 0 .lsCorrectedWriteback [k, w])
    (if ws.isEmpty then s else s.onCore k fun c => { c with corrected := c.corrected + ws.length })

/-- The single-bit errors that a read of `n` bytes at `x` corrects (R183). -/
def correctSingles (k x n : Nat) (s : State) : State :=
  correctWords k ((wordsOf x n).filter fun w => (s.core k).lsSingle.contains w) s

end Sys2Proof.Machine
end

