-- ==== Sys2Proof/Machine/LocalStore.lean ====
section
/-! DEFINITION. The local-store class (chapter 08): plain and vector accesses, full/empty words, local atomics. -/

namespace Sys2Proof.Machine

/-! ### Watchpoints (R393) -/

/-- Whether a watchpoint of the core covers an access. -/
def watchHit (core : Core) (x n : Nat) (load store : Bool) : Bool :=
  [0, 1].any fun i =>
    let w := (Map.get 0 core.wps i).toNat
    let kind := bits w 21 2
    let base := bits w 0 21
    let size := 2 ^ bits w 23 5
    ((load && kind % 2 == 1) || (store && 2 ≤ kind)) && decide (x < base + size) && decide (base < x + n)

/-- The first watched access raises WATCHPOINT, or halts the thread at the instruction (R393). -/
def checkWatch (xs : List (Nat × Nat)) (load store : Bool) (go : State → State) (s : State) : State :=
  match xs.find? fun e => watchHit s.here e.1 e.2 load store with
  | some e =>
    if s.here.dbgCtl.getLsbD 1 then s.onMe fun c => { c with halted := true }
    else trapA .watchpoint (word e.1) s
  | none => go s

/-! ### LD, ST and their 16-bit forms (R185) -/

/-- A plain load of width code `w` at g[a] + `off` (R25, R185). -/
def load (len d a w : Nat) (off : Word) (s : State) : State :=
  withOperands [a] [d] (fun v s =>
    let x := (v.getD 0 0 + off).toNat
    let n := 2 ^ (w % 4)
    checkLs x n n (lsMisaligned x) (checkWatch [(x, n)] true false (awaitPrints [run x n] [] (checkEcc x n fun s =>
      let val := s.here.lsRead x n
      let r := if w ≤ 3 then sext64 (8 * n) val else word val
      retire len 4 (writeReg d r (popReads [a] (correctSingles s.actor.core x n s)))))) s) s

/-- A plain store of width code `w` at g[a] + `off`; word states are unchanged (R185). -/
def store (len d a w : Nat) (off : Word) (s : State) : State :=
  withOperands [a, d] [] (fun v s =>
    let x := (v.getD 0 0 + off).toNat
    let n := 2 ^ w
    checkLs x n n (lsMisaligned x) (checkWatch [(x, n)] false true (awaitPrints [] [run x n] (checkEcc x n fun s =>
      let s := correctSingles s.actor.core x n s
      retire len 4 (popReads [a, d] (s.setHere (s.here.lsWrite x n (v.getD 1 0).toNat)))))) s) s

/-- LD (R185). -/
def execLd (d a w o : Nat) (s : State) : Result := .next (load 4 d a w (sext64 13 o) s)
/-- ST (R185). -/
def execSt (d a w o : Nat) (s : State) : Result := .next (store 4 d a w (sext64 13 o) s)
/-- C.LW: LD gd, 0(gs), w = 2 (R27). -/
def execCLw (d src : Nat) (s : State) : Result := .next (load 2 d src 2 0 s)
/-- C.SW: ST gd, 0(gs), w = 2 (R27). -/
def execCSw (d src : Nat) (s : State) : Result := .next (store 2 d src 2 0 s)

/-! ### Vector elements (R82, R159, R160) -/

/-- The width in bytes of the elements of a type code below 15. -/
def typeWidth (t : Nat) : Nat := if t < 8 then 2 ^ (t % 4) else [8, 4, 2, 2, 1, 1, 1].getD (t - 8) 1

/-- Element `j` of width `w`. -/
def elemOf (v : W256) (w j : Nat) : Nat := bits v.toNat (8 * w * j) (8 * w)
/-- A register with element `j` of width `w` replaced. -/
def setElem (v : W256) (w j x : Nat) : W256 := BitVec.ofNat 256 (setBits v.toNat (8 * w * j) (8 * w) x)
/-- Whether element `j` is active under a predicate (R160). -/
def activeIn (p : W32) (w j : Nat) : Bool := p.getLsbD (j * w)
/-- The active elements of a register, ascending. -/
def activeElems (p : W32) (w : Nat) : List Nat := (List.range (32 / w)).filter (activeIn p w)

/-! ### Vector accesses (R186, R187) -/

/-- The first failing check of the active elements' accesses, ascending (R187). -/
def vecFail (lim w : Nat) : List Nat → Option (Reason × Nat)
  | [] => none
  | x :: xs =>
    if lim < x + w then some (.lsRange, x) else if x % w ≠ 0 then some (.lsMisaligned, x) else vecFail lim w xs

/-- The greatest number of distinct bank rows touched in any one bank, at least 1 (R200). -/
def bankRows (xs : List Nat) : Nat :=
  let rows := (xs.map (· / 8)).eraseDups
  (List.range 16).foldl (fun m b => max m (rows.countP fun r => r % 16 == b)) 1

/-- A vector access over the active elements at `xs`, with its checks (R187); `go` performs it. -/
def vecAccess (w : Nat) (xs : List Nat) (isStore : Bool) (go : State → State) (s : State) : State :=
  match vecFail (lsLimit s.actor.core) w xs with
  | some (r, x) => trapA r (word x) s
  | none =>
    checkWatch (xs.map fun x => (x, w)) (!isStore) isStore
      (awaitPrints (if isStore then [] else xs.map (run · w)) (if isStore then xs.map (run · w) else [])
        fun s =>
          match xs.findSome? (s.here.badWord · w) with
          | some b => trapA .lsUncorrectable (word b) s
          | none => go (xs.foldl (fun s x => correctSingles s.actor.core x w s) s)) s

/-- A vector load: element `j` of vd from `addr j`, all reads first (R187). A type that no element has stops it before what
R35 says of g28 and g29 does, an order that the spec does not give (DESIGN CHOICE, log entry 43). -/
def vecLoad (d t q : Nat) (reads : List Nat) (rowed : Bool) (addr : List Word → W256 → Nat → Nat)
    (idx : Nat) (s : State) : State :=
  checkRegs (isV d && isV idx) (fun s =>
    if t = 15 then trapOpen .formatUnsupported s
    else withOperands reads [] (fun v s =>
      let w := typeWidth t
      let js := activeElems (s.me.rp q) w
      let at_ := fun j => addr v (s.me.rv idx) j % 2 ^ 64
      let xs := js.map at_
      vecAccess w xs false (fun s =>
        let vd := js.foldl (fun r j => setElem r w j (s.here.lsRead (at_ j) w)) (s.me.rv d)
        retire 4 (if rowed then 4 + bankRows xs - 1 else 4) ((popReads reads s).onMe (·.wv d vd))) s) s) s

/-- A vector store: element `j` of vs to `addr j`, ascending (R187). -/
def vecStore (d t q : Nat) (reads : List Nat) (rowed : Bool) (addr : List Word → W256 → Nat → Nat)
    (idx : Nat) (s : State) : State :=
  checkRegs (isV d && isV idx) (fun s =>
    if t = 15 then trapOpen .formatUnsupported s
    else withOperands reads [] (fun v s =>
      let w := typeWidth t
      let js := activeElems (s.me.rp q) w
      let at_ := fun j => addr v (s.me.rv idx) j % 2 ^ 64
      let xs := js.map at_
      let vs := s.me.rv d
      vecAccess w xs true (fun s =>
        let core := js.foldl (fun c j => c.lsWrite (at_ j) w (elemOf vs w j)) s.here
        retire 4 (if rowed then 4 + bankRows xs - 1 else 4) (popReads reads (s.setHere core))) s) s) s

/-- Base plus offset plus j × w (R186). -/
def addrUnit (t : Nat) (v : List Word) (_ : W256) (j : Nat) : Nat :=
  (v.getD 0 0).toNat + (v.getD 1 0).toNat + j * typeWidth t
/-- Base plus j times the signed stride. -/
def addrStride (v : List Word) (_ : W256) (j : Nat) : Nat :=
  (((v.getD 0 0).toNat : Int) + j * (v.getD 1 0).toInt).emod (2 ^ 64) |>.toNat
/-- Base plus w times the natural index. -/
def addrIndex (t : Nat) (v : List Word) (idx : W256) (j : Nat) : Nat :=
  (v.getD 0 0).toNat + typeWidth t * elemOf idx (typeWidth t) j

/-- VLD (R186). -/
def execVld (d a b t q : Nat) (s : State) : Result := .next (vecLoad d t q [a, b] false (addrUnit t) 0 s)
/-- VST (R186). -/
def execVst (d a b t q : Nat) (s : State) : Result := .next (vecStore d t q [a, b] false (addrUnit t) 0 s)
/-- VLDS (R186). -/
def execVlds (d a b t q : Nat) (s : State) : Result := .next (vecLoad d t q [a, b] true addrStride 0 s)
/-- VLDX (R186). -/
def execVldx (d a b t q : Nat) (s : State) : Result := .next (vecLoad d t q [a] true (addrIndex t) b s)
/-- VSTX (R186). -/
def execVstx (d a b t q : Nat) (s : State) : Result := .next (vecStore d t q [a] true (addrIndex t) b s)

/-! ### Full/empty words (R188 to R197) -/

/-- Whether a thread may be put into the wings (R131, R192). -/
def wingsEligible (core : Core) (t : Nat) (c : Ctx) : Bool :=
  t != 0 && c.gang.isNone && c.mode == 0 &&
    !(c.spawner.isNone && c.role.isNone && c.ticket.isNone && core.launch.any (·.coresident))

/-- How many threads are in the wings or on their way there. -/
def wingsCount (core : Core) : Nat :=
  core.threads.countP fun e => match e.2.place with
    | .wings _ => true
    | .moving none _ => true
    | _ => false

/-- Whether a move through the port is in progress. -/
def Core.isMoving (c : Core) : Bool := c.threads.any fun e => match e.2.place with
  | .moving _ _ => true
  | _ => false

/-- A thread starts its move, to a slot or out to the wings; the port is taken for 16 cycles (R130). -/
def startMove (a : Actor) (dest : Option Nat) (s : State) : State :=
  let start := max s.now (s.core a.core).portBusy
  let s := s.onCore a.core fun c => { c with portBusy := start + 16 }
  (s.onCtx a fun c => { c with place := .moving dest (start + 16) }).post (start + 16 - s.now)
    .wingsMoveDone [a.core, a.thread]

/-- LimitReached (R192): a trap, or in one step empty-watched words, a watch entry and the waiter out of its slot, on its way to
the wings through the port (R130). -/
def limitReached (x n : Nat) (isStore : Bool) (s : State) : State :=
  let core := s.here
  let c := s.me
  if isStore || c.felim.getLsbD 16 || decide (16 ≤ core.watch.length) || decide (48 ≤ wingsCount core)
      || !wingsEligible core s.actor.thread c then
    trapE .feWaitLimit (word x) (s.setMe { c with wait := none })
  else
    let s := parkOn 1 (x % 2 ^ 24) (feKey x n) s
    let core := s.here
    let st := (wordsOf x n).foldl (fun m w => if Map.get 1 m w = (0 : BitVec 2) then Map.set 1 m w 2 else m) core.lsState
    let s := s.setHere { core with lsState := st, watch := core.watch ++ [⟨x, c.handle⟩] }
    startMove s.actor none (s.onMe fun c => { c with wait := c.wait.map fun w => { w with limited := true } })

/-- Whether a watch entry is for word `w`: its address is the word's, or its waiter waits on the pair whose second
word it is. (DEDUCED, log entry 23.) -/
def watchFor (core : Core) (w : Nat) (e : Watch) : Bool :=
  e.addr == 4 * w || (e.addr + 4 == 4 * w && core.threads.any fun t =>
    t.2.handle == e.handle && t.2.wait.any fun x => x.key == feKey e.addr 8)

/-- The checks of a synchronising access, a load or a store, then its act (R189, R393). `fresh` says that the whole word and
state are replaced, so that no contents are needed. -/
def syncAccess (x n : Nat) (isStore fresh : Bool) (go : State → State) (s : State) : State :=
  checkLs x n n (lsMisaligned x) (checkWatch [(x, n)] (!isStore) isStore (awaitPrints [run x n] [run x n]
    (if fresh then go else checkEcc x n fun s => go (correctSingles s.actor.core x n s)))) s

/-- An access that waits for its words' states: it proceeds, or parks, or reaches the limit (R189, R192). A woken one re-tests in
its turn (R190), a first attempt at once. -/
def syncWait (x n : Nat) (isStore : Bool) (ready : BitVec 2 → Bool) (go : State → State) (s : State) : State :=
  let core := s.here
  let key := feKey x n
  let c := s.me
  let attempt := attemptOf c key
  if attempt.isSome && !mayTest core s.actor.thread (fun k => (feWords k).any fun w => (wordsOf x n).contains w) attempt then
    stall s
  else if (wordsOf x n).all fun w => ready (core.wordState w) then go s
  else
    let (wakes, byWake) := match c.wait with
      | some w => if w.key = key then (w.wakes, w.byWake) else (0, false)
      | none => (0, false)
    if !byWake && wakes == bits c.felim.toNat 0 16 then limitReached x n isStore s
    else parkOn 1 (x % 2 ^ 24) key s

/-- The width in bytes that q gives (R188). -/
def widthOf (q : Nat) : Nat := if q % 4 = 3 then 8 else 4

/-- LDFE and LDF: load when full; `st` is the state afterwards. -/
def loadFull (d a q : Nat) (st : BitVec 2) (s : State) : State :=
  withOperands [a] [d] (fun v s =>
    let x := (v.getD 0 0).toNat
    let n := widthOf q
    syncAccess x n false false (syncWait x n false (· == 1) fun s =>
      let val := sext64 (8 * n) (s.here.lsRead x n)
      retire 4 4 (writeReg d val (popReads [a] (setStates s.actor.core (wordsOf x n) st s)))) s) s

/-- A store that sets its words full: the value, the state, and FE_WATCHED_WRITE where a word was empty-watched
(R194). `value` none leaves the value. -/
def storeFull (x n : Nat) (value : Option Nat) (pops : List Nat) (s : State) : State :=
  let core := s.here
  let ws := wordsOf x n
  let watched := ws.any fun w => core.wordState w == 2
  let core := match value with
    | some v => { core.lsWrite x n v with
        lsBad := core.lsBad.filter fun w => !ws.contains w
        lsSingle := core.lsSingle.filter fun w => !ws.contains w
        lsHealed := core.lsHealed ++ core.lsBad.filter fun w => ws.contains w }
    | none => core
  let s := setStates s.actor.core ws 1 (s.setHere core)
  let s := retire 4 4 (popReads pops s)
  if watched then takeCause s.actor (causeCode .execute .feWatchedWrite) (word x) s.me.pc s else s

/-- STFE and STF. -/
def storeSync (d a q : Nat) (waits : Bool) (s : State) : State :=
  withOperands [a, d] [] (fun v s =>
    let x := (v.getD 0 0).toNat
    let n := widthOf q
    let act := storeFull x n (some (v.getD 1 0).toNat) [a, d]
    syncAccess x n true (!waits) (if waits then syncWait x n true isEmptyCode act else act) s) s

/-- LDFE (R188). -/
def execLdfe (d a q : Nat) (s : State) : Result := .next (loadFull d a q 0 s)
/-- LDF (R188). -/
def execLdf (d a q : Nat) (s : State) : Result := .next (loadFull d a q 1 s)
/-- STFE (R188). -/
def execStfe (d a q : Nat) (s : State) : Result := .next (storeSync d a q true s)
/-- STF (R188). -/
def execStf (d a q : Nat) (s : State) : Result := .next (storeSync d a q false s)

/-- FESET (R188, R194): st = 0 leaves an empty-watched word as it is. -/
def execFeset (a st q : Nat) (s : State) : Result :=
  .next (withOperands [a] [] (fun v s =>
    let x := (v.getD 0 0).toNat
    let n := widthOf q
    if 2 ≤ st then trapE .feStateInvalid (word x) s
    else syncAccess x n true false (fun s =>
      if st = 1 then storeFull x n none [a] s
      else
        let ws := (wordsOf x n).filter fun w => s.here.wordState w != 2
        retire 4 4 (popReads [a] (setStates s.actor.core ws 0 s))) s) s)

/-- FEQ (R196). -/
def execFeq (d a : Nat) (s : State) : Result :=
  .next (withOperands [a] [d] (fun v s =>
    let x := (v.getD 0 0).toNat
    syncAccess x 4 false false (fun s =>
      retire 4 4 (writeReg d (word (s.here.wordState (x / 4)).toNat) (popReads [a] s))) s) s)

/-- FEQ.TAKE (R197): the oldest watch entry of the word, marked in bit 63. -/
def execFeqTake (d a : Nat) (s : State) : Result :=
  .next (withOperands [a] [d] (fun v s =>
    let x := (v.getD 0 0).toNat
    syncAccess x 4 false false (fun s =>
      let core := s.here
      match core.watch.find? (watchFor core (x / 4)) with
      | some e =>
        let s := s.setHere { core with watch := core.watch.erase e }
        retire 4 4 (writeReg d (word (2 ^ 63 + e.handle)) (popReads [a] s))
      | none => retire 4 4 (writeReg d 0 (popReads [a] s))) s) s)

/-! ### Local atomics (R199) -/

/-- The atomic operations, in the order of their fn values from ADD to SWAP, at a width of `n` bytes. -/
def atomicOp (op n old b : Nat) : Nat :=
  let w := 8 * n
  match op with
  | 0 => (old + b) % 2 ^ w
  | 1 => old &&& b
  | 2 => old ||| b
  | 3 => old ^^^ b
  | 4 => if signedNat w old < signedNat w b then old else b
  | 5 => if signedNat w old < signedNat w b then b else old
  | 6 => Nat.min old b
  | 7 => Nat.max old b
  | _ => b

/-- AMO and CAS at the bank, as one operation; `f` gives the new value from the old. -/
def localAtomic (d q : Nat) (reads : List Nat) (f : Nat → Nat → Nat → Nat) (s : State) : State :=
  withOperands reads [d] (fun v s =>
    let x := (v.getD 0 0).toNat
    let n := widthOf q
    checkLs x n n (trapA .amoMisaligned (word x)) (checkWatch [(x, n)] true true
      (awaitPrints [run x n] [run x n] (checkEcc x n fun s =>
        let old := s.here.lsRead x n
        let new := f old ((v.getD 1 0).toNat % 2 ^ (8 * n)) ((v.getD 2 0).toNat % 2 ^ (8 * n))
        let s := correctSingles s.actor.core x n s
        let s := s.setHere (s.here.lsWrite x n new)
        retire 4 8 (writeReg d (sext64 (8 * n) old) (popReads reads s))))) s) s

/-- AMO.op (R199). -/
def amo (op d a b q : Nat) (s : State) : State :=
  localAtomic d q [a, b] (fun old b _ => atomicOp op (widthOf q) old b) s

/-- CAS (R199): g[d] is the expected value. -/
def execCas (d a b q : Nat) (s : State) : Result :=
  .next (localAtomic d q [a, b, d] (fun old b expected => if old = expected then b else old) s)
/-- AMO.ADD (R199). -/
def execAmoAdd (d a b q : Nat) (s : State) : Result := .next (amo 0 d a b q s)
/-- AMO.AND (R199). -/
def execAmoAnd (d a b q : Nat) (s : State) : Result := .next (amo 1 d a b q s)
/-- AMO.OR (R199). -/
def execAmoOr (d a b q : Nat) (s : State) : Result := .next (amo 2 d a b q s)
/-- AMO.XOR (R199). -/
def execAmoXor (d a b q : Nat) (s : State) : Result := .next (amo 3 d a b q s)
/-- AMO.MIN (R199). -/
def execAmoMin (d a b q : Nat) (s : State) : Result := .next (amo 4 d a b q s)
/-- AMO.MAX (R199). -/
def execAmoMax (d a b q : Nat) (s : State) : Result := .next (amo 5 d a b q s)
/-- AMO.MINN (R199). -/
def execAmoMinn (d a b q : Nat) (s : State) : Result := .next (amo 6 d a b q s)
/-- AMO.MAXN (R199). -/
def execAmoMaxn (d a b q : Nat) (s : State) : Result := .next (amo 7 d a b q s)
/-- AMO.SWAP (R199). -/
def execAmoSwap (d a b q : Nat) (s : State) : Result := .next (amo 8 d a b q s)

/-! ### Device steps on the local store -/

/-- Whether a thread of a retired core has still to stop: it has not, and is in no drain of its end. -/
def mustRetire (k : Nat) (c : Ctx) : Bool := !c.isDraining && decide (c.status ≠ .held (dieOf k) 65536)

/-- A thread of a retired core stops, once it has reached an instruction boundary (R184). No reply resumes it: sequence
65,536 is none. -/
def retireThread (a : Actor) (s : State) : State :=
  if mustRetire a.core (s.ctx a) && hasReached s a (s.ctx a) then
    let val := Config.unstatedXval s.fresh
    let s := breakGang a 0 { s with fresh := s.fresh + 1 }
    s.onCtx a fun c => { c with
      xpc := c.pc
      xcause := BitVec.ofNat 32 (causeCode .async .lsRetired)
      xval := val
      status := .held (dieOf a.core) 65536 }
  else s

/-- The Cox retires a core's local store (R184): each resident thread stops at its next boundary with LS_RETIRED and issues
nothing further; one record, with the address of word `w` that failed, goes to the kernel (DEDUCED, log entry 12). -/
def retireStore (k w : Nat) (s : State) : State :=
  let core := s.core k
  let s := core.threads.foldl (fun s e => retireThread ⟨k, e.1⟩ s) (s.onCore k fun c => { c with retired := true })
  let s := if (s.core k).threads.any fun e => mustRetire k e.2 then s.post 1 .lsCorrectedWriteback [k, w] else s
  if core.retired then s
  else
    let s := sendRecord (s.kernelOf k) (plainRecord (causeCode .async .lsRetired) (s.recordPart k) 6 0 (word (4 * w)) (dieOf k)) s
    if isHub k then s else s.post 0 .coreRemap [k]

/-- LS_CORRECTED_WRITEBACK (R183, R184): the corrected word is written back, which heals it; a word that has failed again after a
healing write retires the local store, whose threads this step stops until each has stopped (DEDUCED, log entry 12). -/
def execLsCorrectedWriteback (s : State) : Result :=
  let k := s.arg 0
  let w := s.arg 1
  let core := s.core k
  let again := core.lsSingle.contains w && core.lsHealed.contains w
  let s := s.onCore k fun c => { c with
    lsSingle := c.lsSingle.filter (· != w)
    lsHealed := if c.lsSingle.contains w then w :: c.lsHealed else c.lsHealed }
  .next (if core.retired || again then retireStore k w s else s)

/-- LOCAL_STORE_ECC_ERROR (R183, R184): kind 0 is a single-bit error, which the next read finds, else the error is
uncorrectable. A word that fails again after a healing write retires the local store. -/
def execLocalStoreEccError (s : State) : Result :=
  let k := s.arg 0
  let w := s.arg 1
  let core := s.core k
  if s.arg 2 = 0 then .next (s.setCore k { core with lsSingle := (w :: core.lsSingle).eraseDups })
  else
    let s := s.setCore k { core with lsBad := (w :: core.lsBad).eraseDups }
    .next (if core.lsHealed.contains w then retireStore k w s else s)

end Sys2Proof.Machine
end

