-- ==== Sys2Proof/Machine/Life.lean ====
section
/-! DEFINITION. The life of threads (chapter 06): building them in a slot or in the wings, moves through the wings port,
crews, holds on sync objects that end with their thread, tasks that are discarded, and the drain at a thread's end. -/

namespace Sys2Proof.Machine

/-! ### Slots and building (R124, R127, R130, R137) -/

/-- Whether a live slot is taken, by a thread in it or by one that moves into it. -/
def Core.slotTaken (c : Core) (i : Nat) : Bool :=
  c.threads.any fun e => match e.2.place with
    | .live j => j == i
    | .moving (some j) _ => j == i
    | _ => false

/-- The lowest free slot from 1 to 15. -/
def Core.freeSlot (c : Core) : Option Nat := ((List.range 15).map (· + 1)).find? fun i => !c.slotTaken i

/-- The lowest free thread number from 1 to 63; a retired core takes no new thread (R184). -/
def Core.freeThread (c : Core) : Option Nat :=
  if c.retired || c.unmapped then none else Tbl.freeFrom c.threads 63 1

/-- The lowest free slot that no PENDING thread is taking: each of them takes one of the lowest (R130, R131; DEDUCED, log
entry 47). -/
def Core.newcomerSlot (c : Core) : Option Nat :=
  (((List.range 15).map (· + 1)).filter fun i => !c.slotTaken i)[c.threads.countP fun e => e.2.isPending]?

/-- Whether some thread of the core is PENDING (R130, R131). -/
def Core.hasPending (c : Core) : Bool := c.threads.any fun e => e.2.isPending

/-- The handle of a thread number's next assignment, and the assignment counted (R124). -/
def assign (k t : Nat) (s : State) : Nat × State :=
  let core := s.core k
  let n := Map.get 0 core.gens t
  (mkHandle k t (n % 256), s.setCore k { core with gens := Map.set 0 core.gens t (n + 1) })

/-- A thread seated under number `t` at a place, its turns 4 cycles apart also where it comes from another core (R17, R144). Its
handle. -/
def seatThread (k t : Nat) (place : Place) (c : Ctx) (s : State) : Nat × State :=
  let (h, s) := assign k t s
  let c := { c with ctxid := BitVec.ofNat 32 h, place := place, readyAt := max c.readyAt (s.now + 1) }
  (h, s.setCtx ⟨k, t⟩ (c.setPrioField 8 4 (effOf (s.core k) c)))

/-- A new thread under number `t`: directly in a free slot that no PENDING thread is taking, else PENDING in the wings (R130). Its
handle. -/
def buildThread (k t : Nat) (c : Ctx) (s : State) : Nat × State :=
  seatThread k t (match (s.core k).newcomerSlot with
    | some i => .live i
    | none => .wings s.now) c s

/-- g2 of a new thread: the top of its stack, or 0 above the launch's threads per core (R137). -/
def stackTop (k t : Nat) (l : CoreLaunch) : Word := if t < l.threads then word (lsLimit k - t * l.stack) else 0

/-- The launch of a core, or nothing but zeros. -/
def Core.launchOf (c : Core) : CoreLaunch :=
  c.launch.getD ⟨0, 0, 0, 0, 0, false, 0, 0, false⟩

/-- A context that starts at `pc` with the arguments in g4 to g7, for a thread of launch `l` (R34, R137, R355). -/
def startContext (k t : Nat) (l : CoreLaunch) (pc : Word) (args : List Word) (codeId prio crew mode : Nat) : Ctx :=
  let c := { Ctx.fresh with
    pc := pc
    codeId := BitVec.ofNat 16 codeId
    crewSlot := BitVec.ofNat 16 (l.crewBase + crew)
    xstat := BitVec.ofNat 32 mode }
  let c := c.wg 2 (stackTop k t l)
  let c := (List.range 4).foldl (fun c i => c.wg (4 + i) (args.getD i 0)) c
  let c := c.setPrioField 4 4 (if mode = 0 then l.ceil else 11)
  (c.setPrioField 0 4 prio).setPrioField 8 4 prio

/-! ### The wings port (R130, R131) -/

/-- The thread that the next free slot goes to: the highest EFF, then the first that waited; of those that began to wait in one
cycle the lowest thread number, where R131 gives no order (DESIGN CHOICE, log entry 60). -/
def nextPending (core : Core) : Option (Nat × Ctx) :=
  let since (c : Ctx) : Nat := match c.place with
    | .wings n => n
    | _ => 0
  (core.threads.filter fun e => e.2.isPending).foldl (fun best e => match best with
    | none => some e
    | some b => if b.2.eff < e.2.eff ∨ (b.2.eff = e.2.eff ∧ since e.2 < since b.2) then some e else some b) none

/-- Whether a thread may be chosen as a victim (R131); one that is held or halted keeps its slot (R374). (DEDUCED, log
entry 21.) -/
def isVictim (core : Core) (t : Nat) (c : Ctx) : Bool := c.isLive && wingsEligible core t c && !core.isStill t c

/-- The second rule of R131: other parks first, then ready threads, then those at a crew barrier. A thread that is neither ready
nor parked ranks with the first (DESIGN CHOICE, log entry 60). -/
def victimClass (c : Ctx) : Nat := if c.parkReason = 5 then 2 else if c.status = .running then 1 else 0

/-- The victim (R131): lowest EFF, then class, then the highest slot. -/
def victimOf (core : Core) : Option (Nat × Ctx) :=
  (core.threads.filter fun e => isVictim core e.1 e.2).foldl (fun best e => match best with
    | none => some e
    | some b =>
      let x := (e.2.eff, victimClass e.2, 15 - e.2.slot)
      let y := (b.2.eff, victimClass b.2, 15 - b.2.slot)
      if x.1 < y.1 ∨ (x.1 = y.1 ∧ (x.2.1 < y.2.1 ∨ (x.2.1 = y.2.1 ∧ x.2.2 < y.2.2))) then some e else some b) none

/-- The slot grant of R131, if there is a free slot and a thread for it. -/
def grantSlot (k : Nat) (s : State) : State :=
  let core := s.core k
  if s.now < core.portBusy then s
  else match core.freeSlot, nextPending core with
    | some i, some e => startMove ⟨k, e.1⟩ (some i) s
    | _, _ => s

/-- A waiter on a full/empty word that leaves its slot executes its instruction afresh when it is back: no wake has been
counted (R198). -/
def Ctx.unwoken (c : Ctx) : Ctx := { c with wait := c.wait.map fun w => { w with wakes := 0 } }

/-- The swap of R131, if no slot is free and a thread in the wings outranks a victim, once the victim has reached an
instruction boundary (R106, R177, R247). -/
def swapOut (k : Nat) (s : State) : State :=
  let core := s.core k
  if core.isMoving || core.freeSlot.isSome then s
  else match nextPending core, victimOf core with
    | some p, some v =>
      if v.2.eff < p.2.eff ∧ hasReached s ⟨k, v.1⟩ v.2 = true then
        startMove ⟨k, v.1⟩ none (s.onCtx ⟨k, v.1⟩ fun c => { c.unwoken with stopped := some s.time })
      else s
    | _, _ => s

/-- A delegated PREEMPT for a U thread that comes back from a pre-emption (R378). -/
def returned (a : Actor) (s : State) : State :=
  let c := s.ctx a
  match c.stopped with
  | none => s
  | some t =>
    let s := s.onCtx a fun c => { c with stopped := none }
    if c.mode = 0 ∧ delegated (s.core a.core).xdeleg 78 = true then
      pendIn a (s.ctx a) ⟨causeCode .async .preempt, word t, 9, 0⟩ s
    else s

/-! ### Crews (R145 to R148) -/

/-- The crew in a slot; an absent one is empty. -/
def State.crew (s : State) (slot : Nat) : Crew := (Tbl.get? s.hub.crews slot).getD ⟨[], [], 0, 0⟩

/-- The state with a crew replaced; an empty one returns to its empty state (R146). -/
def State.setCrew (s : State) (slot : Nat) (c : Crew) : State :=
  s.onHub fun h => { h with crews := if c.members.isEmpty then Tbl.del h.crews slot else Tbl.put h.crews slot c }

/-- A thread leaves its crew, if it is in one (R146). -/
def leaveCrew (a : Actor) (s : State) : State :=
  let c := s.ctx a
  if !c.isMember then s
  else
    let slot := c.crewSlot.toNat
    let crew := s.crew slot
    let s := s.setCrew slot { crew with
      members := crew.members.filter fun m => m.1 != a
      arrived := crew.arrived.filter fun m => m != a }
    (s.onCtx a fun c => { c.setRank 0 18 0 with crewsz := 0, isMember := false, arrived := none }).post 0
      .crewPhaseComplete [slot]

/-- The name under which a spilled role stays in its crew: past every thread number, one for each slot of the spill area
(R146, R147, R323). -/
def spilledName (k slot : Nat) : Actor := ⟨k, 64 + slot⟩

/-- A spilled role that is discarded leaves its crew (R138, R146, R323). -/
def leaveSpilled (a : Actor) (s : State) : State :=
  let crews := s.hub.crews.filter fun e => e.2.members.any fun m => m.1 == a
  crews.foldl (fun s e => (s.setCrew e.1 { e.2 with
    members := e.2.members.filter fun m => m.1 != a
    arrived := e.2.arrived.filter fun m => m != a }).post 0 .crewPhaseComplete [e.1]) s

/-! ### Holds on sync objects (R236, R240 to R242) -/

/-- The requests at the head of an object's queue that can be granted, in order, and the object after them (R240). -/
def serveQueue : Nat → SyncObj → List LockReq × SyncObj
  | 0, o => ([], o)
  | n + 1, o => match o.queue with
    | [] => ([], o)
    | r :: rest =>
      if (if r.exclusive then o.holders.isEmpty else o.holders.all fun h => !h.2) then
        let (gs, o) := serveQueue n { o with holders := o.holders ++ [(r.handle, r.exclusive)], queue := rest }
        (r :: gs, o)
      else ([], o)

/-- Whether a record is that of an object of a partition. -/
def SyncObj.isFor (o : SyncObj) (part : Nat) (object : Word) : Bool := o.part == part && o.object == object

/-- An object of a partition; an unused one has no holder, no queue and count 0. -/
def State.object (s : State) (part : Nat) (object : Word) : SyncObj :=
  (s.hub.objects.find? fun o => o.isFor part object).getD ⟨part, object, [], [], 0⟩

/-- Whether some binding names an object (R236). -/
def isBound (h : Hub) (part : Nat) (object : Word) : Bool :=
  h.bindings.any fun b => b.part == part && b.object == object

/-- An object put back, its grants on their way (R239, R240). One that no binding names ceases to exist once it has no
holder and no request (R238). -/
def putObject (o : SyncObj) (s : State) : State :=
  let (gs, o) := serveQueue o.queue.length o
  let gone := o.holders.isEmpty && o.queue.isEmpty && !isBound s.hub o.part o.object
  let s := s.onHub fun h =>
    let rest := h.objects.filter fun x => !x.isFor o.part o.object
    { h with objects := if gone then rest else o :: rest }
  gs.foldl (fun s r =>
    s.send .atomic umpireKey r.core 0 (.grant ⟨r.core, handleThread r.handle⟩ r.slot o.count) .lockGrant) s

/-- A handle's hold on an object ends; the count rises for an exclusive hold (R241). -/
def SyncObj.drop (o : SyncObj) (h : Nat) : SyncObj :=
  { o with
    holders := o.holders.filter fun x => x.1 != h
    count := if o.holders.any fun x => x.1 == h && x.2 then o.count + 1 else o.count }

/-- Every hold of a handle ends and its queued requests are withdrawn (R242). -/
def endHolds (h : Nat) (s : State) : State :=
  (s.hub.objects.filter fun o => o.holders.any (·.1 == h) || o.queue.any (·.handle == h)).foldl
    (fun s o => putObject { o.drop h with queue := o.queue.filter fun r => r.handle != h } s) s

/-! ### Queue entries and counters (R211, R226) -/

/-- A counter's OUTSTANDING changed by one; the counter of an entry without one is none. -/
def outstanding (k : Nat) (counter : Option Nat) (up : Bool) (s : State) : State :=
  match counter with
  | none => s
  | some n => s.onCore k fun c =>
      { c with kout := Map.set 0 c.kout n (if up then Map.get 0 c.kout n + 1 else Map.get 0 c.kout n - 1) }

/-- An entry taken out of its core's queue. -/
def removeEntry (k id : Nat) (s : State) : State :=
  s.onCore k fun c => { c with queue := c.queue.filter fun e => e.id != id }

/-- A held put dropped: it leaves OUTSTANDING with VALUE unchanged (R362). -/
def dropHeld (k id : Nat) (s : State) : State :=
  match s.entry? k id with
  | some e => removeEntry k id (outstanding k e.counter false s)
  | none => s

/-! ### The start of a thread's end (R138, R140) -/

/-- A thread issues nothing further: it leaves its gang and crew, any park ends, and its drain begins (R138, R140). One
that the engine holds first ends its hold (R140, R268). A task that has issued TDONE and is then aborted or discarded does
not finish (R362). -/
def beginDrain (a : Actor) (kind : DrainKind) (v : Word) (s : State) : State :=
  match s.ctx? a with
  | none => s
  | some c =>
    if c.isDraining then
      match kind with
      | .abort | .discard => s.setCtx a { c with status := .draining kind v }
      | _ => s
    else if (s.core a.core).holds a.thread then
      (s.setCtx a { c with ending := some (kind, v) }).post 1 .quitDrainEnd [a.core, a.thread]
    else
      let s := leaveCrew a (breakGang a 1 s)
      let s := s.onCore a.core fun core => { core with watch := core.watch.filter fun w => w.handle != c.handle }
      (s.onCtx a fun c => { c with
        status := .draining kind v
        ending := none
        park := 10
        wait := none
        halted := false
        suspended := false
        timeoutAt := none }).post 0 .quitDrainEnd [a.core, a.thread]

/-! ### Tasks discarded and aborted (R362) -/

/-- A task's ticket (R346). -/
def ticketOf (entry gen : Nat) : Nat := entry + 2 ^ 13 * gen + 2 ^ 31

/-- The tasks posted by those listed, and by those in turn, within `n` rounds. -/
def descendants (tasks : Tbl Task) : Nat → List Nat → List Nat
  | 0, es => es
  | n + 1, es =>
    let from_ (t : Task) : Bool := es.any fun e => match Tbl.get? tasks e with
      | some u => t.poster == some (ticketOf e u.gen)
      | none => false
    let more := (tasks.filter fun t => !es.contains t.1 && from_ t.2).map (·.1)
    if more.isEmpty then es else descendants tasks n (es ++ more)

/-- A task without its edges to the tasks listed. -/
def Task.without (t : Task) (es : List Nat) : Task := { t with edges := t.edges.filter fun e => !es.contains e }

/-- The held puts of a task dropped (R362). -/
def dropPuts (t : Task) (s : State) : State := t.puts.foldl (fun s p => dropHeld p.1 p.2 s) s

/-- Tasks discarded: their executions end, their records are free, their edges are gone (R362). -/
def discardTasks (es : List Nat) (s : State) : State :=
  let gone := s.hub.tasks.filter fun t => es.contains t.1
  let s := gone.foldl (fun s t =>
    let s := dropPuts t.2 s
    match t.2.actor with
    | some a => beginDrain a .discard 0 s
    | none => s) s
  let s := s.onHub fun h =>
    { h with tasks := (h.tasks.filter fun t => !es.contains t.1).map fun t => (t.1, t.2.without es) }
  gone.foldl (fun s t => ((s.post 0 .taskCommit [t.2.part]).post 0 .taskDispatch [t.2.part]).post 0 .umpireQueueSelect []) s

/-- A task and everything it posted discarded without re-dispatch (R362). -/
def discardTree (e : Nat) (s : State) : State :=
  discardTasks (descendants s.hub.tasks s.hub.tasks.length [e]) s

/-- A task aborted: its execution is discarded with what it posted, and it waits for dispatch again (R362); `counted`
says that the abort counts toward ABORTS (R364). -/
def abortTask (e : Nat) (counted : Bool) (s : State) : State :=
  let below := (descendants s.hub.tasks s.hub.tasks.length [e]).filter (· != e)
  let s := discardTasks below s
  match Tbl.get? s.hub.tasks e with
  | none => s
  | some t =>
    let s := dropPuts t s
    let s := match t.actor with
      | some a => beginDrain a .abort 0 s
      | none => s
    (s.onHub fun h => { h with tasks := Tbl.put h.tasks e { t with
        state := .waiting
        withEdge := false
        aborts := if counted then t.aborts + 1 else t.aborts
        actor := none
        readSet := []
        puts := [] } }).post 0 .taskDispatch [t.part]

/-- Threads that wait to run as the oldest task and now are are woken (R357). -/
def wakeOldest (s : State) : State :=
  s.cores.foldl (fun s e =>
    let isNow (c : Ctx) : Bool := (c.wait.any fun w => w.key == specKey) && c.parkReason == 9 && !s.isSpeculative c
    if e.2.threads.any fun t => isNow t.2 then
      s.onCore e.1 fun core => core.mapCtx fun _ c => if isNow c then unpark s.now c else c
    else s) s

/-- A thread ended by KILL or by a failing reply (R140, R325, R362, R374). -/
def killThread (a : Actor) (s : State) : State :=
  match (s.ctx a).ticket with
  | some tk => discardTree (ticketEntry tk) s
  | none => beginDrain a (if (s.ctx a).role.isSome then .retire else .kill) (BitVec.allOnes 64) s

/-! ### The end of the drain (R138) -/

/-- Whether a draining thread's entries, remote operations and replies are all complete (R138); held puts of a task
remain (R350). -/
def isDrained (s : State) (a : Actor) : Bool :=
  (s.ctx a).unacked.isEmpty
    && (s.cores.all fun e => e.2.queue.all fun q => decide (q.state = .heldPut) || s.ownerOf q.owner != some a)
    && s.net.all fun f => f.payload.answersTo != some a

/-- Whether a core holds threads: resident ones, or roles that have been spilled (DESIGN CHOICE, log entry 46: the spec
does not say whether a core whose only threads are spilled roles is idle; here it is not). -/
def Core.isHeld (c : Core) : Bool := !c.threads.isEmpty || c.stage.any fun st => !st.spills.isEmpty

/-- A core that holds no thread is idle (R121, R123). It belongs to no launch any more, but for one with TASKS = 1, whose core
takes tasks until the launch completes or another launch is placed there (R338, R354; DEDUCED, log entry 29). -/
def idleCore (k : Nat) (s : State) : State :=
  let core := s.core k
  if core.launch.isSome && !core.isHeld then
    let s := if core.launch.any (·.tasks) then s else s.setCore k { core with launch := none }
    s.hub.launches.foldl (fun s l => s.post 0 .launchPlacement [l.1]) s
  else s

/-- Whether a step that is due would deliver a thread's DIVIDE_BY_ZERO (R110). -/
def Due.isDivideOf (d : Due) (a : Actor) : Bool := d.step == .divideByZeroDelivery && d.args.take 2 == [a.core, a.thread]

/-- A thread's context freed: its number, slot and place in the wings, and a task of the core's partition may take them (R354). A
divide by zero that has not been delivered ends with it. -/
def freeThread (a : Actor) (s : State) : State :=
  let s := State.onCore { s with agenda := s.agenda.filter fun d => !d.isDivideOf a } a.core fun c =>
    { c with threads := Tbl.del c.threads a.thread }
  match s.partOf a.core with
  | some p => s.post 0 .taskDispatch [p]
  | none => s

/-- A pending cause of a thread that has ended becomes a record (R226, R445). -/
def pendRecords (a : Actor) (c : Ctx) (s : State) : State :=
  c.pend.foldl (fun s p =>
    sendRecord (s.kernelOf a.core)
      { plainRecord p.cause (s.recordPart a.core) p.access c.handle p.xval (dieOf a.core) with frame := p.frame } s) s

/-- The end of a drained thread (R138, R242, R325, R350); a role's spill that is under way ends with it. -/
def endThread (a : Actor) (kind : DrainKind) (v : Word) (s : State) : State :=
  let c := s.ctx a
  let id := (s.core a.core).launchOf.id
  let s := endHolds c.handle (pendRecords a c s)
  let s := match c.spawner with
    | some k =>
      if c.role.isNone && c.ticket.isNone then s.sendAt c.eff .control a.core k 0 (.reap c.handle v) .reapRecord else s
    | none => s
  let s := match kind, c.ticket with
    | .tdone, some tk =>
      let e := ticketEntry tk
      match Tbl.get? s.hub.tasks e with
      | some t =>
        (s.onHub fun h => { h with tasks := Tbl.put h.tasks e { t with state := .finished, actor := none } }).post 0
          .taskCommit [t.part]
      | none => s
    | _, _ => s
  let s := s.onCore a.core fun core => { core with stage := core.stage.map fun st =>
    { st with spilling := st.spilling.filter fun p => c.role != some p.key } }
  let s := idleCore a.core (freeThread a s)
  let s := if (s.core a.core).stage.isSome then s.post 0 .recordDispatch [a.core] else s
  s.post 0 .launchComplete [id]

end Sys2Proof.Machine
end

