-- ==== Sys2Proof/Machine/Translate.lean ====
section
/-! DEFINITION. Physical memory with its zero-on-read frames and errors (R13, R409, R442), the deed check (R401), page
walks and translation caches (R227 to R229, R420, R421, R444). -/

namespace Sys2Proof.Machine

/-! ### Frames and deeds -/

/-- The 2 MiB frame that holds a physical address. -/
def frameOf (pa : Nat) : Nat := pa / 2 ^ 21
/-- Whether the frame lies in HBM or in the LPDDR tier (R13, R400). -/
def inRanges (f : Nat) : Bool := decide (f < 294912) || (decide (524288 ≤ f) && decide (f < 1572864))
/-- Whether the frame is one of the sixteen reserved frames (R13). -/
def isReserved (f : Nat) : Bool := decide (294896 ≤ f) && decide (f < 294912)
/-- Whether the frame holds the firmware's memory (R400, R444). -/
def isFirmwareFrame (f : Nat) : Bool := decide (294902 ≤ f) && decide (f < 294912)
/-- Whether a physical address lies in the hub register range (R13). -/
def inHub (pa : Nat) : Bool := decide (0xF00000000000 ≤ pa) && decide (pa < 2 ^ 48)

/-- A frame's deed entry; while the wipe runs every frame is ZERO_ON_READ (R400, R430). -/
def State.deed (s : State) (f : Nat) : Deed :=
  let e := Map.get Deed.reset s.hub.deeds f
  if s.plat.wiping then { e with state := .zeroOnRead } else e

/-- The state with a frame's deed entry replaced. -/
def State.setDeed (s : State) (f : Nat) (e : Deed) : State :=
  s.onHub fun h => { h with deeds := Map.set Deed.reset h.deeds f e }

/-- OTHER: the offeree or borrower while STATE is 1, 2 or 3, otherwise the last borrower (R400). -/
def Deed.shownOther (e : Deed) : Nat :=
  match e.state with
  | .offered | .lent | .recalling => e.other
  | .owned | .zeroOnRead => e.borrower

/-- Whether kernel `k` holds the frame as owner or borrower (R401). -/
def holdsFrame (e : Deed) (k : Nat) : Bool :=
  match e.state with
  | .owned | .zeroOnRead | .offered => e.owner == k
  | .lent | .recalling => e.owner == k || e.other == k

/-- The deed check of a fill for kernel `k`: none if it passes (R229, R401). -/
def State.deedCheck (s : State) (k f : Nat) : Option Reason :=
  if !inRanges f || isReserved f then some .deedNotHeld
  else
    let e := s.deed f
    if holdsFrame e k then none
    else if e.transit then some .deedScrubbing
    else if e.shownOther = k ∧ e.ended = 2 then some .deedRevoked
    else if e.shownOther = k ∧ e.ended = 1 then some .deedRecalled
    else some .deedNotHeld

/-- Whether the frame's home refuses kernel `k` since a revocation (R406). -/
def State.refuses (s : State) (k f : Nat) : Bool := (s.deed f).refused == some k

/-! ### Bytes of physical memory -/

/-- The written lines of a zero-on-read frame (R409). -/
def State.writtenLines (s : State) (f : Nat) : List Nat := (Tbl.get? s.hub.lines f).getD []

/-- Whether the address lies in a line of a zero-on-read frame that has not been written (R409). -/
def State.isBlank (s : State) (pa : Nat) : Bool :=
  decide ((s.deed (frameOf pa)).state = .zeroOnRead) && !(s.writtenLines (frameOf pa)).contains (pa / 64)

/-- A byte of physical memory as a read returns it. -/
def State.physByte (s : State) (pa : Nat) : Byte := if s.isBlank pa then 0 else Map.get 0 s.dram pa

/-- The bytes at a physical address. -/
def State.physBytes (s : State) (pa : Nat) : Nat → List Byte
  | 0 => []
  | n + 1 => s.physByte pa :: s.physBytes (pa + 1) n

/-- The little-endian number in `n` bytes at a physical address. -/
def State.physRead (s : State) (pa n : Nat) : Nat := natOfBytes (s.physBytes pa n)

/-- A byte written: a blank line becomes a line of zeros with its written bit set first (R409). -/
def State.physSet (s : State) (pa : Nat) (b : Byte) : State :=
  let s :=
    if s.isBlank pa then
      let f := frameOf pa
      { s with
        dram := putBytes s.dram (pa / 64 * 64) (List.replicate 64 0)
        hub := { s.hub with lines := Tbl.put s.hub.lines f (pa / 64 :: s.writtenLines f) } }
    else s
  { s with dram := Map.set 0 s.dram pa b }

/-- Bytes written at a physical address upward. -/
def State.physPut (s : State) (pa : Nat) : List Byte → State
  | [] => s
  | b :: bs => (s.physSet pa b).physPut (pa + 1) bs

/-- The first byte of an access that lies in an uncorrectable 8-byte word (R442). -/
def State.physBad (s : State) (pa n : Nat) : Option Nat :=
  if n = 0 then none
  else
    match ((List.range ((pa + n - 1) / 8 - pa / 8 + 1)).map (pa / 8 + ·)).find? fun w => s.dramBad.contains w with
    | some w => some (max pa (8 * w))
    | none => none

/-- Words wholly covered by a write are healed (R442). -/
def State.heal (s : State) (pa n : Nat) : State :=
  { s with dramBad := s.dramBad.filter fun w => !(decide (pa ≤ 8 * w) && decide (8 * w + 8 ≤ pa + n)) }

/-- The first byte of a write that lies in an uncorrectable word which the write covers only in part (R442). -/
def State.partBad (s : State) (pa n : Nat) : Option Nat := (s.heal pa n).physBad pa n

/-! ### Walks (R228) -/

/-- A leaf found by a walk: physical base, log2 of the page size, permission bits R W X, device, DIELOCAL, TIER, DIRECT, and
the address of the leaf entry. -/
structure Leaf where
  phys : Nat
  log2 : Nat
  perms : Nat
  device : Nat
  dieLocal : Bool
  tier : Bool
  direct : Bool
  at_ : Nat
  deriving DecidableEq, Repr

/-- The stack that holds an HBM address on a page without the die-local attribute, or on a die-local page owned by die `d`
(R14); none for an address outside HBM. -/
def stackOf (pa : Nat) (dieLocal : Bool) (d : Nat) : Option Nat :=
  if 294912 ≤ frameOf pa then none else some (if dieLocal then 3 * d + pa / 4096 % 3 else pa / 4096 % 12)

/-- The bits of a virtual address that index each level (R228), the level counted from 1. -/
def levelIndex (va level : Nat) : Nat :=
  if level = 5 then bits va 16 5 else bits va (57 - 9 * level) 9

/-- log2 of the page that a leaf at a level maps. -/
def levelLog2 (level : Nat) : Nat := if level = 3 then 30 else if level = 4 then 21 else 16

/-- A walk from a table, with `fuel` levels left: the leaf, or the cause that ends it (R228, R442). -/
def walkFrom (s : State) (va : Nat) : Nat → Nat → Except Reason Leaf
  | 0, _ => .error .pageNotPresent
  | n + 1, table =>
    let level := 5 - n
    let at_ := table + 8 * levelIndex va level
    if (s.physBad at_ 8).isSome then .error .dramUncorrectable
    else
      let e := s.physRead at_ 8
      let device := bits e 50 14
      let addr := bits e 8 40 * 256
      if bits e 0 1 = 0 ∨ bits e 48 2 ≠ 0 then .error .pageNotPresent
      else if bits e 1 1 = 1 then
        if level < 3 ∨ addr % 2 ^ levelLog2 level ≠ 0 then .error .pageNotPresent
        else .ok ⟨addr, levelLog2 level, bits e 2 3, device, bits e 5 1 == 1, bits e 6 1 == 1, bits e 7 1 == 1, at_⟩
      else if level = 5 ∨ device ≠ s.plat.devid then .error .pageNotPresent
      else walkFrom s va n addr

/-- The translation root of a space: the partition's, or its heat's (R410, R412), KROOT (R420), UROOT (R444). -/
def State.rootOf (s : State) (space : Nat) : Nat :=
  if space = 80 then bits s.hub.uroot.toNat 12 36 * 4096
  else if 64 ≤ space then bits (Map.get 0 s.hub.kroot (space - 64)).toNat 12 36 * 4096
  else
    let p := s.part space
    match p.heat with
    | some h => h.root
    | none => bits p.root.toNat 12 36 * 4096

/-- The kernel ID that a space's accesses carry (R399). -/
def State.spaceKernel (s : State) (space : Nat) : Nat :=
  if 80 ≤ space then 0 else if 64 ≤ space then space - 64 else (s.part space).kernel

/-- Whether a leaf's frames may enter the cache for a space (R229, R401, R421, R444); the Umpire's space takes no page of
another device. -/
def fillCheck (s : State) (space : Nat) (l : Leaf) : Option Reason :=
  if l.device ≠ s.plat.devid then (if space = 80 then some .deedNotHeld else none)
  else if inHub l.phys then (if 64 ≤ space then none else some .deedNotHeld)
  else if space = 80 then (if isFirmwareFrame (frameOf l.phys) then none else some .deedNotHeld)
  else
    let n := if l.log2 = 30 then 512 else 1
    ((List.range n).map (frameOf l.phys + ·)).findSome? (s.deedCheck (s.spaceKernel space))

/-- Whether a cached translation covers an address of a space. -/
def TlbEntry.covers (e : TlbEntry) (space va : Nat) : Bool := e.space == space && va / 2 ^ e.log2 == e.vpage

/-- The physical address under a cached translation. -/
def TlbEntry.physOf (e : TlbEntry) (va : Nat) : Nat := e.phys + va % 2 ^ e.log2

/-- The cached translation of an address in a cluster. -/
def State.cached (s : State) (g space va : Nat) : Option TlbEntry := (s.cluster g).tlb.find? (·.covers space va)

/-- A walk and the fill of the cluster's translation cache: the entry, or the cause (R227 to R229). The cache holds 4,096
entries; which one a fill of a full cache replaces is a free value.
(DESIGN CHOICE, log entry 8.) -/
def walkFill (s : State) (g space va : Nat) : Except Reason TlbEntry × State :=
  let root := s.rootOf space
  if root = 0 then (.error .pageNotPresent, s)
  else match walkFrom s va 5 root with
    | .error r => (.error r, s)
    | .ok l => match fillCheck s space l with
      | some r => (.error r, s)
      | none =>
        let e : TlbEntry := {
          space := space
          vpage := va / 2 ^ l.log2
          log2 := l.log2
          phys := l.phys
          perms := l.perms
          device := l.device
          dieLocal := l.dieLocal
          tier := l.tier
          direct := l.direct }
        let c := s.cluster g
        let kept := c.tlb.filter fun o => !o.covers space va
        if kept.length < 4096 then (.ok e, s.setCluster g { c with tlb := e :: kept })
        else
          let s := { s with fresh := s.fresh + 1 }
          (.ok e, s.setCluster g { c with tlb := e :: kept.eraseIdx (Config.tlbVictim (s.fresh - 1) % kept.length) })

/-! ### Fault frames -/

/-- Whether a reason is a deed cause. -/
def isDeedReason (r : Reason) : Bool :=
  match r with
  | .deedNotHeld | .deedRecalled | .deedRevoked | .deedScrubbing => true
  | _ => false

/-- The physical frame address of a record for a deed cause (R231): the first frame of the page that fails the check. -/
def deedFrame (s : State) (space va : Nat) (r : Reason) : Nat :=
  if !isDeedReason r then 0
  else match walkFrom s va 5 (s.rootOf space) with
    | .ok l =>
      let n := if l.log2 = 30 then 512 else 1
      let fs := (List.range n).map (frameOf l.phys + ·)
      ((fs.find? fun f => (s.deedCheck (s.spaceKernel space) f).isSome).getD (frameOf l.phys)) * 2 ^ 21
    | .error _ => 0

/-- The physical frame address of a failure at an address of a cluster (R231): for a deed cause the frame under its cached
translation, else the frame that the fill's check names. -/
def faultFrame (s : State) (g space va : Nat) (r : Reason) : Nat :=
  match s.cached g space va with
  | some e => if isDeedReason r then frameOf (e.physOf va) * 2 ^ 21 else 0
  | none => deedFrame s space va r

/-- The device that holds the page of an address, as its cached translation or its walk names it; this device where neither
names one. -/
def pageDevice (s : State) (g space va : Nat) : Nat :=
  match s.cached g space va with
  | some e => e.device
  | none => match walkFrom s va 5 (s.rootOf space) with
    | .ok l => l.device
    | .error _ => s.plat.devid

/-- Whether an access of `n` bytes waits at the port for a link slot of its tenant (R414). -/
def awaitsLink (s : State) (g space va n : Nat) : Bool :=
  !s.linkAllowed space &&
    ((List.range ((n + 65535) / 65536)).map (fun i => va + 65536 * i) ++ [va + n - 1]).any fun a =>
      pageDevice s g space a != s.plat.devid

/-! ### Stacks that accept no command (R437) -/

/-- Whether an HBM stack has passed 105 °C, so that it accepts no command (R437). -/
def State.isShut (s : State) (stack : Nat) : Bool := (Map.get 0 s.plat.stackState stack).testBit 2

/-- Whether some stack accepts no command. -/
def State.anyShut (s : State) : Bool := (List.range 12).any s.isShut

/-- Whether a physical address of the device's own structures lies in a stack that accepts no command (R14, R437). -/
def State.shutAt (s : State) (pa : Nat) : Bool := (stackOf pa false 0).any s.isShut

/-- Whether a range of the device's own structures touches a stack that accepts no command (R437).
(DEDUCED, log entry 34.) -/
def hitsShut (s : State) (addr n : Nat) : Bool :=
  s.anyShut && n != 0 && ((List.range ((n + 4095) / 4096)).map (fun i => addr + 4096 * i) ++ [addr + n - 1]).any s.shutAt

/-- Whether an address of a page lies in a stack that accepts no command: a die-local page in those of the die that owns it
(R14, R437; DESIGN CHOICE, log entry 50). -/
def pageShut (s : State) (device phys : Nat) (dieLocal : Bool) (pa : Nat) : Bool :=
  device == s.plat.devid && (stackOf pa dieLocal (Config.pageDie phys % 4)).any s.isShut

/-- Whether a translation leads to a stack that accepts no command (R14, R437). -/
def shutUnder (s : State) (e : TlbEntry) (pa : Nat) : Bool := pageShut s e.device e.phys e.dieLocal pa

/-- Whether a walk from a table reads an entry in a stack that accepts no command (R228, R437). -/
def walkHitsShut (s : State) (va : Nat) : Nat → Nat → Bool
  | 0, _ => false
  | n + 1, table =>
    let at_ := table + 8 * levelIndex va (5 - n)
    let e := s.physRead at_ 8
    s.shutAt at_ || (bits e 0 2 == 1 && walkHitsShut s va n (bits e 8 40 * 256))

/-- Whether a walk of a space for an address meets a stack that accepts no command (R437). -/
def walkShut (s : State) (space va : Nat) : Bool :=
  s.anyShut && s.rootOf space != 0 && walkHitsShut s va 5 (s.rootOf space)

/-- Whether an access of `n` bytes meets a stack that accepts no command, in its walks or at the bytes (R437).
(DEDUCED, log entry 34.) -/
def awaitsStack (s : State) (g space va n : Nat) : Bool :=
  s.anyShut && ((List.range ((n + 4095) / 4096)).map (fun i => va + 4096 * i) ++ [va + n - 1]).any fun a =>
    match s.cached g space a with
    | some e => shutUnder s e (e.physOf a)
    | none => walkShut s space a || match walkFrom s a 5 (s.rootOf space) with
      | .ok l => pageShut s l.device l.phys l.dieLocal (l.phys + a % 2 ^ l.log2)
      | .error _ => false

/-- Whether an access of `n` bytes waits: for a link slot, or at a stack that accepts no command (R414, R437). -/
def awaitsMemory (s : State) (g space va n : Nat) : Bool :=
  n != 0 && (awaitsLink s g space va n || awaitsStack s g space va n)

/-- The permission bits that an access needs: R 1, W 2, X 4 (R228). -/
def permits (e : TlbEntry) (need : Nat) : Bool := e.perms &&& need == need

/-- The cached translation of an address, or that of a walk and fill. -/
def translateFill (s : State) (g space va : Nat) : Except Reason TlbEntry × State :=
  match s.cached g space va with
  | some e => (.ok e, s)
  | none => walkFill s g space va

/-- An address translated at once: the cache, else a walk and fill, then the permission and the refusal of a revoked
kernel at the frame's home (R227, R228, R406). -/
def translateNow (s : State) (g space va need : Nat) : Except Reason (Nat × TlbEntry) × State :=
  match translateFill s g space va with
  | (.error c, s) => (.error c, s)
  | (.ok e, s) =>
    let pa := e.physOf va
    if !permits e need then (.error .pagePermission, s)
    else if e.device = s.plat.devid ∧ s.refuses (s.spaceKernel space) (frameOf pa) = true ∧ space ≠ 80 then
      (.error .deedRevoked, s)
    else (.ok (pa, e), s)

/-- Whether a failure stalls in place (R226). -/
def isStalling (r : Reason) : Bool :=
  match r with
  | .pageNotPresent | .pagePermission | .deedNotHeld | .deedScrubbing | .tierUnavailable => true
  | _ => false

/-- How another device of the domain answers (DESIGN CHOICE, log entry 7); no fabric traffic leaves before DEVID is written (R440). -/
def State.fabricOf (s : State) (device : Nat) : FabricAnswer :=
  if s.plat.devidWritten then Map.get .unreachable s.fabric device else .unreachable

/-- Why an access to a page of another device fails, if it does (R226, R229). -/
def remoteFailure (s : State) (device : Nat) : Option Reason :=
  match s.fabricOf device with
  | .unreachable => some .remoteUnreachable
  | .denies => some .remoteDenied
  | .accepts => none

/-- A byte read through a translation. A page of another device gives what that device returns, a free value; a hub
register page gives 0 to any transfer that is no register access (R421). -/
def readThrough (s : State) (e : TlbEntry) (pa : Nat) : Except Reason Byte × State :=
  if e.device ≠ s.plat.devid then
    match remoteFailure s e.device with
    | some r => (.error r, s)
    | none => (.ok (Config.fabricByte s.fresh), { s with fresh := s.fresh + 1 })
  else if inHub pa then (.ok 0, s)
  else if (s.physBad pa 1).isSome then (.error .dramUncorrectable, s)
  else (.ok (s.physByte pa), s)

/-- A byte written through a translation; `whole` says that the write covers its aligned 8-byte word (R442). -/
def writeThrough (s : State) (e : TlbEntry) (pa : Nat) (whole : Bool) (b : Byte) : Option Reason × State :=
  if e.device ≠ s.plat.devid then (remoteFailure s e.device, s)
  else if inHub pa then (none, s)
  else
    let s := if whole then s.heal (pa / 8 * 8) 8 else s
    if (s.physBad pa 1).isSome then (some .dramUncorrectable, s) else (none, s.physSet pa b)

/-- Bytes read at a virtual address upward, `n` of them: those read before a failure, and the failure with its
virtual address. -/
def readVirtual (g space : Nat) : Nat → Nat → State → List Byte × Option (Reason × Nat) × State
  | 0, _, s => ([], none, s)
  | n + 1, va, s =>
    match translateNow s g space va 1 with
    | (.error r, s) => ([], some (r, va), s)
    | (.ok (pa, e), s) => match readThrough s e pa with
      | (.error r, s) => ([], some (r, va), s)
      | (.ok b, s) =>
        let (bs, f, s) := readVirtual g space n (va + 1) s
        (b :: bs, f, s)

/-- Bytes written at a virtual address upward within a write of `lo` up to `hi`; those before a failure stay written. -/
def writeVirtual (g space lo hi : Nat) : List Byte → Nat → State → Option (Reason × Nat) × State
  | [], _, s => (none, s)
  | b :: bs, va, s =>
    match translateNow s g space va 2 with
    | (.error r, s) => (some (r, va), s)
    | (.ok (pa, e), s) =>
      let word := va / 8 * 8
      match writeThrough s e pa (decide (lo ≤ word) && decide (word + 8 ≤ hi)) b with
      | (some r, s) => (some (r, va), s)
      | (none, s) => writeVirtual g space lo hi bs (va + 1) s

/-- Every cached translation for which `p` holds dropped, in every cluster (R387, R406). -/
def dropTranslations (p : TlbEntry → Bool) (s : State) : State :=
  { s with clusters := s.clusters.map fun c => (c.1, { c.2 with tlb := c.2.tlb.filter fun e => !p e }) }

end Sys2Proof.Machine
end

