-- ==== Sys2Proof/Machine/Registers.lean ====
section
/-! DEFINITION. The memory-mapped registers of the hub range (R8, R9, R443): what a read returns, and what a write sets or
starts. A write that has a step of its own makes that step due. -/

namespace Sys2Proof.Machine

/-! ### Masters

A master is numbered 0 for a host core, 1 for a PCIe device, 2 for the board management controller, 8 + n for control core
n, and 16 for the Umpire. -/

/-- Whether a master is a control core. -/
def isControlMaster (m : Nat) : Bool := decide (8 ≤ m) && decide (m < 16)
/-- The master that a hub core is. -/
def masterOf (k : Nat) : Nat := k - 4096 + 8
/-- The ID that the hub assigns to a master's path (R434); 0 for a PCIe device, which has none. -/
def ownerCode (m : Nat) : Nat :=
  if m = 0 then 1 else if isControlMaster m then 2 else if m = 2 then 3 else if m = 16 then 4 else 0
/-- Whether a master owns the management registers (R434). -/
def isOwner (s : State) (m : Nat) : Bool := s.plat.owner != 0 && ownerCode m == s.plat.owner
/-- Whether a master is a control core of kernel `k`. -/
def controls (s : State) (m k : Nat) : Bool := isControlMaster m && s.controlKernel (m - 8) == k
/-- Whether a master may use the debug windows (R392). -/
def mayDebug (s : State) (m : Nat) : Bool := isControlMaster m || m == 16 || isOwner s m

/-! ### Addresses -/

/-- QADMIT (R334); DOORBELL and QSTATUS follow it. -/
def qadmitAddr : Nat := 0xF00000200000
/-- SNAPCTL (R394). -/
def snapctlAddr : Nat := 0xF00000400000
/-- The host deed port (R408). -/
def portBase : Nat := 0xF00000500000
/-- VIPOST (R418); VIDROP follows it. -/
def vipostAddr : Nat := 0xF00000700000
/-- UROOT (R444). -/
def urootAddr : Nat := 0xF00000310080
/-- MGMTOWN (R434). -/
def mgmtAddr : Nat := 0xF00000A00000
/-- DEVID (R440). -/
def devidAddr : Nat := 0xF00000B00000

/-- The offset of an address in a range of `n` bytes at `base`. -/
def within (addr base n : Nat) : Option Nat := if base ≤ addr ∧ addr < base + n then some (addr - base) else none

/-- The core and offset that an address of the debug windows names (R392). -/
def debugAt (addr : Nat) : Option (Nat × Nat) :=
  match within addr 0xF30000000000 (2 ^ 28) with
  | some o => some (1024 * (o / 2 ^ 26) + o / 2 ^ 16 % 1024, o % 2 ^ 16)
  | none => (within addr 0xF30010000000 (9 * 2 ^ 16)).map fun o => (4096 + o / 2 ^ 16, o % 2 ^ 16)

/-- The core and counter offset that an address of the counter windows names (R215). -/
def counterAt (addr : Nat) : Option (Nat × Nat) :=
  match within addr 0xF10000000000 (2 ^ 22) with
  | some o => some (1024 * (o / 2 ^ 20) + o / 2 ^ 10 % 1024, o % 2 ^ 10)
  | none => (within addr 0xF10000400000 (9 * 2 ^ 10)).map fun o => (4096 + o / 2 ^ 10, o % 2 ^ 10)

/-- The core and offset that an address of the local-store windows names (R215). -/
def storeAt (addr : Nat) : Option (Nat × Nat) :=
  match within addr 0xF20000000000 (2 ^ 32) with
  | some o => some (1024 * (o / 2 ^ 30) + o / 2 ^ 20 % 1024, o % 2 ^ 20)
  | none => (within addr 0xF28000000000 (9 * 2 ^ 21)).map fun o => (4096 + o / 2 ^ 21, o % 2 ^ 21)

/-! ### Reads -/

/-- A counter as its window and KREAD show it: OUTSTANDING above VALUE (R215, R221). -/
def counterWord (c : Core) (n : Nat) : Nat := (Map.get 0 c.kval n).toNat + 2 ^ 32 * (Map.get 0 c.kout n).toNat

/-- The entries of a queue: a held put has left it (R356). -/
def Core.entries (c : Core) : List Entry := c.queue.filter fun e => decide (e.state ≠ .heldPut)

/-- The place of the next queue entry in the debug window: the next free one. -/
def nextIndex (c : Core) : Nat :=
  (((List.range 32).map fun i => (c.dbgIssued + i) % 32).find? fun i => !(c.entries.any fun e => e.index == i)).getD 0

/-- DBGQ (R392). -/
def dbgq (c : Core) : Nat :=
  ((c.entries.head?).map (·.index)).getD (nextIndex c) + 2 ^ 8 * nextIndex c + 2 ^ 16 * c.entries.length

/-- The poison bits as the save record holds them: bit 32p + r (R389). -/
def poisonBits (e : Engine) : Nat := e.poison.foldl (fun x i => x ||| 2 ^ i) 0

/-- The 64-bit word of the accumulator planes at a byte offset (R389, R392). -/
def planeWord (e : Engine) (off : Nat) : Nat :=
  (Map.get 0 e.acc (off / 4)).toNat + 2 ^ 32 * (Map.get 0 e.acc (off / 4 + 1)).toNat

/-- A word of the queue entry at place `i` of the debug window (R392). -/
def entryWord (c : Core) (i off : Nat) : Nat :=
  match c.entries.find? fun e => e.index == i with
  | some e => match off with
    | 0 => e.word + 2 ^ 32 * e.owner
    | 8 => e.loc
    | 16 => e.rem.toNat
    | _ => e.lenWord.toNat
  | none => 0

/-- A read in a core's debug window (R392). -/
def debugRead (s : State) (k off : Nat) : Nat :=
  let c := s.core k
  if off = 0 then c.dbgHalt.toNat
  else if off = 8 then (c.threads.filter fun e => isHalted s ⟨k, e.1⟩ e.2).foldl (fun x e => x + 2 ^ e.1) 0
  else if off = 0x10 then c.dbgCtl.toNat
  else if 0x20 ≤ off ∧ off < 0x40 then (Map.get 0 c.bps ((off - 0x20) / 8)).toNat
  else if 0x40 ≤ off ∧ off < 0x50 then (Map.get 0 c.wps ((off - 0x40) / 8)).toNat
  else if off = 0x80 then dbgq c
  else if 0x100 ≤ off ∧ off < 0x120 then bits (poisonBits c.eng) (8 * (off - 0x100)) 64
  else if 0x1000 ≤ off ∧ off < 0x1400 then
    if c.dbgCtl.getLsbD 0 then entryWord c ((off - 0x1000) / 32) (off % 32) else 0
  else if 0x8000 ≤ off then planeWord c.eng (off - 0x8000)
  else 0

/-- A crew slot as the debugger reads it: members, arrived, phase (R392). -/
def crewWord (s : State) (slot : Nat) : Nat :=
  match Tbl.get? s.hub.crews slot with
  | some c => c.members.length + 2 ^ 19 * c.arrived.length + 2 ^ 38 * c.phase
  | none => 0

/-- QSTATUS (R334). PENDING reads 64 at most, its greatest value: a re-admission can make the list longer for a time (DESIGN CHOICE, log
entry 67). -/
def qstatus (h : Hub) : Nat :=
  (256 - h.queues.length) + 2 ^ 16 * min 64 h.admitList.length + (if h.qovf then 2 ^ 23 else 0)

/-- A read of the host deed port by a host core (R408). -/
def portRead (h : Hub) (off : Nat) : Nat :=
  if off < 0x800 then
    let p := (Tbl.get? h.port (off / 32)).getD PortSlot.reset
    match off % 32 with
    | 0 => p.frame.toNat
    | 8 => p.arg.toNat
    | 24 => p.result.toNat
    | _ => 0
  else match off with
    | 0x800 => h.evBase.toNat
    | 0x808 => h.evHead.toNat
    | 0x810 => h.evTail.toNat
    | 0x818 => h.evMsi.toNat
    | 0x820 => h.evData.toNat
    | _ => 0

/-- A word of a kernel's fault queue registers (R375). -/
def faultQueueRead (q : FaultQueue) (off : Nat) : Nat :=
  match off with
  | 0 => q.base.toNat
  | 8 => q.note.toNat
  | 16 => q.head.toNat
  | _ => q.tail.toNat

/-- A partition's registers (R410). -/
def partRead (p : Part) (off : Nat) : Nat :=
  if off = 0 then p.root.toNat else p.node + 2 ^ 12 * p.kernel + (if p.valid then 2 ^ 16 else 0)

/-- A read of an aligned 64-bit register below the windows; an address that names no register reads 0, which R443 does not
say (DESIGN CHOICE, log entry 42). -/
def plainRead (s : State) (m addr : Nat) : Nat :=
  let h := s.hub
  if addr = qadmitAddr + 0x10 then qstatus h
  else if addr = snapctlAddr then s.plat.snapctl.toNat
  else if addr = vipostAddr + 8 then h.vidrop.toNat
  else if addr = urootAddr then h.uroot.toNat
  else if addr = mgmtAddr then s.plat.owner + 2 ^ 8 * s.plat.handTo
  else if addr = devidAddr then s.plat.devid
  else
    ((within addr 0xF00000300020 0x1E0).map fun o => faultQueueRead (s.faultQueue (o / 32 + 1)) (o % 32)).getD <|
    ((within addr 0xF00000310008 0x78).map fun o => (Map.get 0 h.kroot (o / 8 + 1)).toNat).getD <|
    ((within addr portBase 0x828).map fun o => if m = 0 then portRead h o else 0).getD <|
    ((within addr 0xF00000600000 0x400).map fun o => partRead (s.part (o / 16)) (o % 16)).getD <|
    ((within addr 0xF00000701008 0x7F8).map fun o => (Map.get 0 h.vifbase (o / 8 + 1)).toNat).getD <|
    ((within addr 0xF00000800000 0xC000).map fun o => (Map.get 0 s.plat.access (o / 8)).toNat).getD <|
    ((within addr 0xF00000900000 64).map fun o => natOfBytes ((s.plat.publicKey.drop o).take 8)).getD <|
    ((within addr 0xF38000000000 0x8000).map fun o => if mayDebug s m then crewWord s (o / 8) else 0).getD <|
    ((within addr 0xF40000000000 (4096 * 4382)).map fun o =>
      if isControlMaster m || isOwner s m then
        (((Tbl.get? s.plat.snapshot (o / 4096)).getD []).getD (o % 4096 / 8) 0).toNat
      else 0).getD 0

/-- The core and offset that an access of `size` bytes through the local-store windows reaches: 4 or 8 bytes, aligned, within the
limit (R215). -/
def windowAt (addr size : Nat) : Option (Nat × Nat) :=
  (storeAt addr).filter fun w => (size == 4 || size == 8) && w.2 % size == 0 && decide (w.2 + size ≤ lsLimit w.1)

/-- What a read by a master does beside its result: the single-bit errors of the local words that it reads are corrected
(R183, R215). -/
def readCorrects (addr size : Nat) (s : State) : State :=
  match windowAt addr size with
  | some (k, off) => correctSingles k off size s
  | none => s

/-- What a read of `size` bytes by a master returns (R443, R215, R392); a read of another width or alignment returns 0. -/
def hubRead (s : State) (m addr size : Nat) : Nat :=
  match storeAt addr with
  | some (k, off) =>
    if (size = 4 ∨ size = 8) ∧ off % size = 0 ∧ off + size ≤ lsLimit k then
      if ((s.core k).badWord off size).isSome then 2 ^ (8 * size) - 1 else (s.core k).lsRead off size
    else 0
  | none =>
    if size ≠ 8 ∨ addr % 8 ≠ 0 then 0
    else match counterAt addr with
      | some (k, off) => if off % 16 = 0 then counterWord (s.core k) (off / 16) else 0
      | none => match debugAt addr with
        | some (k, off) => if mayDebug s m then debugRead s k off else 0
        | none => plainRead s m addr

/-! ### Writes -/

/-- The RW bits of a written value. -/
def rw (mask value : Nat) : Word := word (value &&& mask)

/-- The step that a DPCMD write of an OP below 7 performs (R408). -/
def portStep (op : Nat) : Instr :=
  match op with
  | 0 => .dpcmdDoffer
  | 1 => .dpcmdDaccept
  | 2 => .dpcmdDreject
  | 3 => .dpcmdDlend
  | 4 => .dpcmdDrecall
  | 5 => .dpcmdDrelease
  | _ => .dpcmdDquery

/-- A write of the host deed port by a host core (R408). The operation takes the operands that its slot holds now; OP 7
performs nothing and has its result at once. -/
def portWrite (off value : Nat) (s : State) : State :=
  if off < 0x800 then
    let slot := off / 32
    let p := (Tbl.get? s.hub.port slot).getD PortSlot.reset
    match off % 32 with
    | 0 => s.onHub fun h => { h with port := Tbl.put h.port slot { p with frame := word value } }
    | 8 => s.onHub fun h => { h with port := Tbl.put h.port slot { p with arg := word value } }
    | 16 =>
      let answer (r : Word) : State := s.onHub fun h => { h with port := Tbl.put h.port slot { p with result := r } }
      if p.result.getLsbD 63 then s
      else if value % 8 = 7 then answer 0xFF
      else (answer (word (2 ^ 63))).post 0 (portStep (value % 8)) [slot, p.frame.toNat, p.arg.toNat]
    | _ => s
  else match off with
    | 0x800 => (s.onHub fun h => { h with evBase := rw (2 ^ 52 - 2 ^ 12) value }).post 0 .faultRecordWrite [0]
    | 0x808 => (s.onHub fun h => { h with evHead := rw (2 ^ 32 - 1) value }).post 0 .faultRecordWrite [0]
    | 0x818 => s.onHub fun h => { h with evMsi := rw (2 ^ 48 - 1) value }
    | 0x820 => s.onHub fun h => { h with evData := rw (2 ^ 32 - 1) value }
    | _ => s

/-- A write of a fault queue register (R375). -/
def faultQueueWrite (n off value : Nat) (s : State) : State :=
  let q := s.faultQueue n
  match off with
  | 0 => (s.setFaultQueue n { q with base := rw (2 ^ 52 - 2 ^ 12) value }).post 0 .faultRecordWrite [n]
  | 8 => s.setFaultQueue n { q with note := word value }
  | 16 => (s.setFaultQueue n { q with head := rw (2 ^ 32 - 1) value }).post 0 .faultRecordWrite [n]
  | _ => s

/-- A write in a core's debug window by a master that may use it (R392, R393). -/
def debugWrite (m k off value : Nat) (s : State) : State :=
  if off = 0 then s.post 0 .dbghalt [m, k, value]
  else if off = 0x10 then s.post 0 .dbgctl [m, k, value]
  else if 0x20 ≤ off ∧ off < 0x40 then
    s.onCore k fun c => { c with bps := Map.set 0 c.bps ((off - 0x20) / 8) (rw (2 ^ 57 - 1) value) }
  else if 0x40 ≤ off ∧ off < 0x50 then
    s.onCore k fun c => { c with wps := Map.set 0 c.wps ((off - 0x40) / 8) (rw (2 ^ 28 - 1) value) }
  else s

/-- A write of MGMTOWN is served in its order of arrival (R434): one with a claim, or one without. Of a write with RELEASE the
release alone is done (DESIGN CHOICE, log entry 33). -/
def mgmtWrite (m value : Nat) (s : State) : State :=
  s.post 0 (if bits value 4 3 = 0 then .mgmtRelease else .mgmtClaim) [m, value]

/-- A fault reply (R230): replay or fail. -/
def replyWrite (die value : Nat) (s : State) : State :=
  if bits value 16 1 = 0 then s.post 0 .faultReplyReplay [die, bits value 0 16]
  else s.post 0 .faultReplyFail [die, bits value 0 16, bits value 17 9]

/-- A write of an aligned 64-bit register below the windows; at an address that names no register it is ignored, which R443
does not say (DESIGN CHOICE, log entry 42). -/
def plainWrite (m addr value : Nat) (s : State) : State :=
  if addr = qadmitAddr then (if isControlMaster m || m == 16 then s.post 0 .qadmit [m, value % 2 ^ 48] else s)
  else if addr = qadmitAddr + 8 then s.post 0 .doorbell [value % 2 ^ 16]
  else if addr = qadmitAddr + 0x10 then
    (if bits value 23 1 = 1 then s.onHub fun h => { h with qovf := false } else s)
  else if addr = snapctlAddr then { s with plat := { s.plat with snapctl := rw (2 ^ 12 - 1) value } }
  else if addr = vipostAddr then s.post 0 .vipost [value]
  else if addr = urootAddr then
    (if m = 16 then s.onHub fun h => { h with uroot := rw (2 ^ 48 - 2 ^ 12) value } else s)
  else if addr = mgmtAddr then mgmtWrite m value s
  else if addr = devidAddr then s.post 0 .devidWrite [m, value]
  else
    ((within addr 0xF00000300020 0x1E0).map fun o =>
      if isControlMaster m || m == 16 then faultQueueWrite (o / 32 + 1) (o % 32) value s else s).getD <|
    ((within addr 0xF00000310008 0x78).map fun o =>
      if controls s m (o / 8 + 1) || m == 16 then
        s.onHub fun h => { h with kroot := Map.set 0 h.kroot (o / 8 + 1) (rw (2 ^ 48 - 2 ^ 12) value) }
      else s).getD <|
    ((within addr portBase 0x828).map fun o => if m = 0 then portWrite o value s else s).getD <|
    ((within addr 0xF00000600000 0x400).map fun o =>
      let p := s.part (o / 16)
      if o % 16 = 0 ∧ p.valid ∧ controls s m p.kernel then
        s.setPart (o / 16) { p with root := rw (2 ^ 48 - 2 ^ 12) value }
      else s).getD <|
    ((within addr 0xF00000701008 0x7F8).map fun o =>
      if isControlMaster m then s.onHub fun h => { h with vifbase := Map.set 0 h.vifbase (o / 8 + 1) (word value) }
      else s).getD <|
    ((within addr 0xF00000800000 0xC000).map fun o =>
      if isControlMaster m then
        let mask := if o / 8 % 2 = 0 then 2 ^ 32 - 1 else 2 ^ 54 - 2 ^ 21
        { s with plat := { s.plat with access := Map.set 0 s.plat.access (o / 8) (rw mask value) } }
      else s).getD s

/-- A write of `size` bytes by a master (R8, R9, R215, R230, R392, R443): one of another width or alignment is ignored. -/
def hubWrite (m addr size value : Nat) (s : State) : State :=
  match storeAt addr with
  | some _ => s.post 0 .lsWindowAccess [addr, size, 1, value]
  | none => match counterAt addr with
    | some _ => s.post 0 .counterWindowWrite [addr, size, value]
    | none =>
      match (within addr 0xF00000010000 0x4000).bind fun o => if o % 0x1000 = 0 then some (o / 0x1000) else none with
      | some die => if (size = 4 ∨ size = 8) ∧ addr % size = 0 then replyWrite die (value % 2 ^ 32) s else s
      | none =>
        if size ≠ 8 ∨ addr % 8 ≠ 0 then s
        else match debugAt addr with
          | some (k, off) => if mayDebug s m then debugWrite m k off value s else s
          | none => plainWrite m addr value s

/-- REGISTER_WRITE (R8): a write of a memory-mapped register by a master. -/
def execRegisterWrite (s : State) : Result := .next (hubWrite (s.arg 0) (s.arg 1) (s.arg 2) (s.arg 3) s)

end Sys2Proof.Machine
end

