-- ==== Sys2Proof/Machine/Copy.lean ====
section
/-! DEFINITION. The copy class (chapter 09): the put-and-get queues, counters, every copy-class instruction, the service of
the copy engine, and the translation path with its fault merger. -/

namespace Sys2Proof.Machine

/-! ### Counters (R213, R221, R245) -/

/-- An addition to a counter's VALUE, which wakes the threads parked on the counter (R245). -/
def addCounter (k n v : Nat) (s : State) : State :=
  let s := s.onCore k fun c => { c with kval := Map.set 0 c.kval n (Map.get 0 c.kval n + BitVec.ofNat 32 v) }
  wakeWhere k (fun c => c.parkReason == 2 && bits c.park.toNat 8 24 == n) s

/-! ### Enqueuing (R210) -/

/-- The word that encodes an instruction, as the debug window shows it (R392). -/
def wordOf (i : Instr) : Nat := ((encode i).map (·.2)).getD 0

/-- An enqueue (R210): it waits for its footprint (R224), reports a full queue or counter, or takes an entry. -/
def enqueue (i : Instr) (op : CopyOp) (counter : Option Nat) (pq loc : Nat) (rem lenWord : Word)
    (reads writes : List Bytes) (pops : List Nat) (s : State) : State :=
  let core := s.here
  if !(reads ++ writes).isEmpty && engineWaits core reads writes then stall s
  else
    let outcome :=
      if 32 ≤ core.entries.length then 1
      else if counter.any fun n => Map.get 0 core.kout n == BitVec.allOnes 16 then 2 else 0
    let s := (popReads pops s).onMe fun c =>
      { c.wpOk pq (outcome == 0) with lastOutcome := outcome, lastCounter := counter.getD 0 }
    if outcome ≠ 0 then retire 4 4 s
    else
      let k := s.actor.core
      let (id, s) := s.newId
      let index := nextIndex core
      let e : Entry := {
        id := id
        op := op
        counter := counter
        owner := s.me.handle
        loc := loc
        rem := rem
        lenWord := lenWord
        eff := s.me.eff
        since := s.now
        moved := 0
        state := .waiting
        begun := false
        held := []
        word := wordOf i
        index := index }
      let s := s.onCore k fun c => { c with queue := c.queue ++ [e], dbgIssued := (index + 1) % 32 }
      let s := outstanding k counter true s
      let s := if (reads ++ writes).isEmpty then s else enterFootprint k id s.me.handle reads writes false s
      retire 4 4 (s.post 0 .copyEntryService [k, id])

/-! ### Issue checks -/

/-- The length word: LEN, and whether the word is legal; FULL may be set where `full` says so (R217). -/
def lengthOk (x : Word) (full : Bool) : Bool :=
  bits x.toNat 0 24 != 0 && (bits x.toNat 24 40 == 0 || (full && bits x.toNat 24 40 == 1))

/-- The checks of the length word and of the local side (R217). -/
def checkLocal (x1 : Word) (full : Bool) (lx : Nat) (go : State → State) (s : State) : State :=
  if !lengthOk x1 full then trapE .shapeInvalid x1 s
  else if lsLimit s.actor.core < lx + bits x1.toNat 0 24 then trapE .footprintWrap (word lx) s
  else go s

/-- The check of a linear virtual range (R217). -/
def checkRange (rx : Word) (len : Nat) (go : State → State) (s : State) : State :=
  if 2 ^ 57 ≤ rx.toNat ∨ 2 ^ 57 < rx.toNat + len then trapE .addressNoncanonical rx s else go s

/-- Whether a footprint region gives an access (R43): 1 read, 2 write. -/
def regionGives (r : Word) (access : Nat) : Bool := bits r.toNat 0 2 &&& access == access
/-- log2 of a region's size (R43). -/
def regionLog2 (r : Word) : Nat := bits r.toNat 2 6
/-- A region's base address (R43). -/
def regionBase (r : Word) : Nat := bits r.toNat 8 51 * 64
/-- Whether a region holds a byte. -/
def regionHas (r : Word) (a : Nat) : Bool := a / 2 ^ regionLog2 r == regionBase r / 2 ^ regionLog2 r

/-- The first address of a range that lies in no region with the access, within `n` regions (R358). -/
def firstOutside (regions : List Word) (access hi : Nat) : Nat → Nat → Option Nat
  | 0, a => if a < hi then some a else none
  | n + 1, a =>
    if hi ≤ a then none
    else match regions.find? fun r => regionGives r access && regionHas r a with
      | some r => firstOutside regions access hi n ((a / 2 ^ regionLog2 r + 1) * 2 ^ regionLog2 r)
      | none => some a

/-- The record of the task that a thread runs. -/
def State.taskOf (s : State) (a : Actor) : Option (Nat × Task) :=
  match (s.ctx a).ticket with
  | some tk => match Tbl.get? s.hub.tasks (ticketEntry tk) with
    | some t => if t.actor = some a then some (ticketEntry tk, t) else none
    | none => none
  | none => none

/-- The footprint check of a task's remote ranges, in order, for each access in `accesses` (R358). -/
def checkTask (accesses : List Nat) (ranges : List (Nat × Nat)) (go : State → State) (s : State) : State :=
  match s.taskOf s.actor with
  | none => go s
  | some (_, t) =>
    let out (r : Nat × Nat) : Option Nat :=
      (accesses.filterMap fun a => firstOutside t.regions a (r.1 + r.2) 4 r.1).foldl (fun m x => some (match m with
        | some y => min x y
        | none => x)) none
    match ranges.findSome? out with
    | some a => trapE .taskFootprintInvalid (word a) s
    | none => go s

/-! ### GET, PUT and RPUT (R217, R218) -/

/-- GET and PUT. -/
def linear (i : Instr) (isGet : Bool) (k m b pq : Nat) (s : State) : State :=
  checkRegs (isPq pq) (withOperands [2 * m, 2 * m + 1, b] [] fun x s =>
    let lx := (x.getD 0 0).toNat
    let len := bits (x.getD 1 0).toNat 0 24
    let rx := x.getD 2 0
    let fp := [run lx len]
    checkLocal (x.getD 1 0) false lx (checkRange rx len (checkTask [if isGet then 1 else 2] [(rx.toNat, len)]
      (enqueue i (if isGet then .get len else .put len) (some k) pq lx rx (x.getD 1 0)
        (if isGet then [] else fp) (if isGet then fp else []) [2 * m, 2 * m + 1, b]))) s) s

/-- GET (R217). -/
def execGet (k m b q : Nat) (s : State) : Result := .next (linear (.get k m b q) true k m b q s)
/-- PUT (R217). -/
def execPut (k m b q : Nat) (s : State) : Result := .next (linear (.put k m b q) false k m b q s)

/-- The byte offset that a window names (R218). -/
def winOffset (w : Nat) : Nat := bits w 0 21
/-- The device that a window names. -/
def winDevice (w : Nat) : Nat := bits w 33 14
/-- The core of this device that a window's CORE, DIE and HUB name. -/
def winCore (w : Nat) : Option Nat := coreOfFields (bits w 21 10) (bits w 31 2) (bits w 47 1 == 1)
/-- The local-store limit of the core that a window names. -/
def winLimit (w : Nat) : Nat := if bits w 47 1 = 1 then 2 ^ 21 else 2 ^ 18

/-- CheckWindow (R218, R246) of `n` bytes: COPY_DESTINATION_INVALID, then PARTITION_FENCE. -/
def checkWindow (w : Word) (n : Nat) (full : Bool) (go : State → State) (s : State) : State :=
  let x := w.toNat
  let mine := winDevice x == s.plat.devid
  let noCore := mine && match winCore x with
    | some k => k == s.actor.core
    | none => true
  if 2 ^ 48 ≤ x ∨ noCore = true ∨ winLimit x < winOffset x + n ∨ (full = true ∧ (winOffset x % 4 ≠ 0 ∨ n % 4 ≠ 0)) then
    trapE .copyDestinationInvalid w s
  else if mine && !(winCore x).any (s.mayName s.actor.core) then trapE .partitionFence w s
  else go s

/-- RPUT (R218). -/
def execRput (k m b q : Nat) (s : State) : Result :=
  .next (checkRegs (isPq q) (specPark (withOperands [2 * m, 2 * m + 1, b] [] fun x s =>
    let lx := (x.getD 0 0).toNat
    let len := bits (x.getD 1 0).toNat 0 24
    let full := (x.getD 1 0).getLsbD 24
    let w := x.getD 2 0
    checkLocal (x.getD 1 0) true lx (checkWindow w len full
      (enqueue (.rput k m b q) (.rput len full) (some k) q lx w (x.getD 1 0) [run lx len] []
        [2 * m, 2 * m + 1, b])) s)) s)

/-! ### GETS and PUTS (R40, R41, R219) -/

/-- The rows of a shaped copy, in order: remote start, local start. -/
def shapeRows (n1 n2 : Nat) (rbase : Nat) (s1 s2 : Int) (lbase p : Nat) : List (Int × Nat) :=
  (List.range (n1 * n2)).map fun r => ((rbase : Int) + (r % n1 : Nat) * s1 + (r / n1 : Nat) * s2, lbase + r * p)

/-- The first element of a row of `n0` elements with a byte outside the address space: its address (R219). -/
def rowOutside (z n0 : Nat) (start : Int) : Option Word :=
  if start < 0 then some (BitVec.ofInt 64 start)
  else if 2 ^ 57 < start + ((n0 * z : Nat) : Int) then
    some (word (start.toNat + (2 ^ 57 - start.toNat) / z * z))
  else none

/-- The first misaligned address of a row: the remote side, then the local side. -/
def rowMisaligned (z : Nat) (r : Int × Nat) : Option Word :=
  if r.1.toNat % z ≠ 0 then some (word r.1.toNat) else if r.2 % z ≠ 0 then some (word r.2) else none

/-- GETS and PUTS. (DEDUCED, log entry 23.) -/
def shaped (i : Instr) (isGet : Bool) (k m pq j zc : Nat) (s : State) : State :=
  checkRegs (isPq pq) (withOperands [2 * m, 2 * m + 1] [] fun x s =>
    let e0 := (s.me.re (2 * j)).toNat
    let e1 := (s.me.re (2 * j + 1)).toNat
    let z := 2 ^ zc
    let n0 := bits e0 0 16 + 1
    let n1 := bits e0 16 16 + 1
    let n2 := bits e0 32 16 + 1
    let pitch := 16 * bits e0 48 16
    let p := if pitch = 0 then n0 * z else pitch
    let lbase := (x.getD 0 0).toNat
    let s1 := signedNat 32 (bits e1 0 32)
    let s2 := signedNat 32 (bits e1 32 32)
    let rows := shapeRows n1 n2 (x.getD 1 0).toNat s1 s2 lbase p
    if pitch ≠ 0 ∧ pitch < n0 * z then trapOpen .shapeInvalid s
    else if lsLimit s.actor.core < lbase + (n1 * n2 - 1) * p + n0 * z then trapOpen .footprintWrap s
    else match rows.findSome? fun r => rowOutside z n0 r.1 with
      | some a => trapE .addressNoncanonical a s
      | none => match rows.findSome? (rowMisaligned z) with
        | some a => trapE .shapeInvalid a s
        | none =>
          let fp : List Bytes := [⟨lbase, n0 * z, p, n1 * n2⟩]
          let op : CopyOp := if isGet then .gets z n0 n1 n2 p s1 s2 else .puts z n0 n1 n2 p s1 s2
          checkTask [if isGet then 1 else 2] (rows.map fun r => (r.1.toNat, n0 * z))
            (enqueue i op (some k) pq lbase (x.getD 1 0) 0 (if isGet then [] else fp) (if isGet then fp else [])
              [2 * m, 2 * m + 1]) s) s

/-- GETS (R219). -/
def execGets (k m p jj z : Nat) (s : State) : Result := .next (shaped (.gets k m p jj z) true k m p jj z s)
/-- PUTS (R219). -/
def execPuts (k m p jj z : Nat) (s : State) : Result := .next (shaped (.puts k m p jj z) false k m p jj z s)

/-! ### GAMO (R220) -/

/-- GAMO.op; W 0 is 32 bits, 1 is 64 bits. -/
def gamo (i : Instr) (op k m t w pq : Nat) (s : State) : State :=
  checkRegs (isPq pq) (specPark (withOperands [2 * m, 2 * m + 1, 2 * t] [] fun x s =>
    let a := x.getD 0 0
    let n := if w = 0 then 4 else 8
    let lr := (x.getD 2 0).toNat
    if 2 ^ 57 ≤ a.toNat then trapE .addressNoncanonical a s
    else if a.toNat % n ≠ 0 then trapE .globalAmoMisaligned a s
    else if lsLimit s.actor.core < lr + n then trapE .footprintWrap (x.getD 2 0) s
    else if lr % n ≠ 0 then lsMisaligned lr s
    else checkTask [1, 2] [(a.toNat, n)]
      (enqueue i (.gamo op (w != 0) ((x.getD 1 0).toNat % 2 ^ (8 * n))) (some k) pq lr a 0 [] [run lr n]
        [2 * m, 2 * m + 1, 2 * t]) s)) s

/-- GAMO.ADD (R220). -/
def execGamoAdd (k m t w q : Nat) (s : State) : Result := .next (gamo (.gamoAdd k m t w q) 0 k m t w q s)
/-- GAMO.AND (R220). -/
def execGamoAnd (k m t w q : Nat) (s : State) : Result := .next (gamo (.gamoAnd k m t w q) 1 k m t w q s)
/-- GAMO.OR (R220). -/
def execGamoOr (k m t w q : Nat) (s : State) : Result := .next (gamo (.gamoOr k m t w q) 2 k m t w q s)
/-- GAMO.XOR (R220). -/
def execGamoXor (k m t w q : Nat) (s : State) : Result := .next (gamo (.gamoXor k m t w q) 3 k m t w q s)
/-- GAMO.MIN (R220). -/
def execGamoMin (k m t w q : Nat) (s : State) : Result := .next (gamo (.gamoMin k m t w q) 4 k m t w q s)
/-- GAMO.MAX (R220). -/
def execGamoMax (k m t w q : Nat) (s : State) : Result := .next (gamo (.gamoMax k m t w q) 5 k m t w q s)
/-- GAMO.MINN (R220). -/
def execGamoMinn (k m t w q : Nat) (s : State) : Result := .next (gamo (.gamoMinn k m t w q) 6 k m t w q s)
/-- GAMO.MAXN (R220). -/
def execGamoMaxn (k m t w q : Nat) (s : State) : Result := .next (gamo (.gamoMaxn k m t w q) 7 k m t w q s)
/-- GAMO.SWAP (R220). -/
def execGamoSwap (k m t w q : Nat) (s : State) : Result := .next (gamo (.gamoSwap k m t w q) 8 k m t w q s)

/-! ### KADD, KSET, KREAD, TIERPF and QSTAT -/

/-- The device that a counter or message name carries (R214). -/
def nameDevice (w : Nat) : Nat := bits w 18 14
/-- The core of this device that a counter or message name carries. -/
def nameCore (w : Nat) : Option Nat := coreOfFields (bits w 6 10) (bits w 16 2) (bits w 32 1 == 1)

/-- KADD (R221). -/
def execKadd (a b q : Nat) (s : State) : Result :=
  .next (checkRegs (isPq q) (specPark (withOperands [a, b] [] fun x s =>
    let w := x.getD 0 0
    let n := w.toNat
    let mine := nameDevice n == s.plat.devid
    if 2 ^ 33 ≤ n ∨ (bits n 32 1 = 1 ∧ bits n 16 2 ≠ 0) ∨ (mine = true ∧ (nameCore n).isNone) then
      trapE .counterIndex w s
    else if mine && !(nameCore n).any (s.mayName s.actor.core) then trapE .partitionFence w s
    else enqueue (.kadd a b q) (.kadd (bits (x.getD 1 0).toNat 0 32)) none q 0 w 0 [] [] [a, b] s)) s)

/-- KSET (R221): VALUE is written, and its change wakes the counter's waiters (R245). -/
def execKset (k r : Nat) (s : State) : Result :=
  .next (specPark (withOperands [r] [] fun x s =>
    let s := s.setHere { s.here with kval := Map.set 0 s.here.kval k ((x.getD 0 0).setWidth 32) }
    retire 4 4 (popReads [r] (addCounter s.actor.core k 0 s))) s)

/-- KREAD (R221). -/
def execKread (k r : Nat) (s : State) : Result :=
  .next (compute 4 4 [] r (fun _ => word (counterWord s.here k)) s)

/-- TIERPF (R222). -/
def execTierpf (k m r q : Nat) (s : State) : Result :=
  .next (checkRegs (isPq q) (specPark (withOperands [2 * m, 2 * m + 1] [] fun x s =>
    let len := bits (x.getD 1 0).toNat 0 24
    if !lengthOk (x.getD 1 0) false then trapE .shapeInvalid (x.getD 1 0) s
    else checkRange (x.getD 0 0) len
      (enqueue (.tierpf k m r q) (.tierpf len r) (some k) q 0 (x.getD 0 0) (x.getD 1 0) [] []
        [2 * m, 2 * m + 1]) s)) s)

/-- The queue status of the acting thread (R223). -/
def qstatWord (s : State) : Nat :=
  let es := s.here.entries
  let c := s.me
  (32 - es.length) + 2 ^ 8 * c.lastOutcome + 2 ^ 16 * c.lastCounter
    + 2 ^ 24 * (es.filter fun e => e.owner == c.handle).length

/-- QSTAT (R223). -/
def execQstat (d : Nat) (s : State) : Result := .next (compute 4 4 [] d (fun _ => word (qstatWord s)) s)

/-! ### The end of an entry (R211, R226) -/

/-- A queue entry changed. -/
def onEntry (k id : Nat) (f : Entry → Entry) (s : State) : State :=
  s.onCore k fun c => { c with queue := c.queue.map fun e => if e.id = id then f e else e }

/-- An entry completes: OUTSTANDING falls and VALUE rises, as one step (R211). -/
def completeEntry (k id : Nat) (s : State) : State :=
  match s.entry? k id with
  | some e =>
    let s := removeEntry k id (outstanding k e.counter false s)
    match e.counter with
    | some n => addCounter k n 1 s
    | none => s
  | none => s

/-- The access of a failed operation's record (R226). -/
def accessOf (op : CopyOp) : Nat :=
  match op with
  | .get _ | .gets .. => 0
  | .put _ | .puts .. | .rput .. => 1
  | .gamo .. | .kadd _ => 2
  | .tierpf .. => 5
  | .iflush .. => 9

/-- Whether an operation is one of the puts that a task's commit performs (R356). -/
def CopyOp.isPut (op : CopyOp) : Bool :=
  match op with
  | .put _ | .puts .. => true
  | _ => false

/-- An entry that has failed waits for its end (R226). -/
def failEntry (k id : Nat) (r : Reason) (xval : Word) (s : State) : State :=
  let frame := faultFrame s (clusterOf k) (s.spaceOf k) xval.toNat r
  (onEntry k id (fun e => { e with state := .failed (causeCode .remote r) xval frame }) s).post 0 .copyEntryFail [k, id]

/-- COPY_ENTRY_COMPLETE (R211): once the entry is performed and its footprint has retired. -/
def execCopyEntryComplete (s : State) : Result :=
  let k := s.arg 0
  let id := s.arg 1
  .next (match s.entry? k id with
    | some e =>
      if e.state = .performed then
        if (s.core k).prints.any fun f => f.id == id then s.post 1 .copyEntryComplete s.args else completeEntry k id s
      else s
    | none => s)

/-- COPY_ENTRY_FAIL (R226): OUTSTANDING falls, VALUE stays, and the issuing thread has the cause pending, or the kernel a
record. -/
def execCopyEntryFail (s : State) : Result :=
  let k := s.arg 0
  let id := s.arg 1
  .next (match s.entry? k id with
    | some e => match e.state with
      | .failed cause xval frame =>
        let s := removeEntry k id (outstanding k e.counter false s)
        let s := s.onCore k fun c => { c with prints := c.prints.filter fun f => f.id != id }
        pendCause e.owner k ⟨cause, xval, accessOf e.op, frame⟩ s
      | _ => s
    | none => s)

/-- FOOTPRINT_RETIRE (R202): the parts that are done retire; a footprint with none left is gone. -/
def execFootprintRetire (s : State) : Result :=
  let left (f : Footprint) : Option Footprint :=
    if f.id ≠ s.arg 1 then some f
    else
      let reads := if f.readDone then [] else f.reads
      let writes := if f.writeDone then [] else f.writes
      if reads.isEmpty && writes.isEmpty then none else some { f with reads := reads, writes := writes }
  .next (s.onCore (s.arg 0) fun c => { c with prints := c.prints.filterMap left })

/-! ### Moving bytes -/

/-- Why a move of bytes stops. -/
inductive Halt where
  /-- The address is in no cached translation. -/
  | miss (va : Nat)
  /-- The access fails. -/
  | fault (r : Reason) (va : Nat)
  /-- The read set of a speculative task, or the commit buffer, has no room (R359, R365), the link is closed (R414), or the
  stack accepts no command (R437). -/
  | room
  deriving DecidableEq, Repr

/-- The physical address under an address's cached translation, for an access (R227, R228, R406). -/
def cachedAt (s : State) (g space va need : Nat) : Except Halt (Nat × TlbEntry) :=
  match s.cached g space va with
  | none => .error (.miss va)
  | some e =>
    let pa := e.physOf va
    if !permits e need then .error (.fault .pagePermission va)
    else if e.device = s.plat.devid ∧ s.refuses (s.spaceKernel space) (frameOf pa) = true ∧ space ≠ 80 then
      .error (.fault .deedRevoked va)
    else if (e.device ≠ s.plat.devid ∧ s.linkAllowed space = false) ∨ shutUnder s e pa = true then .error .room
    else .ok (pa, e)

/-- Every posted task, those of switched-out tenants included (R366). -/
def allTasks (h : Hub) : List (Nat × Task) := h.tasks ++ h.saved.flatMap (·.tasks)

/-- How many read-set granules are in use (R359). -/
def readSetSize (s : State) : Nat := (allTasks s.hub).foldl (fun n t => n + t.2.readSet.length) 0

/-- The name of the 64-byte granule of a page, on whichever device its home is. -/
def granuleOf (s : State) (e : TlbEntry) (pa : Nat) : Nat :=
  pa / 64 + (if e.device = s.plat.devid then 0 else 2 ^ 42 * (e.device + 1))

/-- A granule that a speculative task reads at a home enters its read set; none where there is no room (R359). -/
def noteRead (task : Option Nat) (e : TlbEntry) (pa : Nat) (s : State) : Option State :=
  match task with
  | none => some s
  | some t => match Tbl.get? s.hub.tasks t with
    | none => some s
    | some u =>
      let grain := granuleOf s e pa
      if oldestTask s.hub.tasks u.part = some t ∨ inHub pa = true ∨ u.readSet.contains grain = true then some s
      else if 262144 ≤ readSetSize s then none
      else some (s.onHub fun h => { h with tasks := Tbl.put h.tasks t { u with readSet := u.readSet ++ [grain] } })

/-- The byte that a task's own earlier held puts hold at an address, the latest one (R257, R356). -/
def heldByte (s : State) (task : Option Nat) (id va : Nat) : Option Byte :=
  match task.bind (Tbl.get? s.hub.tasks ·) with
  | none => none
  | some t =>
    let pieces := (t.puts.filter fun p => decide (p.2 < id)).flatMap fun p => ((s.entry? p.1 p.2).map (·.held)).getD []
    (pieces.reverse.find? fun h => decide (h.1 ≤ va) && decide (va < h.1 + h.2.length)).bind fun h => h.2[va - h.1]?

/-- Bytes copied in from `va` to the local address `la`, ascending: how many are left, and why. (DEDUCED, log entry 24.) -/
def copyIn (k g space id : Nat) (task : Option Nat) : Nat → Nat → Nat → State → Nat × Option Halt × State
  | 0, _, _, s => (0, none, s)
  | n + 1, va, la, s =>
    match cachedAt s g space va 1 with
    | .error h => (n + 1, some h, s)
    | .ok (pa, e) => match noteRead task e pa s with
      | none => (n + 1, some .room, s)
      | some s => match readThrough s e pa with
        | (.error r, s) => (n + 1, some (.fault r va), s)
        | (.ok b, s) =>
          if (s.core k).lsBad.contains (la / 4) then (n + 1, some (.fault .lsUncorrectable va), s)
          else
            let b := (heldByte s task id va).getD b
            copyIn k g space id task n (va + 1) (la + 1)
              (s.onCore k fun c => { c with ls := Map.set 0 c.ls la b })

/-- Bytes copied out from the local address `la` to `va`, ascending, as part of a write of `lo` up to `hi`. -/
def copyOut (k g space lo hi : Nat) : Nat → Nat → Nat → State → Nat × Option Halt × State
  | 0, _, _, s => (0, none, s)
  | n + 1, va, la, s =>
    match cachedAt s g space va 2 with
    | .error h => (n + 1, some h, s)
    | .ok (pa, e) =>
      if (s.core k).lsBad.contains (la / 4) then (n + 1, some (.fault .lsUncorrectable va), s)
      else
        let w := va / 8 * 8
        let whole := decide (lo ≤ w) && decide (w + 8 ≤ hi) && ((s.core k).badWord (la - (va - w)) 8).isNone
        match writeThrough s e pa whole (Map.get 0 (s.core k).ls la) with
        | (some r, s) => (n + 1, some (.fault r va), s)
        | (none, s) => copyOut k g space lo hi n (va + 1) (la + 1) s

/-- The runs of an entry: remote start, local start, bytes. -/
def runsOf (e : Entry) : List (Nat × Nat × Nat) :=
  match e.op with
  | .get len | .put len | .rput len _ => [(e.rem.toNat, e.loc, len)]
  | .gets z n0 n1 n2 p s1 s2 | .puts z n0 n1 n2 p s1 s2 =>
    (shapeRows n1 n2 e.rem.toNat s1 s2 e.loc p).map fun r => (r.1.toNat, r.2, n0 * z)
  | _ => []

/-- The runs that are still to be moved after `n` bytes. -/
def runsAfter : Nat → List (Nat × Nat × Nat) → List (Nat × Nat × Nat)
  | _, [] => []
  | n, (v, l, m) :: rs => if m ≤ n then runsAfter (n - m) rs else (v + n, l + n, m - n) :: rs

/-- Runs moved in order until one stops: the bytes moved, and why it stopped. -/
def moveRuns (move : Nat → Nat → Nat → State → Nat × Option Halt × State) :
    List (Nat × Nat × Nat) → State → Nat × Option Halt × State
  | [], s => (0, none, s)
  | (v, l, m) :: rs, s =>
    match move m v l s with
    | (left, some h, s) => (m - left, some h, s)
    | (_, none, s) =>
      let (n, h, s) := moveRuns move rs s
      (m + n, h, s)

/-- An address in each 64 KiB page that a range touches. -/
def pageSpots (x : Nat × Nat) : List Nat :=
  (List.range ((x.1 + x.2 - 1) / 2 ^ 16 - x.1 / 2 ^ 16 + 1)).map fun i => max x.1 ((x.1 / 2 ^ 16 + i) * 2 ^ 16)

/-! ### Faults of entries (R226, R228, R230) -/

/-- A walk, or a fault on its way to the merger, begins. -/
def beginWalk (w : Walk) (step : Instr) (s : State) : State :=
  let (id, s) := s.newId
  State.post { s with walks := Tbl.put s.walks id w } 0 step [id]

/-- An entry of a core's queue stops as its move did: a walk, a stall, a wait for room, or a failure. -/
def haltEntry (k : Nat) (e : Entry) (h : Halt) (s : State) : State :=
  let space := s.spaceOf k
  match h with
  | .room => s.post 1 .copyEntryService [k, e.id]
  | .miss va =>
    beginWalk ⟨.entry k e.id, space, word va, accessOf e.op, none, 0⟩ .translationWalk
      (onEntry k e.id (fun e => { e with state := .walking }) s)
  | .fault r va =>
    if isStalling r && space != 80 then
      beginWalk ⟨.entry k e.id, space, word va, accessOf e.op, some (causeCode .access r), 0⟩ .translationFaultStall
        (onEntry k e.id (fun e => { e with state := .stalled }) s)
    else failEntry k e.id r (word va) s

/-- An entry has been performed: its footprint retires and it completes. -/
def performEntry (k id : Nat) (s : State) : State :=
  (finishFootprint k id true true (onEntry k id (fun e => { e with state := .performed }) s)).post 0
    .copyEntryComplete [k, id]

/-- The single-bit errors in the local words of the first `n` bytes of runs, corrected (R183). -/
def correctRuns (k : Nat) : Nat → List (Nat × Nat × Nat) → State → State
  | _, [], s => s
  | n, r :: rs, s => correctRuns k (n - r.2.2) rs (correctSingles k r.2.1 (min n r.2.2) s)

/-- What a service of an entry has done: bytes moved so far, their single-bit errors corrected, and the reason to stop. -/
def settle (k : Nat) (e : Entry) (r : Nat × Option Halt × State) : State :=
  let s := correctRuns k r.1 (runsAfter e.moved (runsOf e)) r.2.2
  let s := onEntry k e.id (fun e => { e with moved := e.moved + r.1 }) s
  match r.2.1 with
  | none => performEntry k e.id s
  | some h => haltEntry k e h s

/-! ### Acknowledgements (R234) -/

/-- An operation has left the core: its thread counts it as unacknowledged. -/
def leave (owner id dest : Nat) (s : State) : State :=
  match s.ownerOf owner with
  | some a => s.onCtx a fun c => { c with unacked := c.unacked ++ [⟨id, dest⟩] }
  | none => s

/-- An acknowledgement on its way back to the thread. -/
def acknowledge (owner id src : Nat) (s : State) : State :=
  match s.ownerOf owner with
  | some a => s.send .control src a.core 0 (.ack a id) .remoteAcknowledgement
  | none => s

/-- REMOTE_ACKNOWLEDGEMENT (R234): the count falls; MIGRATE may go on at 0 (R144). -/
def execRemoteAcknowledgement (s : State) : Result :=
  .next (onFlight .remoteAcknowledgement (fun f s => match f.payload with
    | .ack a id => some (s.onCtx a fun c =>
        let c := { c with unacked := c.unacked.filter fun u => u.id != id }
        if c.unacked.isEmpty && c.parkReason == 9 && c.wait.any (fun w => w.key == migrateKey) then unpark s.now c else c)
    | _ => none) s)

/-! ### The service of each operation (R209) -/

/-- Whether an aligned 4-byte or 8-byte GET or PUT of a hub core, which its leaf permits, is one register access (R228,
R421). -/
def registerAccess (s : State) (k : Nat) (e : Entry) (len need : Nat) : Option Nat :=
  if isHub k ∧ (len = 4 ∨ len = 8) ∧ e.rem.toNat % len = 0 then
    match s.cached (clusterOf k) (s.spaceOf k) e.rem.toNat with
    | some t => if permits t need ∧ t.device = s.plat.devid ∧ inHub (t.physOf e.rem.toNat) = true then some (t.physOf e.rem.toNat) else none
    | none => none
  else none

/-- Whether an earlier put of the task still has to reach the commit buffer (R257). -/
def awaitsPuts (s : State) (k : Nat) (e : Entry) : Bool :=
  (s.core k).entries.any fun p => p.owner == e.owner && decide (p.id < e.id) && p.op.isPut
    && match p.state with
      | .failed _ _ _ | .performed => false
      | _ => true

/-- The service of a GET or GETS. -/
def serviceGet (k : Nat) (e : Entry) (task : Option Nat) (s : State) : State :=
  if task.isSome && awaitsPuts s k e then s.post 1 .copyEntryService [k, e.id]
  else
    settle k e (moveRuns (copyIn k (clusterOf k) (s.spaceOf k) e.id task) (runsAfter e.moved (runsOf e)) s)

/-- A GET of a hub register (R421). -/
def getRegister (k : Nat) (e : Entry) (len pa : Nat) (s : State) : State :=
  match (s.core k).badWord e.loc len with
  | some _ => failEntry k e.id .lsUncorrectable e.rem s
  | none =>
    let x := hubRead s (masterOf k) pa len
    performEntry k e.id ((correctSingles k e.loc len (readCorrects pa len s)).onCore k fun c => c.lsWrite e.loc len x)

/-- A PUT of a hub register (R421). -/
def putRegister (k : Nat) (e : Entry) (len pa : Nat) (s : State) : State :=
  match (s.core k).badWord e.loc len with
  | some _ => failEntry k e.id .lsUncorrectable e.rem s
  | none =>
    performEntry k e.id (hubWrite (masterOf k) pa len ((s.core k).lsRead e.loc len) (correctSingles k e.loc len s))

/-- The service of a PUT or PUTS outside a task. -/
def servicePut (k : Nat) (e : Entry) (s : State) : State :=
  let runs := runsOf e
  let move (m v l : Nat) (s : State) : Nat × Option Halt × State :=
    let r := (runs.find? fun r => decide (r.1 ≤ v) && decide (v + m ≤ r.1 + r.2.2) && l - r.2.1 == v - r.1).getD (v, l, m)
    copyOut k (clusterOf k) (s.spaceOf k) r.1 (r.1 + r.2.2) m v l s
  settle k e (moveRuns move (runsAfter e.moved runs) s)

/-- The first address of a run that its translation does not let a put write. -/
def putHalt (s : State) (g space : Nat) : Nat → Nat → Option Halt
  | 0, _ => none
  | n + 1, va => match cachedAt s g space va 2 with
    | .error h => some h
    | .ok _ => putHalt s g space n (va + 1)

/-- The granules that the pieces of a held put take in the commit buffer: pieces that share one take it once (R365; that two
held puts do not share one is a DESIGN CHOICE, log entry 56). -/
def granules (held : List (Nat × List Byte)) : Nat :=
  (held.flatMap fun h =>
    if h.2.isEmpty then [] else (List.range ((h.1 + h.2.length - 1) / 64 - h.1 / 64 + 1)).map (h.1 / 64 + ·)).eraseDups.length

/-- The granules in use in the commit buffer; held puts of switched-out tenants stay there (R366). -/
def bufferSize (s : State) : Nat :=
  let queues := s.cores.map (·.2.queue) ++ s.hub.saved.flatMap fun v => v.cores.map (·.image.queue)
  queues.foldl (fun n q => q.foldl (fun n e => if e.state = .heldPut then n + granules e.held else n) n) 0

/-- A held put among those of its task, in the order of their issue (R356, R360). -/
def insertPut (p : Nat × Nat) (puts : List (Nat × Nat)) : List (Nat × Nat) :=
  puts.filter (fun x => decide (x.2 < p.2)) ++ p :: puts.filter fun x => !decide (x.2 < p.2)

/-- The service of a PUT or PUTS of task `t`: its bytes enter the commit buffer (R356, R365). A lack of room for the
oldest task aborts others (R364). -/
def serviceHeld (k : Nat) (e : Entry) (t : Nat) (s : State) : State :=
  let runs := runsOf e
  match runs.findSome? fun r => putHalt s (clusterOf k) (s.spaceOf k) r.2.2 r.1 with
  | some h => haltEntry k e h s
  | none => match runs.findSome? fun r => ((s.core k).badWord r.2.1 r.2.2).map fun w => (r.1 + (w - r.2.1)) with
    | some va => failEntry k e.id .lsUncorrectable (word va) s
    | none =>
      let held := runs.map fun r => (r.1, getBytes (s.core k).ls r.2.1 r.2.2)
      let isOldest := (Tbl.get? s.hub.tasks t).any fun u => oldestTask s.hub.tasks u.part == some t
      if 419430 < bufferSize s + granules held then
        let s := s.post 1 .copyEntryService [k, e.id]
        if isOldest then s.post 0 .roomAbort [((Tbl.get? s.hub.tasks t).map (·.part)).getD 0] else s
      else
        let s := onEntry k e.id (fun e => { e with state := .heldPut, held := held }) s
        let s := runs.foldl (fun s r => correctSingles k r.2.1 r.2.2 s) s
        let s := s.onHub fun h => { h with tasks := Tbl.adjust h.tasks t fun u => { u with puts := insertPut (k, e.id) u.puts } }
        finishFootprint k e.id true true s

/-- The service of an RPUT (R218): its data is sent, up to the first word that cannot be read (R183); with FULL, whole words of
the destination alone, since each is written with its state (R206; DEDUCED, log entry 12). -/
def serviceRput (k : Nat) (e : Entry) (len : Nat) (full : Bool) (s : State) : State :=
  let w := e.rem.toNat
  let core := s.core k
  let n := match core.badWord e.loc len with
    | some b => b - e.loc
    | none => len
  let s := correctSingles k e.loc n s
  let bytes := getBytes core.ls e.loc (if full then n / 4 * 4 else n)
  let bad := (core.badWord e.loc len).isSome
  if winDevice w ≠ s.plat.devid then
    if s.linkAllowed (s.spaceOf k) = false then s.post 1 .copyEntryService [k, e.id]
    else match remoteFailure s (winDevice w) with
    | some r => failEntry k e.id r e.rem s
    | none =>
      if (winCore w).isNone then failEntry k e.id .remoteDenied e.rem s
      else if bad then failEntry k e.id .lsUncorrectable (e.rem + word n) s
      else acknowledge e.owner e.id k (leave e.owner e.id (elsewhere + winDevice w) (performEntry k e.id s))
  else match winCore w with
    | none => failEntry k e.id .remoteDenied e.rem s
    | some dst =>
      let sent (s : State) : State := s.send .data k dst e.owner (.rput k e.id (winOffset w) bytes full) .rputWrite
      if bad then
        failEntry k e.id .lsUncorrectable (e.rem + word n) (if bytes.isEmpty then s else sent s)
      else
        let s := leave e.owner e.id dst s
        sent (finishFootprint k e.id true true (onEntry k e.id (fun e => { e with state := .sent }) s))

/-- The service of a KADD (R221): the increment leaves the core and the entry is freed (R209). -/
def serviceKadd (k : Nat) (e : Entry) (v : Nat) (s : State) : State :=
  let w := e.rem.toNat
  if nameDevice w ≠ s.plat.devid then
    if s.linkAllowed (s.spaceOf k) = false then s.post 1 .copyEntryService [k, e.id]
    else match remoteFailure s (nameDevice w) with
    | some r => failEntry k e.id r e.rem s
    | none =>
      if (nameCore w).isNone then failEntry k e.id .remoteDenied e.rem s
      else acknowledge e.owner e.id k (leave e.owner e.id (elsewhere + nameDevice w) (removeEntry k e.id s))
  else match nameCore w with
    | none => failEntry k e.id .remoteDenied e.rem s
    | some dst =>
      removeEntry k e.id
        ((leave e.owner e.id dst s).send .counter k dst e.owner (.increment k e.id (bits w 0 6) v) .counterIncrement)

/-- Bytes of a page of another device, free values. -/
def fabricNat : Nat → State → Nat × State
  | 0, s => (0, s)
  | n + 1, s =>
    let b := (Config.fabricByte s.fresh).toNat
    let (x, s) := fabricNat n { s with fresh := s.fresh + 1 }
    (b + 256 * x, s)

/-- The old value of a GAMO's word, and the state after the atomic at its home (R220). -/
def gamoHome (t : TlbEntry) (pa n op b : Nat) (s : State) : Except Reason Nat × State :=
  if t.device ≠ s.plat.devid then
    match remoteFailure s t.device with
    | some r => (.error r, s)
    | none =>
      let (x, s) := fabricNat n s
      (.ok x, s)
  else if inHub pa then (.ok 0, s)
  else if (s.physBad pa n).isSome then (.error .dramUncorrectable, s)
  else
    let old := s.physRead pa n
    (.ok old, s.physPut pa (bytesOfNat n (atomicOp op n old b)))

/-- The service of a GAMO (R220). -/
def serviceGamo (k : Nat) (e : Entry) (op : Nat) (wide : Bool) (b : Nat) (s : State) : State :=
  let n := if wide then 8 else 4
  match cachedAt s (clusterOf k) (s.spaceOf k) e.rem.toNat 3 with
  | .error h => haltEntry k e h s
  | .ok (pa, t) =>
    let s := leave e.owner e.id elsewhere s
    match gamoHome t pa n op b s with
    | (.error r, s) => acknowledge e.owner e.id k (failEntry k e.id r e.rem s)
    | (.ok old, s) =>
      let s := acknowledge e.owner e.id k s
      match (s.core k).badWord e.loc n with
      | some _ => failEntry k e.id .lsUncorrectable e.rem s
      | none => performEntry k e.id ((correctSingles k e.loc n s).onCore k fun c => c.lsWrite e.loc n old)

/-- A put whose thread's task has been discarded or aborted: it is dropped (R362). -/
def isOrphan (s : State) (e : Entry) : Bool :=
  e.op.isPut && match s.ownerOf e.owner with
    | some a => (s.ctx a).ticket.isSome && (s.taskOf a).isNone
    | none => false

/-- The service of an entry by its copy engine. -/
def serviceEntry (k : Nat) (e : Entry) (s : State) : State :=
  let s := onEntry k e.id (fun e => { e with begun := true }) s
  let task := ((s.ownerOf e.owner).bind s.taskOf).map (·.1)
  if isOrphan s e then
    (dropHeld k e.id s).onCore k fun c => { c with prints := c.prints.filter fun f => f.id != e.id }
  else match e.op with
    | .get len => match registerAccess s k e len 1 with
      | some pa => getRegister k e len pa s
      | none => serviceGet k e task s
    | .gets .. => serviceGet k e task s
    | .put len => match registerAccess s k e len 2, task with
      | some pa, _ => putRegister k e len pa s
      | none, some t => serviceHeld k e t s
      | none, none => servicePut k e s
    | .puts .. => match task with
      | some t => serviceHeld k e t s
      | none => servicePut k e s
    | .rput len full => serviceRput k e len full s
    | .gamo op wide b => serviceGamo k e op wide b s
    | .kadd v => serviceKadd k e v s
    | .tierpf .. => (onEntry k e.id (fun e => { e with state := .sent }) s).post 0 .tierMigratePage [k, e.id]
    | .iflush .. => (onEntry k e.id (fun e => { e with state := .sent }) s).post 0 .iflushComplete [k, e.id]

/-- The entries that the copy engine of a core's cluster may serve: waiting, and the earliest waiting one of its thread
(R132, R209, R233). A frozen core's engine stops between entries (R393). -/
def waitingEntries (s : State) (k : Nat) : List (Nat × Entry) :=
  (s.cores.filter fun c => clusterOf c.1 == clusterOf k).flatMap fun c =>
    (c.2.queue.filter fun e => decide (e.state = .waiting) && (e.begun || !c.2.dbgCtl.getLsbD 0) &&
      !(c.2.queue.any fun o => decide (o.state = .waiting) && o.owner == e.owner && decide (o.id < e.id))).map
      fun e => (c.1, e)

/-- COPY_ENTRY_SERVICE (R132, R209): the copy engine serves the best waiting entry. -/
def execCopyEntryService (s : State) : Result :=
  let best := (waitingEntries s (s.arg 0)).foldl (fun b e => match b with
    | none => some e
    | some o =>
      let x := serviceEff s.now e.2
      let y := serviceEff s.now o.2
      if y < x ∨ (x = y ∧ (e.2.since < o.2.since ∨ (e.2.since = o.2.since ∧ e.2.id < o.2.id))) then some e else some o)
    none
  .next (match best with
    | some e => serviceEntry e.1 e.2 s
    | none => s)

end Sys2Proof.Machine
end

