-- ==== Sys2Proof/Machine/Faults.lean ====
section
/-! DEFINITION. Walks, the fault merger and its replies (R227 to R231), fault records written to their rings (R375, R408),
what a queue slot keeps (R333 to R335, R343, R344), and the arrivals of the copy class. -/

namespace Sys2Proof.Machine

/-! ### Faults on their way to the merger -/

/-- A stalling fault of a waiter on its way to the merger (R230). -/
def stallFault (w : Waiter) (space va access : Nat) (r : Reason) (s : State) : State :=
  beginWalk ⟨w, space, word va, access, some (causeCode .access r), deedFrame s space va r⟩ .translationFaultStall s

/-! ### Queues in hardware slots -/

/-- A write of MSIDATA to MSIADDR: an interrupt goes out. The hub performs no access at an address in no range (R13). -/
def postMsi (addr data : Nat) (s : State) : State :=
  if inHub addr || inRanges (frameOf addr) then { s with msis := s.msis ++ [(addr, data)] } else s

/-- A field of a QCB written by the hub (R333); a stack at 105 °C accepts no write (R437; DEDUCED, log entry 34). -/
def qcbPut (qcb off n v : Nat) (s : State) : State :=
  if hitsShut s (qcb + off) n then s else s.physPut (qcb + off) (bytesOfNat n v)

/-- A queue takes a hardware slot, with READ and WRITE as its QCB holds them: STATE 1 and ERROR 0 are written (R333, R335).
(DEDUCED, log entry 17.) -/
def seatQueue (slot : Nat) (q : Queue) (s : State) : State :=
  let q := { q with read := s.physRead (q.qcb + 16) 8, write := s.physRead (q.qcb + 24) 8, busy := false, tested := 0, stalled := false, seeds := [] }
  let s := qcbPut q.qcb 52 2 slot (qcbPut q.qcb 14 2 1 s)
  (s.onHub fun h => { h with queues := Tbl.put h.queues slot q }).post 0 .umpireQueueSelect []

/-- The lowest free hardware slot. -/
def freeQueueSlot (h : Hub) : Option Nat := Tbl.freeFrom h.queues 256 0

/-- The first QCB of the admission list takes a slot that is free (R335); at a stack that accepts no command it waits
(R437; DEDUCED, log entry 34). -/
def admitNext (s : State) : State :=
  match freeQueueSlot s.hub, s.hub.admitList with
  | some slot, q :: rest =>
    if hitsShut s q.qcb 64 then s.post 1 .umpireQueueSelect []
    else seatQueue slot q (s.onHub fun h => { h with admitList := rest })
  | _, _ => s

/-- A queue leaves its slot. -/
def freeQueue (slot : Nat) (s : State) : State :=
  (admitNext (s.onHub fun h => { h with queues := Tbl.del h.queues slot })).post 0 .umpireQueueSelect []

/-- What the hub writes when a queue halts (R343). -/
def haltQcb (q : Queue) (code : Nat) (s : State) : State :=
  let s := qcbPut q.qcb 52 2 0xFFFF (qcbPut q.qcb 15 1 code (qcbPut q.qcb 14 1 3 (qcbPut q.qcb 16 8 q.read s)))
  let s := s.onHub fun h => { h with halted := (q.qid, q.qcb) :: h.halted.filter fun x => x.1 != q.qid }
  if q.msi then postMsi q.msiAddr q.msiData s else s

/-- The slot of an evicted queue in the name of a waiter. -/
def evictedSlot : Nat := 256

/-- A queue halts with a code (R343). -/
def haltQueue (slot code : Nat) (s : State) : State :=
  match Tbl.get? s.hub.queues slot with
  | some q => freeQueue slot (haltQcb q code s)
  | none => s

/-- A queue is evicted while a fault on its WAIT word is served (R344). -/
def evictQueue (slot : Nat) (s : State) : State :=
  match Tbl.get? s.hub.queues slot with
  | some q =>
    let s := qcbPut q.qcb 24 8 q.write (qcbPut q.qcb 16 8 q.read s)
    let s := qcbPut q.qcb 52 2 0xFFFF (qcbPut q.qcb 14 1 2 s)
    freeQueue slot (s.onHub fun h => { h with evicted := h.evicted ++ [q] })
  | none => s

/-- A replay re-admits an evicted queue ahead of the admission list (R344). -/
def readmit (qid : Nat) (s : State) : State :=
  match s.hub.evicted.find? fun q => q.qid == qid with
  | some q =>
    admitNext (s.onHub fun h =>
      { h with evicted := h.evicted.filter (fun x => x.qid != qid), admitList := q :: h.admitList })
  | none => s

/-- A failing reply halts an evicted queue with code 4 (R343). -/
def haltEvicted (qid : Nat) (s : State) : State :=
  match s.hub.evicted.find? fun q => q.qid == qid with
  | some q => haltQcb q 4 (s.onHub fun h => { h with evicted := h.evicted.filter fun x => x.qid != qid })
  | none => s

/-- The queue of a QID halts with a code, in whatever slot it is or while it waits for one; nothing where it has halted before
(R343). -/
def haltByQid (qid code : Nat) (s : State) : State :=
  match s.hub.queues.find? fun q => q.2.qid == qid with
  | some (slot, _) => haltQueue slot code s
  | none => match (s.hub.admitList ++ s.hub.evicted).find? fun q => q.qid == qid with
    | some q => haltQcb q code (s.onHub fun h => { h with
        admitList := h.admitList.filter fun x => x.qid != qid
        evicted := h.evicted.filter fun x => x.qid != qid })
    | none => s

/-- A queue with this QID in a slot changed. -/
def onQid (slot qid : Nat) (f : Queue → Queue) (s : State) : State :=
  s.onHub fun h => { h with queues := Tbl.adjust h.queues slot fun q => if q.qid = qid then f q else q }

/-- The queue of a QID in a slot halts with a code; a queue that has taken its place does not. -/
def haltQid (slot qid code : Nat) (s : State) : State :=
  if (Tbl.get? s.hub.queues slot).any fun q => q.qid == qid then haltQueue slot code s else s

/-! ### The monitor's update (R432) -/

/-- The version that a unit runs: units 0 to 255 are the Cox controllers, 256 the Umpire. -/
def unitVersion (p : Platform) (u : Nat) : Nat := Map.get p.version p.unitVersions u

/-- Whether an update takes effect on a unit now: on a Cox without an outstanding command, on the Umpire between two packets. -/
def isBetween (s : State) (u : Nat) : Bool :=
  if u < 256 then (s.cluster u).permits == 0 else !(s.hub.queues.any fun q => q.2.busy)

/-- A staged update taken up by a unit at its first instant for it; the Umpire's version is the device's. -/
def adoptUpdate (u : Nat) (s : State) : State :=
  match s.plat.staged with
  | none => s
  | some x =>
    if !isBetween s u then s
    else if u = 256 then
      { s with plat := { s.plat with
        unitVersions := (List.range 256).foldl (fun m i => Map.set (x % 2 ^ 32) m i (unitVersion s.plat i)) []
        version := x % 2 ^ 32
        runSvn := x / 2 ^ 32 } }
    else { s with plat := { s.plat with unitVersions := Map.set s.plat.version s.plat.unitVersions u (x % 2 ^ 32) } }

/-- A placement command's permit returned (R122). -/
def returnPermit (k : Nat) (s : State) : State :=
  let g := clusterOf k
  adoptUpdate g (s.setCluster g { s.cluster g with permits := (s.cluster g).permits - 1 })

/-! ### Waiters -/

/-- The thread of a record for a waiter; 0 where no thread waits. (DEDUCED, log entry 19.) -/
def waiterThread (s : State) (w : Waiter) : Nat :=
  match w with
  | .entry k id => ((s.entry? k id).map (·.owner)).getD 0
  | .twait k t => (s.ctx ⟨k, t⟩).handle
  | _ => 0

/-- The die whose merger serves a waiter (R230, R421); the hub's own work is die 0's. -/
def waiterDie (w : Waiter) : Nat :=
  match w with
  | .entry k _ | .placement _ k | .twait k _ | .spill k _ | .fetchBack k _ => dieOf k
  | .queue _ _ | .launch _ => 0

/-- The partition byte of a waiter's record: 0xFF for a hub core (R231). -/
def waiterPart (space : Nat) : Nat := if 64 ≤ space then 0xFF else space

/-- The kernel that receives the records of a space. -/
def recordKernel (s : State) (space : Nat) : Nat := s.spaceKernel space

/-- A fault that is no longer served for a queue (R344). -/
def unstall (slot qid : Nat) (s : State) : State :=
  (onQid slot qid (fun q => { q with stalled := false }) s).post 0 .umpireQueueSelect []

/-- Whether a waiter is a held put whose commit waits (R360). -/
def isHeldPut (s : State) (k id : Nat) : Bool := (s.entry? k id).any fun e => decide (e.state = .heldPut)

/-- A waiter tries again: its entry is re-translated, its packet, TWAIT or role image is taken up afresh (R230). -/
def wakeWaiter (w : Waiter) (s : State) : State :=
  match w with
  | .entry k id =>
    if isHeldPut s k id then s.post 0 .taskCommit [s.spaceOf k]
    else (onEntry k id (fun e => { e with state := .waiting }) s).post 0 .copyEntryService [k, id]
  | .queue n qid => if n = evictedSlot then readmit qid s else unstall n qid s
  | .launch id => ((s.onHub fun h => { h with launches := Tbl.adjust h.launches id fun l => { l with stalled := false } }).post 0
      .launchComplete [id]).post 0 .umpireQueueSelect []
  | .placement l k => s.post 0 .placementCommand [l, k]
  | .twait k t => s.onCtx ⟨k, t⟩ fun c =>
      if c.parkReason = 9 ∧ c.wait.any (fun w => w.key == twaitKey) = true then unpark s.now c else c
  | .spill k key => s.post 0 .roleSpill [k, key]
  | .fetchBack k key => s.post 0 .roleFetchBack [k, key]

/-- A cause from the stage dispatcher, or of another device step, for thread 0 of a core (R323, R371). -/
def causeForZero (k : Nat) (r : Reason) (xval : Word) (s : State) : State :=
  match s.ctx? ⟨k, 0⟩ with
  | some c => pendIn ⟨k, 0⟩ c ⟨causeCode .async r, xval, 9, 0⟩ s
  | none => sendRecord (s.kernelOf k) (plainRecord (causeCode .async r) (s.recordPart k) 9 0 xval (dieOf k)) s

/-- The address of a slot of a stage's spill area (R44, R323). -/
def Stage.slotAddr (st : Stage) (slot : Nat) : Nat := bits (st.desc.getD 2 0).toNat 0 57 + 1024 * slot

/-- The state with a core's stage changed. -/
def onStage (k : Nat) (f : Stage → Stage) (s : State) : State := s.onCore k fun c => { c with stage := c.stage.map f }

/-- A spill that failed (R323): the role stays in the wings, and the next attempt chooses again. -/
def failSpill (k key : Nat) (s : State) : State :=
  match (s.core k).stage with
  | none => s
  | some st => match st.spilling.find? fun p => p.key == key with
    | none => s
    | some p =>
      let s := onStage k (fun st => { st with spilling := st.spilling.filter fun p => p.key != key }) s
      (causeForZero k .roleSpillFault (word (st.slotAddr p.slot)) s).post 16 .recordDispatch [k]

/-- A fetch-back that failed (R323): the role and its records are discarded, with its crew membership and its holds, and its
slot is free. -/
def failFetchBack (k key : Nat) (s : State) : State :=
  match (s.core k).stage with
  | none => s
  | some st => match st.spills.find? fun p => p.key == key with
    | none => s
    | some p =>
      let s := onStage k (fun st =>
        { st with spills := st.spills.filter fun p => p.key != key, slots := Tbl.del st.slots key }) s
      let s := endHolds p.owner (leaveSpilled (spilledName k p.slot) s)
      (causeForZero k .roleSpillFault (word (st.slotAddr p.slot)) s).post 0 .recordDispatch [k]

/-- A launch's load of a core that failed: its queue halts with code 4 and the core is idle again. A co-resident launch never
opens its gate after that (R16). (DEDUCED, log entry 18.) -/
def abandonCore (l k : Nat) (s : State) : State :=
  match Tbl.get? s.hub.launches l with
  | none => s
  | some x =>
    let s := haltByQid x.qid 4 s
    let s := s.onHub fun h =>
      { h with launches := Tbl.put h.launches l { x with loading := x.loading.filter (· != k), broken := true } }
    (((returnPermit k s).onCore k fun c => { c with launch := none }).post 0 .launchPlacement [l]).post 0 .launchComplete [l]

/-- A launch completes without its timeline update, which has failed: its queue halts with code 4 (R343). -/
def failTimeline (id : Nat) (s : State) : State :=
  match Tbl.get? s.hub.launches id with
  | some l => (haltByQid l.qid 4 (s.onHub fun h =>
      { h with launches := Tbl.put h.launches id { l with done := 0, stalled := false } })).post 0 .launchComplete [id]
  | none => s

/-- A waiter's operation fails with a reason (R226, R230, R323, R343, R352). -/
def failWaiter (w : Waiter) (r : Reason) (va : Word) (s : State) : State :=
  match w with
  | .entry k id => if isHeldPut s k id then (failEntry k id r va s).post 0 .taskCommit [s.spaceOf k] else failEntry k id r va s
  | .queue n qid => if n = evictedSlot then haltEvicted qid s else haltQid n qid 4 s
  | .launch id => failTimeline id s
  | .placement l k => abandonCore l k s
  | .twait k t =>
    let a : Actor := ⟨k, t⟩
    let c := s.ctx a
    if c.parkReason = 9 ∧ c.wait.any (fun w => w.key == twaitKey) = true then
      takeCause a (causeCode .access .timelineFault) va c.pc (s.onCtx a (unpark s.now))
    else s
  | .spill k key => failSpill k key s
  | .fetchBack k key => failFetchBack k key s

/-! ### Walks and the merger -/

/-- TRANSLATION_WALK (R228): the fill and the entry's next service, or the fault; a walk waits at a stack that accepts no
command (R437; DEDUCED, log entry 34). -/
def execTranslationWalk (s : State) : Result :=
  .next (match Tbl.get? s.walks (s.arg 0) with
    | none => s
    | some w =>
      if walkShut s w.space w.va.toNat then s.post 1 .translationWalk s.args else
      let s := { s with walks := Tbl.del s.walks (s.arg 0) }
      match w.waiter with
      | .entry k id =>
        let va := w.va.toNat
        match walkFill s (clusterOf k) w.space va with
        | (.ok _, s) => wakeWaiter w.waiter s
        | (.error r, s) =>
          if isStalling r && w.space != 80 then
            stallFault w.waiter w.space va w.access r (onEntry k id (fun e => { e with state := .stalled }) s)
          else failEntry k id r w.va s
      | x => wakeWaiter x s)

/-- The state with a die's merger changed. -/
def State.onDie (s : State) (d : Nat) (f : Die → Die) : State := s.setDie d (f (s.die d))

/-- Whether a fault was DEED_SCRUBBING for a frame whose transit has ended (R401). -/
def isScrubbed (s : State) (w : Walk) : Bool :=
  w.cause == some (causeCode .access .deedScrubbing) && !(s.deed (w.frame / 2 ^ 21)).transit

/-- TRANSLATION_FAULT_STALL (R230): the fault joins its key, takes a free one with a record, or waits for one. -/
def execTranslationFaultStall (s : State) : Result :=
  .next (match Tbl.get? s.walks (s.arg 0) with
    | none => s
    | some w =>
      let s := { s with walks := Tbl.del s.walks (s.arg 0) }
      let d := waiterDie w.waiter
      let page := w.va.toNat / 2 ^ 16
      let die := s.die d
      if isScrubbed s w then wakeWaiter w.waiter s
      else if die.keys.any fun f => f.space == w.space && f.page == page then
        s.onDie d fun x => { x with keys := x.keys.map fun f =>
          if f.space == w.space && f.page == page then { f with waiters := f.waiters ++ [(w.waiter, w.va)] } else f }
      else if 64 ≤ die.keys.length then s.onDie d fun x => { x with overflow := x.overflow ++ [w] }
      else
        let cause := w.cause.getD 0
        let key : FaultKey := ⟨w.space, page, die.seq, [(w.waiter, w.va)], w.access, cause, w.va, w.frame⟩
        let s := s.onDie d fun x => { x with keys := x.keys ++ [key] }
        sendRecord (recordKernel s w.space)
          { plainRecord cause (waiterPart w.space) w.access (waiterThread s w.waiter) w.va d with
            frame := w.frame
            flags := 1 } s)

/-- The faults that wait for a key try again. -/
def drainOverflow (d : Nat) (s : State) : State :=
  let ws := (s.die d).overflow
  ws.foldl (fun s w => beginWalk w .translationFaultStall s) (s.onDie d fun x => { x with overflow := [] })

/-- The key of a die with a sequence number, taken out. -/
def takeKey (d seq : Nat) (s : State) : Option (FaultKey × State) :=
  ((s.die d).keys.find? fun f => f.seq == seq).map fun f =>
    (f, drainOverflow d (s.onDie d fun x => { x with keys := x.keys.filter fun g => g.seq != seq }))

/-- The faults that stall on a frame's transit are replayed once it has ended (R401). -/
def replayScrubbed (f : Nat) (s : State) : State :=
  [0, 1, 2, 3].foldl (fun s d =>
    let hit (cause frame : Nat) : Bool := cause == causeCode .access .deedScrubbing && frame == f * 2 ^ 21
    let keys := (s.die d).keys.filter fun k => hit k.cause k.frame
    let late := (s.die d).overflow.filter fun w => hit (w.cause.getD 0) w.frame
    let s := s.onDie d fun x => { x with overflow := x.overflow.filter fun w => !hit (w.cause.getD 0) w.frame }
    let s := keys.foldl (fun s k => match takeKey d k.seq s with
      | some (k, s) => k.waiters.foldl (fun s w => wakeWaiter w.1 s) s
      | none => s) s
    late.foldl (fun s w => wakeWaiter w.waiter s) s) s

/-- The thread that waits, held, for the reply to a forwarded cause (R374). -/
def heldBy (s : State) (d seq : Nat) : Option Actor :=
  s.cores.findSome? fun e => e.2.threads.findSome? fun t =>
    if t.2.status = .held d seq then some ⟨e.1, t.1⟩ else none

/-- A change to the thread of a switched-out tenant that waits, held, for the reply to a forwarded cause (R374). -/
def onHeldSaved (d seq : Nat) (f : Ctx → Ctx) (s : State) : State :=
  let g (c : Ctx) : Ctx := if c.status = .held d seq then f c else c
  s.onHub fun h => { h with saved := h.saved.map fun v => { v with cores := v.cores.map fun c =>
    { c with image := c.image.mapCtx fun _ => g } } }

/-- FAULT_REPLY_REPLAY (R230, R374). -/
def execFaultReplyReplay (s : State) : Result :=
  let d := s.arg 0
  let seq := s.arg 1
  .next (match takeKey d seq s with
    | some (f, s) => f.waiters.foldl (fun s w => wakeWaiter w.1 s) s
    | none => match heldBy s d seq with
      | some a => s.onCtx a fun c => { c with status := .running, readyAt := max c.readyAt (s.now + 1) }
      | none => onHeldSaved d seq (fun c => { c with status := .running }) s)

/-- The reason with this number, if there is one. -/
def reasonOf (n : Nat) : Option Reason := allReasons[n]?
  where
  /-- Every reason in the order of R371. -/
  allReasons : List Reason := [.illegalWord, .reservedField, .privileged, .fetchMisaligned, .fetchFault, .extInvalid,
    .registerInvalid, .immediateRange, .breakpoint, .watchpoint, .singleStep, .softwareTrap, .environmentCall,
    .contextZeroOnly, .gangBroken, .gangForbidden, .divideByZero, .subnormalOperand, .fpInvalid, .fpDivideByZero,
    .fpOverflow, .fpUnderflow, .fpInexact, .formatUnsupported, .scaleInvalid, .convertRange, .transformSize,
    .transformLayout, .lsRange, .lsMisaligned, .lsUncorrectable, .lsRetired, .feWaitLimit, .feWatchedWrite,
    .feStateInvalid, .amoMisaligned, .accRange, .accPoisoned, .planeEmpty, .footprintWrap, .pageNotPresent,
    .pagePermission, .addressNoncanonical, .deedNotHeld, .deedRecalled, .deedRevoked, .deedScrubbing,
    .tierUnavailable, .dramUncorrectable, .remoteUnreachable, .remoteDenied, .shapeInvalid, .globalAmoMisaligned,
    .copyDestinationInvalid, .counterIndex, .crewInvalid, .crewNotMember, .crewCoresidency, .syncObjectUnbound,
    .releaseNotHeld, .channelUnbound, .channelDeadlock, .migrateRefused, .wakeInvalid, .remoteAtomicTimeout,
    .timelineFault, .matrixOperandUe, .matrixShape, .matrixFormatMismatch, .sparseMetadata, .taskRecordInvalid,
    .taskFootprintInvalid, .taskSpeculativeForbidden, .taskAbortLimit, .stageUndefined, .stageKeyRange,
    .roleSpillFault, .stageRecordMalformed, .preempt, .saveAreaFault, .saveAreaExhausted, .restoreInvalid,
    .tokenMismatch, .heatExpired, .partitionFence, .recallNotice, .deedBreach, .watchdog, .snapshotTaken,
    .virtualInterrupt, .coreRetired, .thermalThrottle, .thermalShutdownPending, .firmwareNotice, .externalInterrupt,
    .machineCheck]

/-- FAULT_REPLY_FAIL (R230, R374): the key's operations fail with the reply's cause, or with the record's where that names no
reason that arises with origin REMOTE (R371; DEDUCED, log entry 19); a forwarded thread ends as KILL ends one. -/
def execFaultReplyFail (s : State) : Result :=
  let d := s.arg 0
  let seq := s.arg 1
  .next (match takeKey d seq s with
    | some (f, s) =>
      let r := (((reasonOf (s.arg 2 % 128)).filter (·.arises .remote)).orElse fun _ => reasonOf (f.cause % 128)).getD .pageNotPresent
      f.waiters.foldl (fun s w => failWaiter w.1 r w.2 s) s
    | none => match heldBy s d seq with
      | some a => killThread a s
      | none => onHeldSaved d seq (fun c => { c with status := .running, ending := some (.kill, BitVec.allOnes 64) }) s)

/-! ### Fault records in memory (R231, R375, R408) -/

/-- The 32 bytes of a record (R231). -/
def recordBytes (r : FRecord) : List Byte :=
  bytesOfNat 2 r.cause ++ bytesOfNat 1 r.partition ++ bytesOfNat 1 r.access ++ bytesOfNat 4 r.thread
    ++ bytesOfNat 8 r.address.toNat ++ bytesOfNat 8 r.frame ++ bytesOfNat 2 r.seq ++ bytesOfNat 1 r.die
    ++ bytesOfNat 1 r.flags ++ bytesOfNat 4 r.event

/-- The handle field of an operation that no thread sent. -/
def noHandle : Nat := 2 ^ 27

/-- The physical base of a ring register. -/
def ringBase (base : Word) : Nat := bits base.toNat 12 36 * 4096
/-- LOG2N of a ring register. -/
def ringLog2 (base : Word) : Nat := bits base.toNat 48 4

/-- Whether a ring is present: it has a base in a frame that its kernel holds, and a legal size (R375). -/
def ringPresent (s : State) (kernel : Nat) (base : Word) : Bool :=
  ringBase base != 0 && decide (7 ≤ ringLog2 base) && (s.deedCheck kernel (frameOf (ringBase base))).isNone

/-- Whether a ring takes a record: it is present and has room (R375). -/
def ringOpen (s : State) (kernel : Nat) (base head tail : Word) : Bool :=
  ringPresent s kernel base
    && bits (tail - head).toNat 0 32 != 2 ^ ringLog2 base

/-- The increment that a record's note asks for, as a KADD of the hub; one that cannot be delivered is dropped (R375). -/
def sendNote (name : Word) (s : State) : State :=
  let n := name.toNat
  if n = 0 ∨ 2 ^ 33 ≤ n ∨ nameDevice n ≠ s.plat.devid then s
  else match nameCore n with
    | some k => s.send .counter umpireKey k noHandle (.increment umpireKey 0 (bits n 0 6) 1) .counterIncrement
    | none => s

/-- The next TAIL of a ring, a 32-bit index. -/
def nextTail (t : Word) : Word := word ((t.toNat + 1) % 2 ^ 32)

/-- FAULT_RECORD_WRITE (R375, R408): one waiting record enters its ring, if there is room; then the next is due. At a stack that
accepts no command it waits (R437; DEDUCED, log entry 34). -/
def execFaultRecordWrite (s : State) : Result :=
  let n := s.arg 0
  .next (
    if n = 0 then
      let h := s.hub
      match h.hostRecords with
      | [] => s
      | r :: rest =>
        let at_ := ringBase h.evBase + 32 * (h.evTail.toNat % 2 ^ ringLog2 h.evBase)
        if !ringOpen s 0 h.evBase h.evHead h.evTail then s
        else if hitsShut s at_ 32 then s.post 1 .faultRecordWrite s.args
        else
          let s := s.physPut at_ (recordBytes r)
          let s := s.onHub fun h => { h with evTail := nextTail h.evTail, hostRecords := rest }
          let s := if h.evMsi = 0 then s else postMsi h.evMsi.toNat h.evData.toNat s
          s.post 0 .faultRecordWrite [0]
    else
      let q := s.faultQueue n
      match q.waiting with
      | [] => s
      | r :: rest =>
        let at_ := ringBase q.base + 32 * (q.tail.toNat % 2 ^ ringLog2 q.base)
        if !ringOpen s n q.base q.head q.tail then s
        else if hitsShut s at_ 32 then s.post 1 .faultRecordWrite s.args
        else
          let s := s.physPut at_ (recordBytes r)
          let s := s.setFaultQueue n { q with tail := nextTail q.tail, waiting := rest }
          (sendNote q.note s).post 0 .faultRecordWrite [n])

/-! ### Arrivals from other cores (R206, R218, R221) -/

/-- Words that a full-setting write from another agent replaces: errors are healed, the states become full, and watch
entries of empty-watched words go with their waiters woken (R183, R195). -/
def arriveFull (k : Nat) (ws : List Nat) (s : State) : State :=
  let core := s.core k
  let watched := ws.filter fun w => core.wordState w == 2
  let core := { core with
    lsBad := core.lsBad.filter fun w => !ws.contains w
    lsSingle := core.lsSingle.filter fun w => !ws.contains w
    lsHealed := core.lsHealed ++ core.lsBad.filter fun w => ws.contains w
    watch := core.watch.filter fun e => !watched.any fun w => watchFor core w e }
  let s := setStates k ws 1 (s.setCore k core)
  if watched.isEmpty then s
  else s.onCore k fun core => core.mapCtx fun _ c =>
    if waitsOn watched c && c.isLimited then
      { woken s.now c with wait := c.wait.map fun w => { w with retest := true, byWake := true, limited := false } }
    else c

/-- The words of a write, each with its bytes: local address and bytes (R206). -/
def wordParts (x : Nat) (bs : List Byte) : List (Nat × List Byte) :=
  (wordsOf x bs.length).map fun w =>
    let lo := max x (4 * w)
    (lo, (bs.drop (lo - x)).take (4 * w + 4 - lo))

/-- A write of bytes within one word from another agent; none where the word is uncorrectable and is not replaced (R183). -/
def arriveWord (k x : Nat) (bs : List Byte) (full : Bool) (s : State) : Option State :=
  if full then some (arriveFull k [x / 4] (s.onCore k fun c => c.lsPut x bs))
  else if (s.core k).lsBad.contains (x / 4) then none
  else some ((correctSingles k x bs.length s).onCore k fun c => c.lsPut x bs)

/-- The end of an RPUT at its destination (R218, R226): the entry completes, or fails with the window of the word that it
could not write. -/
def finishRput (f : Flight) (src id : Nat) (failed : Option Nat) (s : State) : State :=
  match s.entry? src id with
  | some e =>
    if e.state = .sent then
      let s := acknowledge f.handle id f.dst s
      match failed with
      | none => performEntry src id s
      | some x => failEntry src id .lsUncorrectable (e.rem + word (x - winOffset e.rem.toNat)) s
    else s
  | none => s

/-- RPUT_WRITE (R206, R218): the next word of the data is written, each word with its state as one; the words of one RPUT are
not one write. The entry completes with the last word, or fails at an uncorrectable one. -/
def execRputWrite (s : State) : Result :=
  .next (match s.arriving (s.arg 0) with
    | some f => match f.payload with
      | .rput src id off bs full =>
        let n := 4 - off % 4
        if bs.isEmpty then finishRput f src id none (s.landed f.id)
        else match arriveWord f.dst off (bs.take n) full s with
          | none => finishRput f src id (some off) (s.landed f.id)
          | some s =>
            if bs.length ≤ n then finishRput f src id none (s.landed f.id)
            else State.post { s with net := s.net.map fun g =>
              if g.id = f.id then { g with payload := .rput src id (off + n) (bs.drop n) full } else g } 0 .rputWrite s.args
      | _ => s
    | none => if s.net.any fun f => f.id == s.arg 0 then s.post 1 .rputWrite [s.arg 0] else s)

/-- Whether an RPUT that the same thread enqueued earlier to the same core has not ended (R221). -/
def awaitsRputs (s : State) (handle id dst : Nat) : Bool :=
  s.cores.any fun c => c.2.queue.any fun e =>
    decide (e.id < id) && (e.owner == handle || (s.ownerOf handle).any fun a => s.ownerOf e.owner == some a)
      && (match e.op with
        | .rput .. => winDevice e.rem.toNat == s.plat.devid && winCore e.rem.toNat == some dst
        | _ => false)
      && match e.state with
        | .performed | .failed _ _ _ => false
        | _ => true

/-- The save whose image stands for a core that holds no thread: its partition runs no tenant and the last tenant of the
partition was switched out, or the tenant's restore is still to come (R212, R317, R327). -/
def switchedOut (s : State) (k : Nat) : Option Nat :=
  match s.partOf k with
  | some p =>
    let v := s.part p
    let restoring := v.switch.any (·.restoring)
    if (v.tenant = 0 ∨ restoring = true) ∧ (s.core k).threads.isEmpty ∧ (s.core k).launch.isNone then
      ((s.hub.saved.zipIdx.filter fun e => e.1.part == p && (!restoring || e.1.tenant == v.tenant)).getLast?).map (·.2)
    else none
  | none => none

/-- The saved image of a core changed. (DEDUCED, log entry 28.) -/
def onSaved (i k : Nat) (f : SavedCore → SavedCore) (s : State) : State :=
  s.onHub fun h => { h with saved := h.saved.modify i fun v =>
    { v with cores := v.cores.map fun c => if c.core = k then f c else c } }

/-- An increment lands in a counter, or in the saved counter image of a switched-out core (R212). -/
def landIncrement (k n v : Nat) (s : State) : State :=
  match switchedOut s k with
  | some i => onSaved i k (fun c => { c with increments := c.increments ++ [(n, v)] }) s
  | none => addCounter k n v s

/-- COUNTER_INCREMENT (R221): applied once the thread's earlier RPUTs to the core have ended. -/
def execCounterIncrement (s : State) : Result :=
  .next (match s.arriving (s.arg 0) with
    | some f => match f.payload with
      | .increment _ id n v =>
        if f.handle != noHandle && awaitsRputs s f.handle id f.dst then s.post 1 .counterIncrement s.args
        else acknowledge f.handle id f.dst (landIncrement f.dst n v (s.landed f.id))
      | _ => s
    | none => if s.net.any fun f => f.id == s.arg 0 then s.post 1 .counterIncrement s.args else s)

/-! ### IFLUSH and TIERPF -/

/-- Whether an IFLUSH of core `k` with this scope covers core `j` (R248). (DEDUCED, log entry 16.) -/
def inScope (k scope j : Nat) : Bool :=
  match scope with
  | 0 => j == k
  | 1 => clusterOf j == clusterOf k
  | _ => true

/-- IFLUSH_COMPLETE (R49): every block of the code ID in scope is invalid, in the caches that a core in scope fetches from, and
the counter rises. A fetch in flight reads
DRAM when it ends, so that later fills read it afresh. -/
def execIflushComplete (s : State) : Result :=
  let k := s.arg 0
  .next (match s.entry? k (s.arg 1) with
    | some e => match e.op, e.state with
      | .iflush code scope, .sent =>
        let keep (b : IBlock) : Bool := b.code != code
        let s := { s with
          cores := s.cores.map fun c =>
            (c.1, if inScope k scope c.1 then { c.2 with icache := c.2.icache.filter keep } else c.2)
          clusters := s.clusters.map fun c =>
            (c.1, if 2 ≤ scope || c.1 == clusterOf k then { c.2 with icache := c.2.icache.filter keep }
              else c.2) }
        completeEntry k e.id s
      | _, _ => s
    | none => s)

/-- Whether a physical address lies in the LPDDR tier. -/
def inLpddr (pa : Nat) : Bool := decide (524288 ≤ frameOf pa)

/-- The frames of a pool that a page of this size can move to, in a tier: the first of the run (R222).
(DEDUCED, log entry 24.) -/
def poolFrame (pool : List Nat) (log2 : Nat) (lpddr : Bool) : Option Nat :=
  let n := if log2 = 30 then 512 else 1
  pool.find? fun f => decide (f % n = 0) && decide ((524288 ≤ f) = lpddr) && (List.range n).all fun i => pool.contains (f + i)

/-- One page moved into a frame of the pool: its bytes copied, its leaf rewritten, its translations shot down (R222). -/
def movePage (space va : Nat) (l : Leaf) (f : Nat) (s : State) : State :=
  let n := if l.log2 = 30 then 512 else 1
  let part := s.part space
  let s := s.setPart space { part with pool := part.pool.filter fun x => !(decide (f ≤ x) && decide (x < f + n)) }
  let s := s.physPut (f * 2 ^ 21) (s.physBytes l.phys (2 ^ l.log2))
  let leaf := setBits (s.physRead l.at_ 8) 8 40 (f * 2 ^ 21 / 256)
  let s := s.physPut l.at_ (bytesOfNat 8 leaf)
  dropTranslations (fun e => e.covers space va) s

/-- One page of a TIERPF range of core `k` dealt with: the address that follows it, or the cause that fails the entry (R222, R232).
A TIER_UNAVAILABLE record is numbered by the core's die. (DEDUCED, log entry 19.) -/
def tierPage (k space va dir : Nat) (s : State) : Except Reason Nat × State :=
  let next (log2 : Nat) : Nat := (va / 2 ^ log2 + 1) * 2 ^ log2
  let root := s.rootOf space
  match (if root = 0 then .error .pageNotPresent else walkFrom s va 5 root) with
  | .error .dramUncorrectable => (.error .dramUncorrectable, s)
  | .error _ => (.ok (next 16), s)
  | .ok l =>
    if l.device ≠ s.plat.devid then
      match (if l.direct then remoteFailure s l.device else none) with
      | some r => (.error r, s)
      | none => (.ok (next l.log2), s)
    else if !l.tier || inHub l.phys || inLpddr l.phys == (dir == 1) then (.ok (next l.log2), s)
    else if (s.physBad l.phys (2 ^ l.log2)).isSome then (.error .dramUncorrectable, s)
    else match poolFrame (s.part space).pool l.log2 (dir == 1) with
      | some f => (.ok (next l.log2), if space < 64 then movePage space va l f s else s)
      | none =>
        (.ok (next l.log2), sendRecord (recordKernel s space)
          (plainRecord (causeCode .access .tierUnavailable) (waiterPart space) 5 0 (word va) (dieOf k)) s)

/-- Whether a page's migration meets a stack that accepts no command: in the walk, the page or the frame that it moves to (R14,
R222, R437). (DEDUCED, log entry 34.) -/
def tierShut (s : State) (space va dir : Nat) : Bool :=
  s.anyShut && (walkShut s space va || match walkFrom s va 5 (s.rootOf space) with
    | .ok l =>
      let shut (base : Nat) : Bool := (List.range 12).any fun i => pageShut s l.device l.phys l.dieLocal (base + 4096 * i)
      l.tier && inLpddr l.phys != (dir == 1)
        && (shut l.phys || (poolFrame (s.part space).pool l.log2 (dir == 1)).any fun f => shut (f * 2 ^ 21))
    | .error _ => false)

/-- TIER_MIGRATE_PAGE (R222): one page; the entry completes after the last. -/
def execTierMigratePage (s : State) : Result :=
  let k := s.arg 0
  .next (match s.entry? k (s.arg 1) with
    | some e => match e.op, e.state with
      | .tierpf len dir, .sent =>
        let va := e.rem.toNat + e.moved
        if len ≤ e.moved then performEntry k e.id s
        else if awaitsLink s (clusterOf k) (s.spaceOf k) va 1 || tierShut s (s.spaceOf k) va dir then
          s.post 1 .tierMigratePage s.args
        else match tierPage k (s.spaceOf k) va dir s with
          | (.error r, s) => failEntry k e.id r (word va) s
          | (.ok next, s) =>
            (onEntry k e.id (fun e => { e with moved := next - e.rem.toNat }) s).post 0 .tierMigratePage s.args
      | _, _ => s
    | none => s)

/-! ### Windows of the host (R215) and direct reads (R232, R439) -/

/-- COUNTER_WINDOW_WRITE (R215): a 32-bit write at offset 0 of a counter adds to VALUE; any other is ignored. -/
def execCounterWindowWrite (s : State) : Result :=
  .next (match counterAt (s.arg 0) with
    | some (k, off) =>
      if s.arg 1 = 4 ∧ off % 16 = 0 ∧ isCore k = true then landIncrement k (off / 16) (s.arg 2 % 2 ^ 32) s else s
    | none => s)

/-- LS_WINDOW_ACCESS (R215): a plain 4-byte or 8-byte access. A read of an uncorrectable word returns all ones, a write
of one is dropped; any other access is ignored and reads 0. -/
def execLsWindowAccess (s : State) : Result :=
  let n := s.arg 1
  let loaded (x : Nat) (fault : Bool) (s : State) : State :=
    { s with lastLoad := if s.arg 2 = 0 then word x else s.lastLoad, lastFault := fault }
  .next (match storeAt (s.arg 0) with
    | some (k, off) =>
      if ¬ ((n = 4 ∨ n = 8) ∧ off % n = 0 ∧ off + n ≤ lsLimit k) then loaded 0 false s
      else if ((s.core k).badWord off n).isSome then loaded (2 ^ (8 * n) - 1) true s
      else if s.arg 2 = 0 then loaded ((s.core k).lsRead off n) false (correctSingles k off n s)
      else loaded 0 false ((correctSingles k off n s).onCore k fun c => c.lsWrite off n (s.arg 3))
    | none => loaded 0 false s)

/-- Whether an entry of a stack's access-control table lets a device with a domain tag read a frame (R439). -/
def accessAllows (w0 w1 : Word) (device tag f : Nat) : Bool :=
  let base := bits w1.toNat 21 27
  let log2 := bits w1.toNat 48 6
  w0.getLsbD 0 && (w0.getLsbD 15 || bits w0.toNat 1 14 == device) && bits w0.toNat 16 16 == tag
    && decide (21 ≤ log2) && decide (log2 ≤ 35) && decide (base ≤ f) && decide (f < base + 2 ^ (log2 - 21))

/-- The frames that a range of bytes touches. -/
def framesOf (addr len : Nat) : List Nat :=
  if len = 0 then [] else (List.range (frameOf (addr + len - 1) - frameOf addr + 1)).map (frameOf addr + ·)

/-- Whether a stack can hold every byte of a range, on pages with the die-local attribute or without it (R14): a direct read names
no page, and the spec does not say how a base die knows the attribute (DESIGN CHOICE, log entry 50). -/
def stackHolds (stack addr len : Nat) : Bool :=
  len == 0 || (List.range ((addr + len - 1) / 4096 - addr / 4096 + 1)).all fun i =>
    let pa := (addr / 4096 + i) * 4096
    stackOf pa false 0 == some stack || stackOf pa true (stack / 3) == some stack

/-- Whether a direct read is served: every byte lies in the range of an entry that allows it (R409, R439). -/
def directAllowed (s : State) (stack device tag addr len : Nat) : Bool :=
  (framesOf addr len).all fun f =>
    (s.deed f).state != .zeroOnRead && (List.range 256).any fun i =>
      accessAllows (Map.get 0 s.plat.access (512 * stack + 2 * i)) (Map.get 0 s.plat.access (512 * stack + 2 * i + 1))
        device tag f

/-- DIRECT_READ (R232): the base die of the stack that holds the bytes serves the read or refuses it with REMOTE_DENIED, which
is no bytes here. An uncorrectable word fails the read. No fabric traffic enters before DEVID is written (R440). -/
def execDirectRead (s : State) : Result :=
  let stack := s.arg 0
  let addr := s.arg 3
  let len := s.arg 4
  let served := decide (stack < 12) && stackHolds stack addr len && !s.isShut stack
    && directAllowed s stack (s.arg 1) (s.arg 2) addr len && (s.physBad addr len).isNone
  .next (if s.plat.devidWritten then { s with lastDirect := if served then some (s.physBytes addr len) else none } else s)

end Sys2Proof.Machine
end

