-- ==== Sys2Proof/Machine/Image.lean ====
section
/-! DEFINITION. Context images (R384), their check (R386), and loading one (R385, R322, R391). -/

namespace Sys2Proof.Machine

/-- A pending entry as 16 bytes (R384). -/
def pendingBytes : Option Pending → List Byte
  | some p => bytesOfNat 8 (p.cause + 2 ^ 15) ++ bytesOfNat 8 p.xval.toNat
  | none => bytesOfNat 16 0

/-- The 1,024 bytes of a context image (R384). -/
def imageOf (c : Ctx) : List Byte :=
  let g := (List.range 31).flatMap fun i => bytesOfNat 8 (Map.get 0 c.g (i + 1)).toNat
  let v := (List.range 16).flatMap fun i => bytesOfNat 32 (c.rv i).toNat
  let e := (List.range 8).flatMap fun i => bytesOfNat 8 (c.re i).toNat
  let p := (List.range 7).flatMap fun i => bytesOfNat 4 (c.rp (i + 1)).toNat
  let regs := [c.xcause, c.xstat, c.fpc, c.prio, c.ctxid, c.rank, c.gsize, c.crewsz, c.felim].flatMap fun x =>
    bytesOfNat 4 x.toNat
  g ++ bytesOfNat 8 c.pc.toNat ++ v ++ e ++ p ++ bytesOfNat 4 0
    ++ bytesOfNat 8 c.xpc.toNat ++ bytesOfNat 8 c.xval.toNat ++ bytesOfNat 8 c.xvec.toNat ++ regs
    ++ bytesOfNat 2 c.crewSlot.toNat ++ bytesOfNat 2 c.codeId.toNat ++ bytesOfNat 4 c.parkWord
    ++ bytesOfNat 1 (c.bindU + 8 * c.bindV) ++ bytesOfNat 3 0
    ++ bytesOfNat 8 c.held28.toNat ++ bytesOfNat 8 c.held29.toNat ++ bytesOfNat 8 0
    ++ (List.range 4).flatMap fun i => pendingBytes (c.pend[i]?)

/-- The number in `n` bytes at an offset of an image. -/
def imageNat (im : List Byte) (off n : Nat) : Nat := natOfBytes ((im.drop off).take n)

/-- The fields of an image with reserved bits: offset, size, and the bits that may be set (R386). -/
def imageMasks : List (Nat × Nat × Nat) :=
  [(0x35C, 4, 0), (0x370, 8, 2 ^ 57 - 2), (0x378, 4, 0x1FF), (0x37C, 4, 0xFFF), (0x380, 4, 0x1F1F0F), (0x384, 4, 0xFFF),
   (0x388, 4, 2 ^ 27 - 1), (0x38C, 4, 2 ^ 21 - 1), (0x390, 4, 0xF), (0x394, 4, 2 ^ 19 - 1), (0x398, 4, 2 ^ 17 - 1),
   (0x3A0, 4, 0xFFFFFF3F), (0x3A4, 1, 0x3F), (0x3A5, 3, 0), (0x3B8, 8, 0)]

/-- Whether a pending entry at an offset is malformed (R386). -/
def badPending (im : List Byte) (off : Nat) : Bool :=
  let x := imageNat im off 8
  let cause := bits x 0 9
  if bits x 9 6 ≠ 0 ∨ bits x 16 48 ≠ 0 then true
  else if bits x 15 1 = 0 then decide (imageNat im off 16 ≠ 0)
  else !(reasonOrigins.getD (cause % 128) 0).testBit (cause / 128)

/-- CheckImage (R386): the offset of the first failing field, for a target in `mode`. -/
def checkImage (im : List Byte) (mode : Nat) : Option Nat :=
  let masks := (imageMasks.filter fun f => imageNat im f.1 f.2.1 ||| f.2.2 != f.2.2).map (·.1)
  let x := imageNat im 0x37C 4
  let stat := if bits x 0 2 ≠ mode ∨ bits x 2 2 = 2 ∨ mode < bits x 2 2 then [0x37C] else []
  let pend := ((List.range 4).map fun i => 0x3C0 + 16 * i).filter (badPending im)
  (masks ++ stat ++ pend).foldl (fun m o => some (match m with
    | some x => min x o
    | none => o)) none

/-- The pending entries of an image. -/
def imagePending (im : List Byte) : List Pending :=
  (List.range 4).filterMap fun i =>
    let off := 0x3C0 + 16 * i
    if bits (imageNat im off 8) 15 1 = 1 then
      some ⟨bits (imageNat im off 8) 0 9, word (imageNat im (off + 8) 8), 9, 0⟩
    else none

/-- The registers of an image loaded into a context as CTXLOAD loads them (R385): all but CTXID, RANK, GSIZE, CREWSZ,
the crew slot, the park word, the bindings and the held g28 and g29. The image's MODE is the thread's own (R386). -/
def loadImage (core : Core) (im : List Byte) (c : Ctx) : Ctx :=
  let g := (List.range 31).foldl (fun m i => Map.set 0 m (i + 1) (word (imageNat im (8 * i) 8))) c.g
  let v := (List.range 16).foldl (fun m i => Map.set 0 m i (BitVec.ofNat 256 (imageNat im (0x100 + 32 * i) 32))) c.v
  let e := (List.range 8).foldl (fun m i => Map.set 0 m i (word (imageNat im (0x300 + 8 * i) 8))) c.e
  let p := (List.range 7).foldl (fun m i => Map.set 0 m (i + 1) (BitVec.ofNat 32 (imageNat im (0x340 + 4 * i) 4))) c.p
  let c := { c with
    g := g
    v := v
    e := e
    p := p
    pc := word (imageNat im 0x0F8 8)
    xpc := word (imageNat im 0x360 8)
    xval := word (imageNat im 0x368 8)
    xvec := word (imageNat im 0x370 8)
    xcause := BitVec.ofNat 32 (imageNat im 0x378 4)
    fpc := BitVec.ofNat 32 (imageNat im 0x380 4)
    felim := BitVec.ofNat 32 (imageNat im 0x398 4)
    codeId := BitVec.ofNat 16 (imageNat im 0x39E 2)
    pend := imagePending im }
  let x := imageNat im 0x37C 4
  let c := (c.setXstat 2 2 (bits x 2 2)).setXstat 4 8 (bits x 4 8)
  setPriority core (min (bits (imageNat im 0x384 4) 0 4) c.ceil) c

end Sys2Proof.Machine
end

