-- ==== Sys2Proof/Machine/Trap.lean ====
section
/-! DEFINITION. The trap class (chapter 19) but its supervisor operations on deeds, partitions, heats and the curtain:
TRAP, ECALL, EBREAK, XRET, the CSR instructions, SNAP, CTXSAVE, CTXLOAD and TLBINV, and the steps that take pending causes
and refuse words. -/

namespace Sys2Proof.Machine

/-! ### Privilege -/

/-- An instruction with fn 0x80 or above: PRIVILEGED in U mode (R32). -/
def privileged (go : State → State) (s : State) : State := if s.me.mode = 0 then trapOpen .privileged s else go s

/-! ### TRAP, ECALL, EBREAK, XRET (R380, R381) -/

/-- TRAP (R380). -/
def execTrap (a : Nat) (s : State) : Result :=
  .next (withOperands [a] [] (fun x s => trapE .softwareTrap (x.getD 0 0) s) s)

/-- The monitor call that g4 names (R433). -/
def monitorStep (g4 : Word) : Instr :=
  match g4.toNat with
  | 0 => .monitorVersion
  | 1 => .policyload
  | 2 => .monstage
  | 3 => .thermal
  | _ => .monitorUnknownCall

/-- ECALL (R380): forwarded in U mode, a monitor call in S mode, ILLEGAL_WORD in M mode. -/
def execEcall (s : State) : Result :=
  .next (match s.me.mode with
    | 0 => trapE .environmentCall (s.me.rg 4) s
    | 1 => ((waitAfter 4 4 s).onMe fun c => { c with calling := some (s.me.rg 4).toNat }).post 0 (monitorStep (s.me.rg 4))
        [s.actor.core, s.actor.thread]
    | _ => trapOpen .illegalWord s)

/-- EBREAK (R380). -/
def execEbreak (s : State) : Result := .next (trapE .breakpoint 0 s)

/-- XRET (R381). -/
def execXret (s : State) : Result := .next (returnFromTrap s)

/-! ### The CSR instructions (R36, R382) -/

/-- A control register's value (R36, R369); none for an unlisted number. -/
def csrRead (s : State) (n : Nat) : Option Word :=
  let c := s.me
  let w (x : W32) : Word := x.setWidth 64
  match n with
  | 0x00 => some (w c.fpc)
  | 0x01 => some (w c.prio)
  | 0x02 => some (w c.ctxid)
  | 0x03 => some (w c.rank)
  | 0x04 => some (w c.gsize)
  | 0x05 => some (w c.crewsz)
  | 0x06 => some (w c.felim)
  | 0x07 => some c.xvec
  | 0x08 => some c.xpc
  | 0x09 => some (w c.xcause)
  | 0x0A => some c.xval
  | 0x0B => some (w c.xstat)
  | 0x10 => some (word s.time)
  | 0x11 => some (word (s.now - s.resetAt))
  | 0x12 => some s.here.instret
  | 0x20 => some s.here.xdeleg
  | _ => none

/-- The bits of a control register that are no reserved bits (R36, R369). A 1 in bits 63 to 32 of the operand written to a
32-bit register counts as a reserved bit (DESIGN CHOICE, log entry 41). -/
def csrMask (n : Nat) : Nat :=
  match n with
  | 0x00 => 0x1F1F0F
  | 0x01 => 0xFFF
  | 0x02 => 2 ^ 27 - 1
  | 0x03 => 2 ^ 21 - 1
  | 0x04 => 0xF
  | 0x05 => 2 ^ 19 - 1
  | 0x06 => 2 ^ 17 - 1
  | 0x07 => 2 ^ 57 - 2
  | 0x09 => 0x1FF
  | 0x0B => 0xFFF
  | _ => 2 ^ 64 - 1

/-- Whether U mode may only read the register (R36). -/
def csrReadOnly (n : Nat) : Bool := (decide (2 ≤ n) && decide (n ≤ 5)) || (decide (0x10 ≤ n) && decide (n ≤ 0x12))

/-- The RW fields of a written value take effect; RO fields keep their values (R126, R369, R370). -/
def csrWrite (n : Nat) (x : Word) (s : State) : State :=
  let v := x.toNat
  let x32 : W32 := x.setWidth 32
  match n with
  | 0x00 => s.onMe fun c => { c with fpc := x32 }
  | 0x01 => s.onMe fun c => setPriority s.here (min (bits v 0 4) c.ceil) c
  | 0x06 => s.onMe fun c => { c with felim := x32 }
  | 0x07 => s.onMe fun c => { c with xvec := x }
  | 0x08 => s.onMe fun c => { c with xpc := x }
  | 0x09 => s.onMe fun c => { c with xcause := x32 }
  | 0x0A => s.onMe fun c => { c with xval := x }
  | 0x0B => s.onMe fun c =>
      let c := if c.mode = 0 then c else c.setXstat 2 2 (bits v 2 2)
      (c.setXstat 4 4 (bits v 4 4)).setXstat 10 2 (bits v 10 2)
  | 0x20 => s.setHere { s.here with xdeleg := x }
  | _ => s

/-- Whether a written value breaks the reserved bits (DESIGN CHOICE, log entry 41, for bits 63 to 32 of a 32-bit register, FPC
among them), or in S and M mode the PMODE rule of R369. -/
def csrBad (c : Ctx) (n : Nat) (x : Word) : Bool :=
  x.toNat ||| csrMask n != csrMask n ||
    (n == 0x0B && c.mode != 0 && (bits x.toNat 2 2 == 2 || decide (c.mode < bits x.toNat 2 2)))

/-- A CSR instruction (R382): the number is checked before the operands are read, then the new value comes from the old and the
operand; none only reads. -/
def csr (n d : Nat) (reads : List Nat) (f : Option (Word → Word → Word)) (s : State) : State :=
  match csrRead s n with
  | none => trapOpen .registerInvalid s
  | some old =>
    if s.me.mode = 0 ∧ (n = 0x20 ∨ (f.isSome ∧ csrReadOnly n)) then trapOpen .privileged s
    else withOperands reads [d] (fun x s => match f with
      | none => retire 4 4 (writeReg d old (popReads reads s))
      | some g =>
        let new := g old (x.getD 0 0)
        if csrBad s.me n new then trapOpen .reservedField s
        else retire 4 4 (writeReg d old (csrWrite n new (popReads reads s)))) s

/-- CSRR (R382). -/
def execCsrr (d hi lo : Nat) (s : State) : Result := .next (csr (8 * hi + lo) d [] none s)
/-- CSRW (R382). -/
def execCsrw (d a hi lo : Nat) (s : State) : Result := .next (csr (8 * hi + lo) d [a] (some fun _ x => x) s)
/-- CSRS (R382). -/
def execCsrs (d a hi lo : Nat) (s : State) : Result := .next (csr (8 * hi + lo) d [a] (some fun o x => o ||| x) s)
/-- CSRC (R382). -/
def execCsrc (d a hi lo : Nat) (s : State) : Result := .next (csr (8 * hi + lo) d [a] (some fun o x => o &&& ~~~x) s)

/-- SNAP (R383): in U mode only while SNAPCTL.UEN is 1. The cause 512 is none. -/
def execSnap (a : Nat) (s : State) : Result :=
  .next (specPark (withOperands [a] [] (fun x s =>
    let s' := retire 4 4 (popReads [a] s)
    if s.me.mode = 0 ∧ s.plat.snapctl.getLsbD 11 = false then s'
    else s'.post 0 .snapshotFiring [bits (x.getD 0 0).toNat 0 16, 512, s.spaceOf s.actor.core])) s)

/-! ### CTXSAVE, CTXLOAD and TLBINV (R385, R387) -/

/-- The hub's or an engine's answer on its way to a parked issuer: g[d] and p[q] (R403). -/
def answer (a : Actor) (d q : Nat) (value : Word) (ok : Bool) (s : State) : State :=
  s.send .control umpireKey a.core 0 (.status a d q value ok) .hubAnswer

/-- The issuer parks for the answer that is then on its way (R403). -/
def parkAnswered (d q : Nat) (value : Word) (ok : Bool) (s : State) : State :=
  answer s.actor d q value ok (spendOut d (parkAfter 4 4 9 0 s))

/-- The thread that CTXSAVE or CTXLOAD names, if it is held or halted. -/
def stillThread (s : State) (h : Nat) : Option Actor :=
  match s.threadOf h with
  | some a => if isHeldOrHalted s a then some a else none
  | none => none

/-- The operand checks of CTXSAVE and CTXLOAD (R385), then the act on a held or halted thread, which waits for a link slot
where the image lies on another device (R414). -/
def onStill (a b q : Nat) (act : Actor → Nat → State → State) (s : State) : State :=
  privileged (checkRegs (isPq q) (withOperands [a, b] [] fun x s =>
    let h := (x.getD 0 0).toNat
    let va := (x.getD 1 0).toNat
    let allowed := decide (h < 2 ^ 27) && match handleCore h with
      | some k => s.mayName s.actor.core k
      | none => false
    if !allowed then trapE .partitionFence (x.getD 0 0) s
    else if va % 1024 ≠ 0 ∨ 2 ^ 57 ≤ va then trapE .shapeInvalid (x.getD 1 0) s
    else match stillThread s h with
      | none => retire 4 4 ((popReads [a, b] s).onMe (·.wpOk q false))
      | some t =>
        if awaitsMemory s (clusterOf s.actor.core) (s.spaceOf s.actor.core) va 1024 then stall s else act t va s)) s

/-- A failure of the image traffic (R385), with XVAL the failing address: an ACCESS cause is raised at the instruction. One that arises
as REMOTE only, of memory on another device, becomes pending, and is taken in its place with XPC the next instruction (R376); p[q] is
not written then (DEDUCED, log entry 66). -/
def imageFailed (r : Reason) (at_ : Nat) (s : State) : State :=
  if r.arises .access then trapA r (word at_) s
  else pendCause s.me.handle s.actor.core ⟨causeCode .remote r, word at_, 9, 0⟩ (retire 4 4 s)

/-- CTXSAVE (R385): the image in ascending order; bytes before a failure stay written. -/
def execCtxsave (a b q : Nat) (s : State) : Result :=
  .next (onStill a b q (fun t va s =>
    let k := s.actor.core
    match writeVirtual (clusterOf k) (s.spaceOf k) va (va + 1024) (imageOf (s.ctx t)) va s with
    | (some (r, at_), s) => imageFailed r at_ s
    | (none, s) => parkAnswered 0 q 0 true s) s)

/-- CTXLOAD (R385): the checked image loaded; the thread stays held or halted. -/
def execCtxload (a b q : Nat) (s : State) : Result :=
  .next (onStill a b q (fun t va s =>
    let k := s.actor.core
    match readVirtual (clusterOf k) (s.spaceOf k) 1024 va s with
    | (_, some (r, at_), s) => imageFailed r at_ s
    | (im, none, s) => match checkImage im (s.ctx t).mode with
      | some off => trapE .restoreInvalid (word off) s
      | none => parkAnswered 0 q 0 true (s.onCtx t (loadImage (s.core t.core) im))) s)

/-- TLBINV (R387): translations of PART, or all; walks in flight for them end with nothing filled. -/
def execTlbinv (a b : Nat) (s : State) : Result :=
  .next (privileged (withOperands [a, b] [] fun x s =>
    let op := (x.getD 1 0).toNat
    let part := bits op 0 6
    let kind := bits op 6 2
    let va := (x.getD 0 0).toNat
    if kind = 3 ∨ 256 ≤ op then trapOpen .immediateRange s
    else if (s.part part).valid = false ∨ (s.part part).kernel ≠ s.kernelOf s.actor.core then
      trapOpen .partitionFence s
    else
      let hit (e : TlbEntry) : Bool := match kind with
        | 0 => e.covers part va
        | 1 => e.space == part
        | _ => true
      parkAnswered 0 0 0 true (dropTranslations hit s)) s)

/-! ### Pending causes -/

/-- The order of R376 among REMOTE and ASYNC causes. -/
def causeRank (cause : Nat) : Nat :=
  if cause / 128 = 2 then 2
  else match cause % 128 with
    | 95 => 1
    | 14 => 3
    | 31 => 4
    | 61 => 5
    | 73 => 6
    | 10 => 8
    | 78 => 9
    | _ => 7

/-- The first pending cause that the thread can take (R376). -/
def nextCause (core : Core) (c : Ctx) : Option Pending :=
  (c.pend.filter fun p => takeable core c p.cause).foldl (fun best p => match best with
    | none => some p
    | some b => if causeRank p.cause < causeRank b.cause then some p else some b) none

/-- Whether the thread stands at a boundary where it takes a cause: it runs, the occupancy of its last instruction has passed
(R106), and it waits for nothing. -/
def atBoundary (now : Nat) (core : Core) (t : Nat) (c : Ctx) : Bool :=
  decide (c.status = .running) && decide (c.readyAt ≤ now) && !core.halts t c && !core.holds t && c.isLive && !c.suspended && c.ending.isNone

/-- CAUSE_TAKEN (R376, R378): the first pending cause, XPC the next instruction. A PREEMPT that is not delegated is
discarded. -/
def execCauseTaken (s : State) : Result :=
  let a : Actor := ⟨s.arg 0, s.arg 1⟩
  match s.ctx? a with
  | none => .next s
  | some c =>
    if !atBoundary s.now (s.core a.core) a.thread c then .next s
    else match nextCause (s.core a.core) c with
      | none => .next s
      | some p =>
        let s := s.setCtx a { c with pend := c.pend.erase p }
        if p.cause = causeCode .async .preempt ∧ c.mode = 0 ∧ delegated (s.core a.core).xdeleg 78 = false then .next s
        else .next (takeCause a p.cause p.xval c.pc s)

/-! ### Words that fail a decode check (R28) -/

/-- The cause of a word of `len` bytes that the decoder refuses. On a hub core a MATRIX, XFORM or STAGE word is
ILLEGAL_WORD before its reserved fields are looked at (R12). -/
def encodingCause (k len w : Nat) : Reason :=
  let major := w / 2 ^ 27 % 32
  match decodeWord len w with
  | .error .reservedField =>
    if isHub k ∧ len = 4 ∧ (major = 0x19 ∨ major = 0x1A ∨ (major = 0x1B ∧ ¬ (8 ≤ bits w 4 8 ∧ bits w 4 8 ≤ 10)))
    then .illegalWord else .reservedField
  | _ => .illegalWord

/-- ILLEGAL_ENCODING_DECODE (R28): the acting thread's fetched word raises its cause and changes no state. -/
def execIllegalEncodingDecode (s : State) : Result :=
  .next (trapOpen (encodingCause s.actor.core (s.arg 0) (s.arg 1)) s)

end Sys2Proof.Machine
end

