-- ==== Sys2Proof/Machine/Order.lean ====
section
/-! DEFINITION. The ordering class (chapter 10): sync objects and locks, fences and waits, remote atomics, IFLUSH, and the
steps at the hub and at the target cores; and host accesses to memory (R259). -/

namespace Sys2Proof.Machine

/-! ### Waiting for a hub's answer with the PC at the instruction (R239, R241) -/

/-- The context is not ready until the answer; the instruction may still trap, so its PC stays. -/
def waitAt (s : State) : State := s.issued.onMe fun c => { c with status := .waiting, readyAt := s.now + 4 }

/-- The waiting instruction of a thread, 4 bytes long, completes; a follower's leaves its gang buffer (R249), and SINGLE_STEP
follows it (R378). -/
def endWait (a : Actor) (s : State) : State :=
  let s := s.onCore a.core fun c => { c with instret := c.instret + 1 }
  stepTrap a (s.onCtx a fun c => { resume s.now c with
    pc := c.pc + 4
    gang := c.gang.map fun g => if g.stroke = a then g else { g with buffer := g.buffer.tail } })

/-- An instruction for another agent's device: it is tried again until a link slot of the tenant is open (R414). -/
def throughLink (device : Nat) (go : State → State) (s : State) : State :=
  if device ≠ s.plat.devid ∧ s.linkAllowed (s.spaceOf s.actor.core) = false then stall s else go s

/-- The waiting instruction of a thread raises a cause with origin EXECUTE. -/
def failWait (a : Actor) (r : Reason) (xval : Word) (s : State) : State :=
  match s.ctx? a with
  | some c => if c.status = .waiting then takeCause a (causeCode .execute r) xval c.pc s else s
  | none => s

/-! ### Sync objects and bindings (R236 to R238) -/

/-- The device in an object name. -/
def objectDevice (o : Word) : Nat := bits o.toNat 32 14

/-- CheckObjectName (R236). -/
def checkObject (o : Word) (go : State → State) (s : State) : State :=
  if 2 ^ 46 ≤ o.toNat then trapE .syncObjectUnbound o s else go s

/-- Whether a region obeys R43, its access field aside. -/
def regionOk (r : Word) : Bool :=
  decide (6 ≤ regionLog2 r) && decide (regionLog2 r ≤ 57) && decide (r.toNat < 2 ^ 59)
    && decide (regionBase r % 2 ^ regionLog2 r = 0)

/-- Whether two regions name the same bytes. -/
def sameRegion (a b : Word) : Bool := regionLog2 a == regionLog2 b && regionBase a == regionBase b

/-- Whether two regions overlap: one contains the other (R237). -/
def regionsMeet (a b : Word) : Bool :=
  let l := max (regionLog2 a) (regionLog2 b)
  regionBase a / 2 ^ l == regionBase b / 2 ^ l

/-- An answer with a status, on its way to a waiting thread. -/
def statusAnswer (a : Actor) (d q v : Nat) (s : State) : State := answer a d q (word v) (v == 0) s

/-- What the issuer's hub keeps of the bindings that another device's hub has accepted, for the wait of REL (R241, R254).
(DEDUCED, log entry 25.) -/
def noteBinding (unbind : Bool) (b : Binding) (s : State) : State :=
  let other (x : Binding) : Bool := !(x.part == b.part && x.object == b.object && sameRegion x.region b.region)
  s.onHub fun h => { h with bindings := h.bindings.filter other ++ (if unbind then [] else [b]) }

/-- BIND and UNBIND: the request, or the status that another device's hub gives (R237). -/
def bindOp (d a b q : Nat) (unbind : Bool) (s : State) : State :=
  checkRegs (isPq q) (specPark (withOperands [a, b] [d] fun x s =>
    let o := x.getD 0 0
    let r := x.getD 1 0
    checkObject o (fun s =>
      if !regionOk r then trapOpen .taskFootprintInvalid s
      else throughLink (objectDevice o) (fun s =>
        let me := s.actor
        let part := s.spaceOf me.core
        let s := spendOut d (waitAfter 4 4 (popReads [a, b] s))
        if objectDevice o = s.plat.devid then
          s.send .atomic me.core umpireKey s.me.handle (.binding me d q unbind part o r) .bindingRequest
        else match remoteFailure s (objectDevice o) with
          | some _ => statusAnswer me d q 3 s
          | none =>
            let (v, s) := fabricNat 1 s
            let v := v % (if unbind then 2 else 3)
            statusAnswer me d q v (if v = 0 then noteBinding unbind ⟨part, o, r⟩ s else s)) s) s)) s

/-- BIND (R237). -/
def execBind (d a b q : Nat) (s : State) : Result := .next (bindOp d a b q false s)
/-- UNBIND (R238). -/
def execUnbind (d a b q : Nat) (s : State) : Result := .next (bindOp d a b q true s)

/-- The status of a BIND and the state after it (R237). (DEDUCED, log entry 25.) -/
def bindAtHub (part : Nat) (o r : Word) (s : State) : Nat × State :=
  let mine := s.hub.bindings.filter fun b => b.part == part && objectDevice b.object == s.plat.devid
  if mine.any fun b => b.object == o && sameRegion b.region r then (0, s)
  else if 1024 ≤ mine.length then (1, s)
  else if mine.any fun b => b.object != o && regionsMeet b.region r then (2, s)
  else (0, putObject (s.object part o) (s.onHub fun h => { h with bindings := h.bindings ++ [⟨part, o, r⟩] }))

/-- The status of an UNBIND and the state after it (R238). -/
def unbindAtHub (part : Nat) (o r : Word) (s : State) : Nat × State :=
  let hit (b : Binding) : Bool := b.part == part && b.object == o && sameRegion b.region r
  if s.hub.bindings.any hit then
    (0, putObject (s.object part o) (s.onHub fun h => { h with bindings := h.bindings.filter fun b => !hit b }))
  else (1, s)

/-- BINDING_REQUEST (R237, R238). -/
def execBindingRequest (s : State) : Result :=
  .next (onFlight .bindingRequest (fun f s => match f.payload with
    | .binding a d q unbind part o r =>
      let (v, s) := if unbind then unbindAtHub part o r s else bindAtHub part o r s
      some (statusAnswer a d q v s)
    | _ => none) s)

/-! ### Locks (R239 to R241) -/

/-- ACQ's answers: 0 unbound, 1 granted, 2 queued. -/
def lockAnswer (a : Actor) (ans : Nat) (o : Word) (slot : Nat) (count : Word) (s : State) : State :=
  s.send .atomic umpireKey a.core 0 (.lockAnswer a ans o slot count) .hubAnswer

/-- A grant that another device's hub is to send to a queued request: the step's arguments are a number of its own, the handle,
the slot and the count (DESIGN CHOICE, log entry 7). -/
def postGrant (delay h slot count : Nat) (s : State) : State := s.newId.2.post delay .lockGrant [s.ids, h, slot, count]

/-- ACQ.X and ACQ.S. (DESIGN CHOICE, log entry 7.) -/
def acquire (a b : Nat) (exclusive : Bool) (s : State) : State :=
  specPark (withOperands [a, b] [] fun v s =>
    let o := v.getD 0 0
    let x := (v.getD 1 0).toNat
    checkObject o (checkLs x 8 8 (lsMisaligned x) (awaitPrints [] [run x 8] (throughLink (objectDevice o) fun s =>
      let me := s.actor
      let part := s.spaceOf me.core
      let s := waitAt (popReads [a, b] s)
      if objectDevice o = s.plat.devid then
        s.send .atomic me.core umpireKey s.me.handle (.lock me part o exclusive x) .lockRequest
      else match remoteFailure s (objectDevice o) with
        | some _ => lockAnswer me 0 o x 0 s
        | none =>
          let (v, s) := fabricNat 1 s
          let (c, s) := fabricNat 8 s
          let (late, s) := fabricNat 8 s
          lockAnswer me (v % 3) o x (word c) (if v % 3 = 2 then postGrant late s.me.handle x c s else s)))) s) s

/-- ACQ.X (R239). -/
def execAcqX (a b : Nat) (s : State) : Result := .next (acquire a b true s)
/-- ACQ.S (R239). -/
def execAcqS (a b : Nat) (s : State) : Result := .next (acquire a b false s)

/-- Whether an object exists (R236, R238). -/
def objectExists (h : Hub) (part : Nat) (o : Word) : Bool := h.objects.any fun x => x.isFor part o

/-- LOCK_REQUEST (R239, R240): unbound, granted at once, or queued. -/
def execLockRequest (s : State) : Result :=
  .next (onFlight .lockRequest (fun f s => match f.payload with
    | .lock a part o exclusive slot =>
      let h := (s.ctx a).handle
      let obj := s.object part o
      if !objectExists s.hub part o then some (lockAnswer a 0 o slot 0 s)
      else if obj.holders.any fun x => x.1 == h then some (lockAnswer a 1 o slot obj.count s)
      else
        let (gs, obj') := serveQueue (obj.queue.length + 1)
          { obj with queue := obj.queue ++ [⟨h, a.core, exclusive, slot⟩] }
        let s := s.onHub fun hub =>
          { hub with objects := obj' :: hub.objects.filter fun x => !x.isFor part o }
        some (lockAnswer a (if gs.isEmpty then 2 else 1) o slot obj.count s)
    | _ => none) s)

/-- A release count written with full bits into a grant slot (R239). -/
def writeGrant (k slot : Nat) (count : Word) (s : State) : State :=
  arriveFull k (wordsOf slot 8) (s.onCore k fun c => c.lsPut slot (bytesOfNat 8 count.toNat))

/-- The grant of another device's hub reaches its thread, parked in its ACQ, once its link slot is open (R414). It comes later
while the answer has not arrived or the thread is saved, and a thread that has ended has withdrawn its request (R242). -/
def grantFromAfar (s : State) : State :=
  let h := s.arg 1
  let saved := s.hub.saved.any fun v => v.cores.any fun c => c.image.threads.any fun t => t.2.handle == h
  match s.ownerOf h with
  | some a =>
    if (s.ctx a).isDraining then s
    else if (s.ctx a).status = .waiting ∨ s.linkAllowed (s.spaceOf a.core) = false then s.post 1 .lockGrant s.args
    else writeGrant a.core (s.arg 2) (word (s.arg 3)) s
  | none => if saved then s.post 1 .lockGrant s.args else s

/-- LOCK_GRANT (R239): the slot is written, which ends the park of the ACQ. -/
def execLockGrant (s : State) : Result :=
  .next (if 1 < s.args.length ∧ (s.net.any fun f => f.id == s.arg 0) = false then grantFromAfar s
  else onFlight .lockGrant (fun f s => match f.payload with
    | .grant a slot count => some (writeGrant a.core slot count s)
    | _ => none) s)

/-- The answer to an ACQ reaches its thread (R239). -/
def lockAnswered (a : Actor) (ans : Nat) (o : Word) (slot : Nat) (count : Word) (s : State) : State :=
  if (s.ctx a).status ≠ .waiting then s
  else match ans with
    | 0 => failWait a .syncObjectUnbound o s
    | 1 => endWait a (writeGrant a.core slot count s)
    | _ =>
      let s := endWait a (setStates a.core (wordsOf slot 8) 0 s)
      s.onCtx a fun c => { c with status := .parked, park := BitVec.ofNat 32 (6 + 256 * (slot % 2 ^ 24)) }

/-- Whether a queue entry is one of the acting thread's. -/
def isMine (s : State) (owner : Nat) : Bool := owner == s.me.handle || s.ownerOf owner == some s.actor

/-- The acting thread's entries in any queue, held puts apart. -/
def myEntries (s : State) : List Entry := s.cores.flatMap fun c => c.2.entries.filter fun e => isMine s e.owner

/-- The virtual ranges of an entry's remote side: start, bytes. -/
def remoteRanges (e : Entry) : List (Nat × Nat) :=
  match e.op with
  | .gamo _ wide _ => [(e.rem.toNat, if wide then 8 else 4)]
  | .tierpf len _ => [(e.rem.toNat, len)]
  | _ => (runsOf e).map fun r => (r.1, r.2.2)

/-- Whether a range overlaps a region. -/
def meetsRegion (r : Word) (x : Nat × Nat) : Bool :=
  decide (x.1 < regionBase r + 2 ^ regionLog2 r) && decide (regionBase r < x.1 + x.2)

/-- Whether a PUT, PUTS or GAMO of the thread into a region of the object is in flight (R241). -/
def putsPending (s : State) (part : Nat) (o : Word) : Bool :=
  let regions := (s.hub.bindings.filter fun b => b.part == part && b.object == o).map (·.region)
  (myEntries s).any fun e =>
    (match e.op with
      | .put _ | .puts .. | .gamo .. => true
      | _ => false)
    && (match e.state with
      | .failed _ _ _ => false
      | _ => true)
    && (remoteRanges e).any fun x => regions.any fun r => meetsRegion r x

/-- The answer to a REL. -/
def releaseAnswer (a : Actor) (held : Bool) (o : Word) (s : State) : State :=
  s.send .atomic umpireKey a.core 0 (.releaseAnswer a held o) .hubAnswer

/-- REL (R241). (DESIGN CHOICE, log entry 7.) -/
def execRel (a : Nat) (s : State) : Result :=
  .next (specPark (withOperands [a] [] fun v s =>
    let o := v.getD 0 0
    checkObject o (throughLink (objectDevice o) fun s =>
      let me := s.actor
      let part := s.spaceOf me.core
      if putsPending s part o then stall s
      else
        let s := waitAt (popReads [a] s)
        if objectDevice o = s.plat.devid then
          s.send .atomic me.core umpireKey s.me.handle (.release me part o) .lockRelease
        else match remoteFailure s (objectDevice o) with
          | some _ => releaseAnswer me false o s
          | none =>
            let (v, s) := fabricNat 1 s
            releaseAnswer me (v % 2 == 1) o s) s) s)

/-- LOCK_RELEASE (R240, R241): the hold ends and the queue is served. -/
def execLockRelease (s : State) : Result :=
  .next (onFlight .lockRelease (fun f s => match f.payload with
    | .release a part o =>
      let h := (s.ctx a).handle
      let obj := s.object part o
      if obj.holders.any fun x => x.1 == h then some (releaseAnswer a true o (putObject (obj.drop h) s))
      else some (releaseAnswer a false o s)
    | _ => none) s)

/-- HUB_ANSWER (R239, R241, R403): the answer reaches its thread, which writes its status, goes on or traps. -/
def execHubAnswer (s : State) : Result :=
  .next (onFlight .hubAnswer (fun f s => match f.payload with
    | .status a d q value ok =>
      some ((deliver a d value s).onCtx a fun c => resume s.now (if q = 0 then c else c.wpOk q ok))
    | .plain a d value => some ((deliver a d value s).onCtx a (resume s.now))
    | .lockAnswer a ans o slot count => some (lockAnswered a ans o slot count s)
    | .releaseAnswer a held o =>
      if (s.ctx a).status ≠ .waiting then some s
      else if held then some (endWait a s) else some (failWait a .releaseNotHeld o s)
    | _ => none) s)

/-! ### FENCE, WAITN and WAITC (R243 to R245) -/

/-- The destination core of an RPUT or KADD entry, if it is one of this device. -/
def entryDest (s : State) (e : Entry) : Option Nat :=
  match e.op with
  | .rput .. => if winDevice e.rem.toNat = s.plat.devid then winCore e.rem.toNat else none
  | .kadd _ => if nameDevice e.rem.toNat = s.plat.devid then nameCore e.rem.toNat else none
  | _ => none

/-- Whether the home of some page of an entry's remote side is, or may be, on this device (R243). -/
def homedHere (s : State) (k : Nat) (e : Entry) : Bool :=
  (remoteRanges e).any fun x => (pageSpots x).any fun va =>
    (s.cached (clusterOf k) (s.spaceOf k) va).all fun t => t.device == s.plat.devid

/-- Whether an entry counts for a fence of this scope (R243). -/
def fenceCounts (s : State) (scope : Nat) (e : Entry) : Bool :=
  let k := s.actor.core
  match scope with
  | 0 => false
  | 1 => (entryDest s e).any fun d => clusterOf d == clusterOf k
  | 2 => (entryDest s e).isSome || (match e.op with
      | .put _ | .puts .. | .gamo .. | .tierpf .. => homedHere s k e
      | _ => false)
  | _ => true

/-- Whether an unacknowledged operation counts for a fence of this scope. -/
def ackCounts (s : State) (scope : Nat) (u : Unacked) : Bool :=
  match scope with
  | 0 => false
  | 1 => decide (u.dest < elsewhere) && clusterOf u.dest == clusterOf s.actor.core
  | 2 => decide (u.dest < elsewhere)
  | _ => true

/-- Whether a footprint that the acting thread entered is in flight. -/
def hasPrints (s : State) : Bool := s.cores.any fun c => c.2.prints.any fun f => isMine s f.owner

/-- FENCE of a scope (R243): it waits, then empties the fetch buffer. -/
def fence (scope : Nat) (s : State) : State :=
  if hasPrints s || (myEntries s).any (fenceCounts s scope) || s.me.unacked.any (ackCounts s scope) then stall s
  else retire 4 4 (s.onMe fun c => { c with fetch := none })

/-- FENCE.core (R243). -/
def execFenceCore (s : State) : Result := .next (fence 0 s)
/-- FENCE.clus (R243). -/
def execFenceClus (s : State) : Result := .next (fence 1 s)
/-- FENCE.dev (R243). -/
def execFenceDev (s : State) : Result := .next (fence 2 s)
/-- FENCE.dom (R243). -/
def execFenceDom (s : State) : Result := .next (fence 3 s)

/-- The four counts of R244: gets, puts, tile operations, remote operations. -/
def waitCounts (s : State) : List Nat :=
  let es := myEntries s
  let isGet (e : Entry) : Bool := match e.op with
    | .get _ | .gets .. | .tierpf .. => true
    | _ => false
  let isPut (e : Entry) : Bool := match e.op with
    | .put _ | .puts .. => true
    | _ => false
  [es.countP isGet, es.countP isPut,
   (s.cores.flatMap fun c => c.2.prints).countP fun f => f.tile && isMine s f.owner, s.me.unacked.length]

/-- WAITN (R244). -/
def execWaitn (a : Nat) (s : State) : Result :=
  .next (withOperands [a] [] (fun v s =>
    let x := v.getD 0 0
    if 2 ^ 32 ≤ x.toNat then trapE .immediateRange x s
    else
      let above := (waitCounts s).zipIdx.any fun e =>
        decide (bits x.toNat (8 * e.2) 8 < 32) && decide (bits x.toNat (8 * e.2) 8 < e.1)
      if above then stall s else retire 4 4 (popReads [a] s)) s)

/-- WAITC (R245). -/
def execWaitc (k r : Nat) (s : State) : Result :=
  .next (withOperands [r] [] (fun v s =>
    if 0 ≤ (Map.get 0 s.here.kval k - (v.getD 0 0).setWidth 32).toInt then retire 4 4 (popReads [r] s)
    else parkAt 2 k s) s)

/-! ### Remote atomics (R246, R247) -/

/-- The request of a remote atomic on its way to another device, which acts on it `late` cycles from now (DESIGN CHOICE, log
entry 7). -/
def sendAfar (late dst : Nat) (p : Payload) (s : State) : State :=
  State.post { s with net := s.net ++ [⟨s.ids, .atomic, s.actor.core, dst, s.me.handle, p, s.sendEff p⟩], ids := s.ids + 1 } late
    .remoteAtomicPerform [s.ids]

/-- RCAS and RAMO: operation 9 is the compare-and-swap. -/
def remoteAtomic (op d a b q : Nat) (s : State) : State :=
  let reads := if op = 9 then [a, b, d] else [a, b]
  specPark (withOperands reads [d] fun v s =>
    let w := v.getD 0 0
    let n := widthOf q
    let x := w.toNat
    checkWindow w n false (fun s =>
      if winOffset x % n ≠ 0 then trapE .amoMisaligned w s
      else throughLink (winDevice x) (fun s =>
        let me := s.actor
        let s := spendOut d (parkAfter 4 4 9 0 (popReads reads s))
        let m := 2 ^ (8 * n)
        let request : Payload :=
          .atomic me d op (n == 8) (decide (4 ≤ q)) (winOffset x) ((v.getD 1 0).toNat % m) ((v.getD 2 0).toNat % m) w
        let armed (s : State) : State :=
          (s.onMe fun c => { c with timeoutAt := some (s.now + 2 ^ 22) }).post (2 ^ 22) .remoteAtomicCancel [me.core, me.thread]
        let reply (ans old : Nat) (s : State) : State :=
          s.send .atomic (elsewhere + winDevice x) me.core 0 (.atomicReply me d (n == 8) ans old w) .remoteAtomicReply
        if winDevice x ≠ s.plat.devid then
          match remoteFailure s (winDevice x) with
          | some .remoteDenied => reply 3 0 s
          | some _ => reply 4 0 s
          | none =>
            if (winCore x).isNone then reply 3 0 s
            else
              let (late, s) := fabricNat 3 s
              sendAfar late (elsewhere + winDevice x) request (armed s)
        else match winCore x with
          | none => reply 3 0 s
          | some k => (armed s).send .atomic me.core k s.me.handle request .remoteAtomicPerform) s) s) s

/-- RCAS (R246). -/
def execRcas (d a b q : Nat) (s : State) : Result := .next (remoteAtomic 9 d a b q s)
/-- RAMO.ADD (R246). -/
def execRamoAdd (d a b q : Nat) (s : State) : Result := .next (remoteAtomic 0 d a b q s)
/-- RAMO.AND (R246). -/
def execRamoAnd (d a b q : Nat) (s : State) : Result := .next (remoteAtomic 1 d a b q s)
/-- RAMO.OR (R246). -/
def execRamoOr (d a b q : Nat) (s : State) : Result := .next (remoteAtomic 2 d a b q s)
/-- RAMO.XOR (R246). -/
def execRamoXor (d a b q : Nat) (s : State) : Result := .next (remoteAtomic 3 d a b q s)
/-- RAMO.MIN (R246). -/
def execRamoMin (d a b q : Nat) (s : State) : Result := .next (remoteAtomic 4 d a b q s)
/-- RAMO.MAX (R246). -/
def execRamoMax (d a b q : Nat) (s : State) : Result := .next (remoteAtomic 5 d a b q s)
/-- RAMO.MINN (R246). -/
def execRamoMinn (d a b q : Nat) (s : State) : Result := .next (remoteAtomic 6 d a b q s)
/-- RAMO.MAXN (R246). -/
def execRamoMaxn (d a b q : Nat) (s : State) : Result := .next (remoteAtomic 7 d a b q s)
/-- RAMO.SWAP (R246). -/
def execRamoSwap (d a b q : Nat) (s : State) : Result := .next (remoteAtomic 8 d a b q s)

/-- The atomic at a bank: the old value, and the core after it (R246). -/
def bankAtomic (k op n off b expected : Nat) (full : Bool) (s : State) : Nat × State :=
  let old := (s.core k).lsRead off n
  let writes := op != 9 || old == expected
  let new := if op = 9 then b else atomicOp op n old b
  if !writes then (old, s)
  else
    let s := s.onCore k fun c => c.lsWrite off n new
    (old, if full then arriveFull k (wordsOf off n) s else s)

/-- REMOTE_ATOMIC_PERFORM (R246): the bank operation and the reply; an uncorrectable word is answered. Another device answers with a
free value, or that the word is uncorrectable (DESIGN CHOICE, log entry 7). -/
def execRemoteAtomicPerform (s : State) : Result :=
  .next (onFlight .remoteAtomicPerform (fun f s => match f.payload with
    | .atomic a d op wide full off b expected name =>
      let k := f.dst
      let n := if wide then 8 else 4
      let reply (ans old : Nat) (s : State) : State :=
        s.send .atomic k a.core 0 (.atomicReply a d wide ans old name) .remoteAtomicReply
      if elsewhere ≤ k then
        let (bad, s) := fabricNat 1 s
        let (old, s) := fabricNat n s
        some (if bad % 2 = 1 then reply 2 0 s else reply 0 old s)
      else if ((s.core k).badWord off n).isSome then some (reply 2 0 s)
      else
        let (old, s) := bankAtomic k op n off b expected full (correctSingles k off n s)
        some (reply 0 old s)
    | _ => none) s)

/-- The cause of an answer that is no reply (R247). -/
def answerReason (ans : Nat) : Reason :=
  match ans with
  | 1 => .remoteAtomicTimeout
  | 2 => .lsUncorrectable
  | 3 => .remoteDenied
  | _ => .remoteUnreachable

/-- REMOTE_ATOMIC_REPLY (R246, R247): g[d] written, or the REMOTE cause pending; the park ends. XVAL is the window for
LS_UNCORRECTABLE, and free for the others, for which R247 names none (DESIGN CHOICE, log entry 11). -/
def execRemoteAtomicReply (s : State) : Result :=
  .next (onFlight .remoteAtomicReply (fun f s => match f.payload with
    | .atomicReply a d wide ans old name =>
      if ans = 0 then
        some ((deliver a d (if wide then word old else sext64 32 old) s).onCtx a (resume s.now))
      else
        let s := (refundOut a d s).onCtx a (resume s.now)
        let xval := if ans = 2 then name else Config.unstatedXval s.fresh
        some (pendCause (s.ctx a).handle a.core ⟨causeCode .remote (answerReason ans), xval, 2, 0⟩ { s with fresh := s.fresh + 1 })
    | _ => none) s)

/-- The request of a thread's remote atomic that has not been performed. -/
def unperformed (s : State) (a : Actor) : Option Flight :=
  s.net.find? fun f => match f.payload with
    | .atomic b .. => b == a
    | _ => false

/-- REMOTE_ATOMIC_CANCEL (R247): the issuer, still parked after 2^22 cycles, sends a cancel. -/
def execRemoteAtomicCancel (s : State) : Result :=
  let a : Actor := ⟨s.arg 0, s.arg 1⟩
  let c := s.ctx a
  .next (if c.parkReason = 9 ∧ c.timeoutAt.any (fun t => decide (t ≤ s.now)) = true then
      match unperformed s a with
      | some f =>
        (s.onCtx a fun c => { c with timeoutAt := none }).send .atomic a.core f.dst c.handle (.cancel a) .cancelAtTarget
      | none => s
    else s)

/-- CANCEL_AT_TARGET (R247): a request not performed is discarded and answered; one performed has its reply on the way. A cancel
for another device waits for a link slot (R414). -/
def execCancelAtTarget (s : State) : Result :=
  .next (match s.net.find? fun f => f.id == s.arg 0 with
    | some f => match f.payload with
      | .cancel a =>
        if elsewhere ≤ f.dst ∧ s.linkAllowed (s.spaceOf f.src) = false then s.post 1 .cancelAtTarget s.args else
        let s := s.landed f.id
        match unperformed s a with
        | some r => match r.payload with
          | .atomic a d _ wide _ _ _ _ name =>
            (s.landed r.id).send .atomic f.dst a.core 0 (.atomicReply a d wide 1 0 name) .remoteAtomicReply
          | _ => s
        | none => s
      | _ => s
    | none => s)

/-! ### IFLUSH (R248) -/

/-- IFLUSH (R248). -/
def execIflush (k a sc q : Nat) (s : State) : Result :=
  .next (checkRegs (isPq q) (specPark (withOperands [a] [] fun v s =>
    let x := v.getD 0 0
    if x = 0 ∨ 2 ^ 16 ≤ x.toNat then trapE .immediateRange x s
    else enqueue (.iflush k a sc q) (.iflush x.toNat sc) (some k) q 0 x 0 [] [] [a] s)) s)

/-! ### The host's accesses to memory (R13, R259, R401, R406, R442) -/

/-- Whether a host-core or PCIe access to a range of memory may reach it: kernel 0 passes the deed check at both ends.
(DEDUCED, log entry 36.) -/
def hostMayReach (s : State) (addr n : Nat) : Bool :=
  [addr, addr + n - 1].all fun a =>
    (s.deedCheck 0 (frameOf a)).isNone && !s.refuses 0 (frameOf a)

/-- A host-core or PCIe access: at a register it is a register access; in memory it is performed at the home. A refused
or failing read returns all ones and a refused or failing write is dropped, each with an access fault.
(DESIGN CHOICE, log entry 3.) -/
def hostAccess (m addr n : Nat) (isWrite : Bool) (v : Nat) (s : State) : State :=
  let ended (x : Nat) (fault : Bool) (s : State) : State :=
    { s with lastLoad := if isWrite then s.lastLoad else word x, lastFault := fault }
  let ones := 2 ^ (8 * n) - 1
  if inHub addr then
    if isWrite then ended 0 false (hubWrite m addr n v s)
    else ended (hubRead s m addr n) ((windowAt addr n).any fun w => ((s.core w.1).badWord w.2 n).isSome) (readCorrects addr n s)
  else if n = 0 ∨ !hostMayReach s addr n ∨ hitsShut s addr n then ended ones true s
  else if isWrite then
    if (s.partBad addr n).isSome then ended 0 true s
    else ended 0 false ((s.heal addr n).physPut addr (bytesOfNat n v))
  else if (s.physBad addr n).isSome then ended ones true s
  else ended (s.physRead addr n) false s

/-- HOST_MEMORY_ACCESS (R259). -/
def execHostMemoryAccess (s : State) : Result :=
  .next (hostAccess (s.arg 0) (s.arg 1) (s.arg 2) (s.arg 3 != 0) (s.arg 4) s)

end Sys2Proof.Machine
end

