-- ==== Sys2Proof/Machine/Deed.lean ====
section
/-! DEFINITION. Deeds (R399 to R409): the deed operations of the control cores and of the host deed port, transits, recalls
and revocations, deed events, and zero-on-read frames. -/

namespace Sys2Proof.Machine

/-! ### Entries and events (R400, R407) -/

/-- STATE's code. -/
def stateCode (s : DeedState) : Nat :=
  match s with
  | .owned => 0
  | .offered => 1
  | .lent => 2
  | .recalling => 3
  | .zeroOnRead => 4

/-- An entry as DQUERY returns it (R400). -/
def deedWord (e : Deed) : Nat :=
  stateCode e.state + (if e.transit then 8 else 0) + 2 ^ 4 * e.owner + 2 ^ 8 * e.shownOther + 2 ^ 12 * e.ended
    + (if e.clear then 2 ^ 14 else 0) + 2 ^ 16 * e.breaches + 2 ^ 32 * e.deadline

/-- A deed event to a kernel (R407). -/
def deedEvent (kernel code cause f : Nat) (address : Word) (s : State) : State :=
  sendRecord kernel { plainRecord cause 0xFF 8 0 address 0 with frame := f * 2 ^ 21, event := code } s

/-- The records that wait for a ring are due again, since a ring's frame may have changed hands (R375). -/
def retryRecords (s : State) : State :=
  s.hub.fqs.foldl (fun s q => if q.2.waiting.isEmpty then s else s.post 0 .faultRecordWrite [q.1])
    (if s.hub.hostRecords.isEmpty then s else s.post 0 .faultRecordWrite [0])

/-- The answer to a deed operation (R403, R408). -/
def deedAnswer (c : DeedClient) (value : Nat) (s : State) : State :=
  match c with
  | .thread k t d q => answer ⟨k, t⟩ d q (word value) (value == 0) s
  | .port slot => s.onHub fun h =>
      { h with port := Tbl.put h.port slot { (Tbl.get? h.port slot).getD PortSlot.reset with result := word value } }
  | .hub => s

/-- A frame becomes ZERO_ON_READ: none of its lines is written, and the clearing engines take it up (R409). -/
def beginZero (f : Nat) (s : State) : State :=
  (s.onHub fun h => { h with lines := Tbl.del h.lines f }).post 2700 .zeroOnReadCleared [f]

/-! ### Transits (R406) -/

/-- Whether a cached translation reaches a frame. -/
def TlbEntry.reaches (e : TlbEntry) (f : Nat) : Bool :=
  decide (e.phys < (f + 1) * 2 ^ 21) && decide (f * 2 ^ 21 < e.phys + 2 ^ e.log2)

/-- Kernel `k` loses its cached translations of a frame, in every cluster of the device (R406). -/
def shootDown (f k : Nat) (s : State) : State :=
  dropTranslations (fun t => t.reaches f && t.device == s.plat.devid && s.spaceKernel t.space == k) s

/-- A transit begins: TRANSIT is set, and the loser's cached translations of the frame are removed. -/
def beginTransit (f op loser : Nat) (client : DeedClient) (e : Deed) (s : State) : State :=
  let s := s.setDeed f { e with transit := true }
  let s := shootDown f loser s
  (s.onHub fun h => { h with transits := Tbl.put h.transits f ⟨op, client⟩ }).post 0
    .deedTransitEnd [f]

/-- What takes effect when a transit ends, by its operation: 1 DACCEPT, 5 DRELEASE, 7 a revocation (R405, R406). -/
def transitEffect (op f : Nat) (e : Deed) (s : State) : State :=
  let e := { e with transit := false }
  match op with
  | 1 =>
    let old := e.owner
    let zero := e.clear
    let s := s.setDeed f { e with owner := e.other, state := if zero then .zeroOnRead else .owned, clear := false }
    deedEvent old 2 0 f 0 (if zero then beginZero f s else s)
  | 5 => deedEvent e.owner 5 0 f 0 (s.setDeed f { e with state := .owned, ended := 1 })
  | _ =>
    let b := e.other
    let s := s.setDeed f { e with state := .owned, ended := 2, breaches := min (e.breaches + 1) 255 }
    let s := s.onHub fun h => { h with breachk := Map.set 0 h.breachk b (Map.get 0 h.breachk b + 1) }
    deedEvent e.owner 6 0 f 0 (deedEvent b 7 (causeCode .async .deedBreach) f 0 s)

/-- DEED_TRANSIT_END (R406): the shootdown and the drain are over, and the operation takes effect. A translation that the
loser has filled meanwhile goes with the end: the shootdown outlasts every walk for the frame. (DEDUCED, log entry 32.) -/
def execDeedTransitEnd (s : State) : Result :=
  let f := s.arg 0
  .next (match Tbl.get? s.hub.transits f with
    | none => s
    | some t =>
      let s := s.onHub fun h => { h with transits := Tbl.del h.transits f }
      let e := Map.get Deed.reset s.hub.deeds f
      let s := shootDown f (if t.op = 1 then e.owner else e.other) s
      replayScrubbed f (retryRecords (deedAnswer t.client 0 (transitEffect t.op f e s))))

/-- RECALL_DEADLINE_EXPIRY (R406): the hub revokes the frame, and its home refuses the borrower from now on. -/
def execRecallDeadlineExpiry (s : State) : Result :=
  let f := s.arg 0
  let e := s.deed f
  .next (if e.state = .recalling ∧ e.transit = false ∧ e.due ≤ s.time then
    beginTransit f 7 e.other .hub { e with refused := some e.other } s
  else s)

/-- Whether a line of a frame is still to be cleared in a stack that accepts no command (R409, R437). -/
def clearsShut (s : State) (f : Nat) : Bool :=
  s.anyShut && (List.range 32768).any fun i =>
    !(s.writtenLines f).contains (32768 * f + i) && s.shutAt (2 ^ 21 * f + 64 * i)

/-- ZERO_ON_READ_CLEARED (R409): the lines without a written bit hold zeros, and the frame is OWNED. A stack that accepts no command
clears no line (R437). -/
def execZeroOnReadCleared (s : State) : Result :=
  let f := s.arg 0
  let e := s.deed f
  .next (if e.state = .zeroOnRead ∧ s.plat.wiping = false then
    if clearsShut s f then s.post 1 .zeroOnReadCleared s.args else
    let written := s.writtenLines f
    let s := { s with dram := s.dram.filter fun b => frameOf b.1 != f || written.contains (b.1 / 64) }
    let s := s.onHub fun h => { h with lines := Tbl.del h.lines f }
    retryRecords (deedEvent e.owner 9 0 f 0 (s.setDeed f { e with state := .owned }))
  else s)

/-! ### The operations (R404, R405) -/

/-- Whether the frame operand is legal (R404). -/
def frameOk (a : Word) : Bool := bits a.toNat 0 21 == 0 && bits a.toNat 48 16 == 0

/-- Whether the second operand of an operation is legal for kernel `k` (R404). -/
def deedArgOk (op k : Nat) (b : Word) : Bool :=
  let x := b.toNat
  match op with
  | 0 => decide (x < 32) && bits x 0 4 != k
  | 3 => bits x 5 3 == 0 && bits x 32 32 == 0 && bits x 0 4 != k && decide (1 ≤ bits x 8 24)
      && decide (bits x 8 24 ≤ 16000000)
  | _ => true

/-- DOFFER for kernel `k`. (DEDUCED, log entry 32.) -/
def doffer (k f : Nat) (arg : Word) (e : Deed) (s : State) : Nat × State :=
  if e.owner ≠ k then (1, s)
  else if e.state ≠ .owned then (2, s)
  else
    let t := bits arg.toNat 0 4
    (0, deedEvent t 1 0 f 0 (s.setDeed f
      { e with state := .offered, other := t, clear := arg.getLsbD 4, refused := none }))

/-- DREJECT for kernel `k`. -/
def dreject (k f : Nat) (e : Deed) (s : State) : Nat × State :=
  if e.state = .offered ∧ (e.other = k ∨ e.owner = k) then
    let dest := if e.owner = k then e.other else e.owner
    (0, deedEvent dest 3 0 f 0 (s.setDeed f { e with state := .owned, clear := false }))
  else (1, s)

/-- DLEND for kernel `k`. -/
def dlend (k f : Nat) (arg : Word) (e : Deed) (s : State) : Nat × State :=
  let b := bits arg.toNat 0 4
  if e.owner ≠ k then (1, s)
  else if e.state ≠ .owned then (2, s)
  else if arg.getLsbD 4 ∧ Map.get 0 s.hub.breachk b ≠ 0 then (3, s)
  else
    (0, deedEvent b 8 0 f 0 (s.setDeed f
      { e with state := .lent, other := b, borrower := b, deadline := bits arg.toNat 8 24, ended := 0, refused := none }))

/-- DRECALL for kernel `k`: the deadline falls DEADLINE µs from now. -/
def drecall (k f : Nat) (e : Deed) (s : State) : Nat × State :=
  if e.owner = k ∧ e.state = .lent then
    let due := s.time + 1000 * e.deadline
    (0, deedEvent e.other 4 (causeCode .async .recallNotice) f (word due)
      (s.setDeed f { e with state := .recalling, due := due }))
  else (1, s)

/-- Whether a release by the borrower reaches the hub too late (R406). -/
def isLate (k : Nat) (e : Deed) (s : State) : Bool := e.other == k && e.state == .recalling && decide (e.due ≤ s.time)

/-- An operation of kernel `k` on a frame's entry, at the hub (R405). A frame outside R13 or a reserved one gives 1. An
operation with a transit answers when that ends. A late release gives 1, during the revocation as well (DEDUCED, log entry 32). -/
def deedAct (op k f : Nat) (arg : Word) (client : DeedClient) (s : State) : State :=
  let e := s.deed f
  let done (r : Nat × State) : State := retryRecords (deedAnswer client r.1 r.2)
  if !inRanges f || isReserved f then deedAnswer client 1 s
  else if op == 5 && isLate k e s then deedAnswer client 1 s
  else if e.transit then deedAnswer client 2 s
  else match op with
    | 0 => done (doffer k f arg e s)
    | 1 => if e.state = .offered ∧ e.other = k then beginTransit f 1 e.owner client e s else deedAnswer client 1 s
    | 2 => done (dreject k f e s)
    | 3 => done (dlend k f arg e s)
    | 4 => done (drecall k f e s)
    | _ =>
      if e.owner = k ∧ e.state = .owned then done (0, beginZero f (s.setDeed f { e with state := .zeroOnRead }))
      else if e.other = k ∧ (e.state = .lent ∨ e.state = .recalling) then beginTransit f 5 k client e s
      else deedAnswer client 1 s

/-- What DQUERY returns to kernel `k` (R405). -/
def dqueryWord (s : State) (k f : Nat) : Nat :=
  let e := s.deed f
  let visible := e.owner == k
    || (e.other == k && match e.state with
      | .offered | .lent | .recalling => true
      | _ => false)
  if !inRanges f then 5 else if isReserved f then 7 else if visible then deedWord e else 6

/-- The kernel ID that an instruction of this chapter acts for (R399); 16 for the Umpire, which belongs to no kernel. -/
def issuerKernel (s : State) : Nat := if s.actor.core = umpireKey then 16 else s.kernelOf s.actor.core

/-- A deed instruction with a status (R403, R404). -/
def deedInstr (op d a : Nat) (b : Option Nat) (q : Nat) (s : State) : State :=
  privileged (checkRegs (isPq q) (withOperands (a :: b.toList) [d] fun x s =>
    let k := issuerKernel s
    let fa := x.getD 0 0
    let arg := x.getD 1 0
    if !frameOk fa then trapE .immediateRange fa s
    else if !deedArgOk op k arg then trapE .immediateRange arg s
    else
      let me := s.actor
      let s := spendOut d (parkAfter 4 4 9 0 (popReads (a :: b.toList) s))
      deedAct op k (frameOf fa.toNat) arg (.thread me.core me.thread d q) s)) s

/-- DOFFER (R405). -/
def execDoffer (d a b q : Nat) (s : State) : Result := .next (deedInstr 0 d a (some b) q s)
/-- DACCEPT (R405). -/
def execDaccept (d a q : Nat) (s : State) : Result := .next (deedInstr 1 d a none q s)
/-- DREJECT (R405). -/
def execDreject (d a q : Nat) (s : State) : Result := .next (deedInstr 2 d a none q s)
/-- DLEND (R405). -/
def execDlend (d a b q : Nat) (s : State) : Result := .next (deedInstr 3 d a (some b) q s)
/-- DRECALL (R405). -/
def execDrecall (d a q : Nat) (s : State) : Result := .next (deedInstr 4 d a none q s)
/-- DRELEASE (R405). -/
def execDrelease (d a q : Nat) (s : State) : Result := .next (deedInstr 5 d a none q s)

/-- DQUERY (R405). -/
def execDquery (d a : Nat) (s : State) : Result :=
  .next (privileged (withOperands [a] [d] fun x s =>
    let fa := x.getD 0 0
    if !frameOk fa then trapE .immediateRange fa s
    else
      let r := dqueryWord s (issuerKernel s) (frameOf fa.toNat)
      let s := spendOut d (parkAfter 4 4 9 0 (popReads [a] s))
      s.send .control umpireKey s.actor.core 0 (.plain s.actor d (word r)) .hubAnswer) s)

/-! ### The host deed port (R408) -/

/-- A command of the port for kernel 0: its slot, with the operands that the slot held at the DPCMD write; 0xFF for an operand
that R404 would trap. -/
def portCommand (op : Nat) (s : State) : State :=
  let slot := s.arg 0
  let frame := word (s.arg 1)
  let arg := word (s.arg 2)
  if !frameOk frame || !deedArgOk op 0 arg then deedAnswer (.port slot) 0xFF s
  else if op = 6 then deedAnswer (.port slot) (dqueryWord s 0 (frameOf frame.toNat)) s
  else deedAct op 0 (frameOf frame.toNat) arg (.port slot) s

/-- DPCMD_DOFFER (R408). -/
def execDpcmdDoffer (s : State) : Result := .next (portCommand 0 s)
/-- DPCMD_DACCEPT (R408). -/
def execDpcmdDaccept (s : State) : Result := .next (portCommand 1 s)
/-- DPCMD_DREJECT (R408). -/
def execDpcmdDreject (s : State) : Result := .next (portCommand 2 s)
/-- DPCMD_DLEND (R408). -/
def execDpcmdDlend (s : State) : Result := .next (portCommand 3 s)
/-- DPCMD_DRECALL (R408). -/
def execDpcmdDrecall (s : State) : Result := .next (portCommand 4 s)
/-- DPCMD_DRELEASE (R408). -/
def execDpcmdDrelease (s : State) : Result := .next (portCommand 5 s)
/-- DPCMD_DQUERY (R408). -/
def execDpcmdDquery (s : State) : Result := .next (portCommand 6 s)
/-- DPCMD_NONE (R408): RESULT is 0xFF. -/
def execDpcmdNone (s : State) : Result := .next (deedAnswer (.port (s.arg 0)) 0xFF s)

end Sys2Proof.Machine
end

