-- ==== Sys2Proof/Machine/Formats.lean ====
section
/-! DEFINITION. Number formats and exact arithmetic (chapter 04): decoding to exact values, rounding once, and the
conversions. A value is `m × 2^e` with a natural `m`; `more` says that the exact magnitude lies above it, by less than
one unit `2^e`. -/

namespace Sys2Proof.Machine

/-- An exact value, or a special. -/
inductive Num where
  | nan (signalling : Bool)
  | inf (neg : Bool)
  | zero (neg : Bool)
  | fin (neg : Bool) (m : Nat) (e : Int) (more : Bool)
  deriving DecidableEq, Repr

/-- Rounding modes (R90). -/
inductive Rounding where
  | rne | rtz | rup | rdn
  deriving DecidableEq, Repr

/-- RM of FPC (R90). -/
def roundingOf (fpc : W32) : Rounding :=
  match bits fpc.toNat 0 2 with
  | 0 => .rne
  | 1 => .rtz
  | 2 => .rup
  | _ => .rdn

/-- FTZ of FPC. -/
def ftzOf (fpc : W32) : Bool := fpc.getLsbD 2
/-- CVTTRAP of FPC. -/
def cvtTrapOf (fpc : W32) : Bool := fpc.getLsbD 3

/-- Exceptions in the bit order of EN and FLAGS (R90). -/
def flagNV : Nat := 1
/-- Divide by zero. -/
def flagDZ : Nat := 2
/-- Overflow. -/
def flagOF : Nat := 4
/-- Underflow. -/
def flagUF : Nat := 8
/-- Inexact. -/
def flagNX : Nat := 16

/-! ### Formats (R84). Types 8 to 15 are those of R82; 16 stands for E2M1, which has no vector type. -/

/-- Exponent width. -/
def expWidth (t : Nat) : Nat := [11, 8, 8, 5, 4, 5].getD (t - 8) 2
/-- Fraction width. -/
def fracWidth (t : Nat) : Nat := [52, 23, 7, 10, 3, 2].getD (t - 8) 1
/-- Bias. -/
def biasOf (t : Nat) : Nat := [1023, 127, 127, 15, 7, 15].getD (t - 8) 1
/-- Whether the format has infinities and IEEE NaNs. -/
def isIeee (t : Nat) : Bool := decide (8 ≤ t) && decide (t ≤ 11) || t == 13
/-- Whether the format is tapered. -/
def isTapered (t : Nat) : Bool := t == 14 || t == 15
/-- The number of bits of a type's element. -/
def typeBits (t : Nat) : Nat := if t = 15 then 6 else if t = 16 then 4 else if t < 8 then 8 * 2 ^ (t % 4) else
  [64, 32, 16, 16, 8, 8, 8].getD (t - 8) 8
/-- Whether a type is an integer type. -/
def isIntType (t : Nat) : Bool := decide (t < 8)
/-- Whether an integer type is signed. -/
def isSignedType (t : Nat) : Bool := decide (t < 4)

/-- The greatest finite magnitude code (R84). -/
def maxCode (t : Nat) : Nat :=
  if t = 16 then 7 else if t = 12 then 0x7E else (2 ^ expWidth t - 1) * 2 ^ fracWidth t - 1

/-- The canonical NaN (R84, R88, R89); E2M1 has none. -/
def canonicalNan (t : Nat) : Nat :=
  [0x7FF8000000000000, 0x7FC00000, 0x7FC0, 0x7E00, 0x7F, 0x7E, 0x80, 0x20].getD (t - 8) 0

/-- The sign bit of a type. -/
def signBit (t : Nat) (neg : Bool) : Nat := if neg then 2 ^ (typeBits t - 1) else 0

/-- The magnitude of a tapered code's fields: the run of like bits of R87 from position `i` down. -/
def runLength (m : Nat) (b : Bool) : Nat → Nat
  | 0 => 0
  | i + 1 => if m.testBit i == b then 1 + runLength m b i else 0

/-- A tapered magnitude code of an `n`-bit format as mantissa and exponent (R87). -/
def taperedMag (n m : Nat) : Nat × Int :=
  let b := m.testBit (n - 2)
  let run := runLength m b (n - 1)
  let k : Int := if b then (run : Int) - 1 else -(run : Int)
  let left := n - 2 - run
  let e := if 0 < left ∧ run < n - 1 then bits m (left - 1) 1 else 0
  let fb := if 0 < left ∧ run < n - 1 then left - 1 else 0
  (2 ^ fb + m % 2 ^ fb, 2 * k + e - fb)

/-- A code decoded to its exact value (R84, R87). -/
def decodeFloat (t code : Nat) : Num :=
  let n := typeBits t
  let code := code % 2 ^ n
  let neg := code.testBit (n - 1)
  let mag := code % 2 ^ (n - 1)
  if isTapered t then
    if mag = 0 then (if neg then .nan false else .zero false)
    else let (m, e) := taperedMag n mag; .fin neg m e false
  else
    let tw := fracWidth t
    let ex := mag / 2 ^ tw
    let fr := mag % 2 ^ tw
    if isIeee t && ex == 2 ^ expWidth t - 1 then
      if fr = 0 then .inf neg else .nan (decide (t ≤ 11) && !fr.testBit (tw - 1))
    else if t == 12 && mag == 0x7F then .nan false
    else if mag = 0 then .zero neg
    else if ex = 0 then .fin neg fr (1 - biasOf t - tw) false
    else .fin neg (2 ^ tw + fr) ((ex : Int) - biasOf t - tw) false

/-- Whether a code is a subnormal of a format that R95 counts. -/
def isSubnormal (t code : Nat) : Bool :=
  decide (8 ≤ t) && decide (t ≤ 11) &&
    (let mag := code % 2 ^ (typeBits t - 1); mag != 0 && decide (mag < 2 ^ fracWidth t))

/-- An element's integer value (R82). -/
def intValue (t code : Nat) : Int :=
  if isSignedType t then signedNat (typeBits t) code else (code % 2 ^ typeBits t : Nat)

/-- An integer as an exact value. -/
def numOfInt (x : Int) : Num := if x = 0 then .zero false else .fin (decide (x < 0)) x.natAbs 0 false

/-- An element of any type but E2M1 and integers apart as an exact value. -/
def decodeElem (t code : Nat) : Num := if isIntType t then numOfInt (intValue t code) else decodeFloat t code

/-! ### Rounding (R92, R93) -/

/-- `m × 2^e`, with `more`, rounded to a multiple of `2^q`: the quotient, and whether the result differs. -/
def roundQuantum (mode : Rounding) (neg : Bool) (m : Nat) (e q : Int) (more : Bool) : Nat × Bool :=
  if q ≤ e then (m * 2 ^ (e - q).toNat, more)
  else
    let sh := (q - e).toNat
    let lo := m / 2 ^ sh
    let rem := m % 2 ^ sh
    let half := 2 ^ (sh - 1)
    let inexact := rem != 0 || more
    let up := match mode with
      | .rne => decide (half < rem) || (rem == half && (more || lo % 2 == 1))
      | .rtz => false
      | .rup => inexact && !neg
      | .rdn => inexact && neg
    (if up then lo + 1 else lo, inexact)

/-- A magnitude code from the rounded quotient `y` in units of `2^q` (R84). -/
def packMag (t y : Nat) (q : Int) : Nat :=
  let tw := fracWidth t
  if y < 2 ^ tw then y
  else
    let k := y.log2
    let ex := (q + k + biasOf t).toNat
    let fr := if k ≤ tw then y * 2 ^ (tw - k) else y / 2 ^ (k - tw)
    ex * 2 ^ tw + (fr - 2 ^ tw)

/-- A finite nonzero value rounded into a format of R84: the code and the exceptions of R93. `saturate` is the
overflow row of the narrow formats in R97. -/
def roundFin (t : Nat) (mode : Rounding) (saturate : Bool) (neg : Bool) (m : Nat) (e : Int) (more : Bool) : Nat × Nat :=
  let tw := fracWidth t
  let emin : Int := 1 - biasOf t
  let ex := max ((m.log2 : Int) + e) emin
  let q := ex - tw
  let (y, inexact) := roundQuantum mode neg m e q more
  let code := packMag t y q
  let sign := signBit t neg
  if maxCode t < code then
    let toMax := saturate || !isIeee t || match mode with
      | .rne => false
      | .rtz => true
      | .rup => neg
      | .rdn => !neg
    (sign + (if toMax then maxCode t else maxCode t + 1), flagOF + flagNX)
  else
    let uf := inexact && code != 0 && decide (code < 2 ^ tw)
    (sign + code, (if uf then flagUF else 0) + (if inexact then flagNX else 0))

/-- The output rule of FTZ (R96). -/
def flushOut (ftz : Bool) (t : Nat) (r : Nat × Nat) : Nat × Nat :=
  if ftz && isSubnormal t r.1 then
    (signBit t (r.1.testBit (typeBits t - 1)), r.2 ||| flagUF ||| flagNX) else r

/-- A result rounded into FP64, FP32, FP16 or BF16 (R92, R93); a signalling NaN raises NV. -/
def roundNum (t : Nat) (mode : Rounding) : Num → Nat × Nat
  | .nan s => (canonicalNan t, if s then flagNV else 0)
  | .inf neg => (signBit t neg + (maxCode t + 1), 0)
  | .zero neg => (signBit t neg, 0)
  | .fin neg m e more => if m = 0 ∧ more = false then (signBit t neg, 0) else roundFin t mode false neg m e more

/-- RoundRNE of an exact value (R92, R102): no flag is kept. -/
def roundRne (t : Nat) (x : Num) : Nat := (roundNum t .rne x).1

/-! ### Exact arithmetic -/

/-- The sign of an exact zero sum (R89). -/
def zeroSum (mode : Rounding) : Num := .zero (mode == .rdn)

/-- `m × 2^e` at exponent `q ≤ e`. -/
def scaleTo (neg : Bool) (m : Nat) (e q : Int) : Int :=
  let x : Int := m * 2 ^ (e - q).toNat
  if neg then -x else x

/-- An exact integer times `2^e`. -/
def numOfScaled (mode : Rounding) (x e : Int) : Num :=
  if x = 0 then zeroSum mode else .fin (decide (x < 0)) x.natAbs e false

/-- The exact sum; ∞ − ∞ is invalid, shown as a signalling NaN. -/
def addNum (mode : Rounding) (x y : Num) : Num :=
  match x, y with
  | .nan a, .nan b => .nan (a || b)
  | .nan a, _ => .nan a
  | _, .nan b => .nan b
  | .inf a, .inf b => if a = b then .inf a else .nan true
  | .inf a, _ => .inf a
  | _, .inf b => .inf b
  | .zero a, .zero b => if a = b then .zero a else zeroSum mode
  | .zero _, y => y
  | x, .zero _ => x
  | .fin a m e _, .fin b n f _ =>
    let q := min e f
    numOfScaled mode (scaleTo a m e q + scaleTo b n f q) q

/-- The negation. -/
def negNum : Num → Num
  | .nan s => .nan s
  | .inf a => .inf (!a)
  | .zero a => .zero (!a)
  | .fin a m e r => .fin (!a) m e r

/-- The magnitude. -/
def absNum : Num → Num
  | .nan s => .nan s
  | .inf _ => .inf false
  | .zero _ => .zero false
  | .fin _ m e r => .fin false m e r

/-- The exact product; 0 × ∞ is invalid. -/
def mulNum (x y : Num) : Num :=
  match x, y with
  | .nan a, .nan b => .nan (a || b)
  | .nan a, _ => .nan a
  | _, .nan b => .nan b
  | .inf _, .zero _ => .nan true
  | .zero _, .inf _ => .nan true
  | .inf a, .inf b => .inf (a != b)
  | .inf a, .fin b _ _ _ => .inf (a != b)
  | .fin a _ _ _, .inf b => .inf (a != b)
  | .zero a, .zero b => .zero (a != b)
  | .zero a, .fin b _ _ _ => .zero (a != b)
  | .fin a _ _ _, .zero b => .zero (a != b)
  | .fin a m e _, .fin b n f _ => .fin (a != b) (m * n) (e + f) false

/-- The product and sum with one rounding (R165): an invalid product is invalid even beside a quiet NaN. -/
def fmaNum (mode : Rounding) (x y z : Num) : Num :=
  let p := mulNum x y
  match p, z with
  | .nan a, .nan b => .nan (a || b)
  | _, _ => addNum mode p z

/-- Whether the value is a NaN. -/
def isNan : Num → Bool
  | .nan _ => true
  | _ => false
/-- Whether the value is a signalling NaN, or marks an invalid operation. -/
def isSignalling : Num → Bool
  | .nan s => s
  | _ => false

/-- Values other than NaNs in order, −0 below +0: whether `x` lies below `y` (R166). -/
def numLt (x y : Num) : Bool :=
  match x, y with
  | .nan _, _ => false
  | _, .nan _ => false
  | .inf a, .inf b => a && !b
  | .inf a, _ => a
  | _, .inf b => !b
  | .zero a, .zero b => a && !b
  | .zero _, .fin b _ _ _ => !b
  | .fin a _ _ _, .zero _ => a
  | .fin a m e _, .fin b n f _ =>
    let q := min e f
    decide (scaleTo a m e q < scaleTo b n f q)

/-- Equality of values, −0 equal to +0; false for a NaN (R167). -/
def numEq (x y : Num) : Bool :=
  match x, y with
  | .zero _, .zero _ => true
  | .inf a, .inf b => a == b
  | .fin a m e _, .fin b n f _ =>
    let q := min e f
    decide (scaleTo a m e q = scaleTo b n f q)
  | _, _ => false

/-! ### Conversions (R97 to R99) -/

/-- A conversion's result: the code, the exceptions, and whether R99 counts it. -/
structure Converted where
  code : Nat
  flags : Nat
  range : Bool
  deriving DecidableEq, Repr

/-- `m × 2^e` at least `n × 2^f`, compared exactly. -/
def magLe (n : Nat) (f : Int) (m : Nat) (e : Int) : Bool :=
  let q := min e f
  decide (n * 2 ^ (f - q).toNat ≤ m * 2 ^ (e - q).toNat)

/-- The greatest magnitude code, from 1 to `c`, whose value is at most `m × 2^e`; 0 if none is. -/
def taperedFloor (n m : Nat) (e : Int) : Nat → Nat
  | 0 => 0
  | c + 1 => let (v, f) := taperedMag n (c + 1); if magLe v f m e then c + 1 else taperedFloor n m e c

/-- TFEncode of a finite nonzero value (R98). -/
def taperedEncode (t : Nat) (neg : Bool) (m : Nat) (e : Int) : Converted :=
  let n := typeBits t
  let s := signBit t neg
  let top := 2 ^ (n - 1) - 1
  let (tv, tf) := taperedMag n top
  if magLe tv tf m e && !magLe m e tv tf then ⟨s + top, flagOF + flagNX, true⟩
  else
    let c := taperedFloor n m e top
    if c = 0 then ⟨s + 1, flagUF + flagNX, true⟩
    else
      let (v, f) := taperedMag n c
      if magLe m e v f then ⟨s + c, 0, false⟩
      else
        let (w, g) := taperedMag n (c + 1)
        let q := min e (min f g)
        let twice : Int := 2 * scaleTo false m e q
        let sum := scaleTo false v f q + scaleTo false w g q
        let c' := if twice < sum then c else if sum < twice then c + 1 else if c % 2 = 0 then c else c + 1
        ⟨s + c', flagNX, false⟩

/-- Conversion of a value into E4M3, E5M2 or E2M1 (R97): RNE, a finite overflow saturates. -/
def toNarrow (t : Nat) : Num → Converted
  | .nan s => if t = 16 then ⟨0, flagNV, true⟩ else ⟨canonicalNan t, if s then flagNV else 0, false⟩
  | .inf neg =>
    if t = 13 then ⟨signBit t neg + (maxCode t + 1), 0, false⟩
    else ⟨signBit t neg + maxCode t, flagOF + flagNX, true⟩
  | .zero neg => ⟨signBit t neg, 0, false⟩
  | .fin neg m e more =>
    let r := roundFin t .rne true neg m e more
    ⟨r.1, r.2, r.2 / 4 % 2 == 1⟩

/-- Conversion into TF8 or TF6 (R98). -/
def toTapered (t : Nat) : Num → Converted
  | .nan s => ⟨canonicalNan t, if s then flagNV else 0, false⟩
  | .inf neg => ⟨signBit t neg + (2 ^ (typeBits t - 1) - 1), flagOF + flagNX, true⟩
  | .zero _ => ⟨0, 0, false⟩
  | .fin neg m e _ => taperedEncode t neg m e

/-- The least value of an integer type. -/
def intMin (t : Nat) : Int := if isSignedType t then -(2 ^ (typeBits t - 1) : Int) else 0
/-- The greatest value of an integer type. -/
def intMax (t : Nat) : Int := if isSignedType t then 2 ^ (typeBits t - 1) - 1 else 2 ^ typeBits t - 1
/-- The code of an integer modulo the type's width. -/
def intCode (t : Nat) (x : Int) : Nat := (x.emod (2 ^ typeBits t)).toNat

/-- Conversion of a float into an integer type (R97). -/
def floatToInt (t : Nat) (mode : Rounding) : Num → Converted
  | .nan _ => ⟨0, flagNV, true⟩
  | .inf neg => ⟨intCode t (if neg then intMin t else intMax t), flagNV, true⟩
  | .zero _ => ⟨0, 0, false⟩
  | .fin neg m e more =>
    let (y, inexact) := roundQuantum mode neg m e 0 more
    let x : Int := if neg then -(y : Int) else y
    if x < intMin t then ⟨intCode t (intMin t), flagNV, true⟩
    else if intMax t < x then ⟨intCode t (intMax t), flagNV, true⟩
    else ⟨intCode t x, if inexact then flagNX else 0, false⟩

/-- Convert(x, src, dst) under FPC (R96, R97, R98); `inFlush` reads subnormals as zeros. Under FTZ a subnormal FP16 result of an
E5M2 subnormal becomes a zero as R90 says of outputs, with UF and NX, though R97 calls the pair exact (DESIGN CHOICE, log
entry 44). -/
def convert (src dst : Nat) (fpc : W32) (inFlush : Bool) (code : Nat) : Converted :=
  let code := if inFlush && ftzOf fpc && isSubnormal src code then code / 2 ^ (typeBits src - 1) * 2 ^ (typeBits src - 1)
    else code
  if isIntType src ∧ isIntType dst then
    let x := intValue src code
    if x < intMin dst then ⟨intCode dst (intMin dst), 0, true⟩
    else if intMax dst < x then ⟨intCode dst (intMax dst), 0, true⟩
    else ⟨intCode dst x, 0, false⟩
  else
    let x := decodeElem src code
    if isIntType dst then floatToInt dst (roundingOf fpc) x
    else if isTapered dst then
      if src = dst then ⟨code % 2 ^ typeBits dst, 0, false⟩ else toTapered dst x
    else if dst = 12 ∨ dst = 13 ∨ dst = 16 then toNarrow dst x
    else
      let r := flushOut (ftzOf fpc) dst (roundNum dst (roundingOf fpc) x)
      ⟨r.1, r.2, false⟩

/-! ### Packed 6-bit elements (R65) -/

/-- Element `j` of 6-bit elements packed from the least significant bit (R65). -/
def packed6 (v j : Nat) : Nat := bits v (6 * j) 6

/-- 6-bit elements packed. -/
def pack6 : List Nat → Nat
  | [] => 0
  | x :: xs => x % 64 + 64 * pack6 xs

end Sys2Proof.Machine
end

