-- ==== Sys2Proof/Machine/Flags.lean ====
section
/-! DEFINITION. The flag and trap computations of floating-point work: the enabled exceptions of R94, CONVERT_RANGE
(R99), the subnormal operands of R95 and their completion by the monitor, and the sticky flags of FPC (R93, R175). -/

namespace Sys2Proof.Machine

/-- FPC with exceptions added to FLAGS (R93). -/
def addFlags (flags : Nat) (c : Ctx) : Ctx :=
  { c with fpc := c.fpc ||| BitVec.ofNat 32 (flags % 32 * 2 ^ 16) }

/-- The trap enables EN of FPC (R90). -/
def enablesOf (fpc : W32) : Nat := bits fpc.toNat 8 5

/-- The cause of the first enabled exception, in the order of R94. -/
def floatCause (x : Nat) : Reason :=
  if x % 2 = 1 then .fpInvalid
  else if x / 2 % 2 = 1 then .fpDivideByZero
  else if x / 4 % 2 = 1 then .fpOverflow
  else if x / 8 % 2 = 1 then .fpUnderflow
  else .fpInexact

/-- Every exception that arose in the lanes. -/
def allFlags (lanes : List (Nat × Nat)) : Nat := lanes.foldl (fun x e => x ||| e.2) 0

/-- The end of a floating-point instruction (R94, R99, R175): `range` holds the lanes that R99 counts, `lanes` each
lane with its exceptions, `cross` for a reduction what XVAL[13] says; without a trap the result is written and FLAGS gain
every exception. -/
def floatFinish (len occ : Nat) (range : List Nat) (lanes : List (Nat × Nat)) (cross : Option Bool)
    (write : Ctx → Ctx) (s : State) : State :=
  let fpc := s.me.fpc
  if cvtTrapOf fpc && !range.isEmpty then trapPart .convertRange 0xFF (word (range.foldl min 255)) s
  else
    let all := allFlags lanes
    let hit := all &&& enablesOf fpc
    if hit ≠ 0 then
      let lane := match lanes.find? fun e => e.2 &&& enablesOf fpc != 0 with
        | some e => e.1
        | none => 0
      trapPart (floatCause hit) (if cross.isSome then 0x3FFF else 0x1FFF)
        (word (lane + 256 * all + if cross = some true then 2 ^ 13 else 0)) s
    else retire len occ (s.onMe fun c => addFlags all (write c))

/-- The lowest active lane with a subnormal operand, and the marks of its operands (R95). -/
def subnormalLane (t : Nat) (ops : List (Nat → Nat)) : List Nat → Option (Nat × Nat)
  | [] => none
  | j :: js =>
    let marks := ops.mapIdx fun i f => if isSubnormal t (f j) then 2 ^ i else 0
    let m := marks.foldl (· + ·) 0
    if m = 0 then subnormalLane t ops js else some (j, m)

/-- SUBNORMAL_OPERAND (R95, R373, R374): taken at a delegated user vector or by an M context; else the monitor
completes the instruction, and the context waits for it. -/
def subnormalStop (xval : Word) (s : State) : State :=
  let c := s.me
  let atVector := c.mode == 3 || (c.mode == 0 && delegated s.here.xdeleg 17 && bits c.xvec.toNat 1 56 != 0 && !c.intrap)
  if atVector then trapPart .subnormalOperand 0x7FF xval s
  else (s.issued.onMe fun c => { c with
    status := .waiting
    monitored := true
    readyAt := max c.readyAt (s.now + 4) }).post 0 .monitorCompletion [s.actor.core, s.actor.thread]

/-- A VFLT or VSFU instruction: a subnormal operand of an active lane stops it while FTZ is 0, unless the monitor
is completing it (R95). -/
def checkSubnormal (t : Nat) (ops : List (Nat → Nat)) (lanes : List Nat) (go : State → State) (s : State) : State :=
  if ftzOf s.me.fpc || s.me.monitored then go s
  else match subnormalLane t ops lanes with
    | some (j, m) => subnormalStop (word (j + 256 * m)) s
    | none => go s

/-- An operand read with FTZ: a subnormal becomes a zero of its sign (R96). -/
def readFtz (ftz : Bool) (t code : Nat) : Nat :=
  if ftz && isSubnormal t code then signBit t (code.testBit (typeBits t - 1)) else code

end Sys2Proof.Machine
end

