-- ==== Sys2Proof/Machine/Vector.lean ====
section
/-! DEFINITION. The vector class (chapter 07) but its special functions: integer and floating lanes, comparison,
reduction, moves, packing and conversion, and the device steps that finish a gang reduction. -/

namespace Sys2Proof.Machine

/-! ### Shared forms -/

/-- The active elements of a destination replaced, each by the value of its lane. -/
def mapLanes (p : W32) (w : Nat) (old : W256) (f : Nat → Nat) : W256 :=
  (activeElems p w).foldl (fun v j => setElem v w j (f j)) old

/-- An integer lane instruction: element `j` becomes `f old a b` of the elements' codes (R163). -/
def intLanes (occ d a b t q : Nat) (f : Nat → Nat → Nat) (s : State) : State :=
  checkRegs (isV d && isV a && isV b) (fun s =>
    let w := typeWidth t
    let c := s.me
    let v := mapLanes (c.rp q) w (c.rv d) fun j => f (elemOf (c.rv a) w j) (elemOf (c.rv b) w j)
    retire 4 occ (s.setMe (c.wv d v))) s

/-- An integer result modulo 2^N from the operands as the type reads them. -/
def intOp (t : Nat) (f : Int → Int → Int) (a b : Nat) : Nat := intCode t (f (intValue t a) (intValue t b))

/-- The shift count B[log2 N − 1 : 0] (R163). -/
def laneShift (t b : Nat) : Nat := b % typeBits t

/-- VINT VADD (R163). -/
def execVintVadd (d a b t q : Nat) (s : State) : Result := .next (intLanes 4 d a b t q (intOp t (· + ·)) s)
/-- VINT VSUB. -/
def execVintVsub (d a b t q : Nat) (s : State) : Result := .next (intLanes 4 d a b t q (intOp t (· - ·)) s)
/-- VINT VMUL. -/
def execVintVmul (d a b t q : Nat) (s : State) : Result := .next (intLanes 8 d a b t q (intOp t (· * ·)) s)
/-- VINT VMIN. -/
def execVintVmin (d a b t q : Nat) (s : State) : Result :=
  .next (intLanes 4 d a b t q (intOp t fun x y => if x < y then x else y) s)
/-- VINT VMAX. -/
def execVintVmax (d a b t q : Nat) (s : State) : Result :=
  .next (intLanes 4 d a b t q (intOp t fun x y => if x < y then y else x) s)
/-- VINT VABS: the most negative value stays as it is. -/
def execVintVabs (d a t q : Nat) (s : State) : Result :=
  .next (intLanes 4 d a a t q (intOp t fun x _ => if x < 0 then -x else x) s)
/-- VINT VNEG. -/
def execVintVneg (d a t q : Nat) (s : State) : Result := .next (intLanes 4 d a a t q (intOp t fun x _ => -x) s)
/-- VINT VAND. -/
def execVintVand (d a b t q : Nat) (s : State) : Result := .next (intLanes 4 d a b t q (fun x y => x &&& y) s)
/-- VINT VOR. -/
def execVintVor (d a b t q : Nat) (s : State) : Result := .next (intLanes 4 d a b t q (fun x y => x ||| y) s)
/-- VINT VXOR. -/
def execVintVxor (d a b t q : Nat) (s : State) : Result := .next (intLanes 4 d a b t q (fun x y => x ^^^ y) s)
/-- VINT VSHL. -/
def execVintVshl (d a b t q : Nat) (s : State) : Result :=
  .next (intLanes 4 d a b t q (fun x y => x * 2 ^ laneShift t y % 2 ^ typeBits t) s)
/-- VINT VSHR: arithmetic for iN, logical for nN. -/
def execVintVshr (d a b t q : Nat) (s : State) : Result :=
  .next (intLanes 4 d a b t q (fun x y => intCode t (intValue t x / 2 ^ laneShift t y)) s)

/-- The sum of the four products of one VDOT4 element (R164). -/
def dot4 (t : Nat) (a b : W256) (j : Nat) : Int :=
  (List.range 4).foldl (fun s m =>
    s + intValue t (elemOf a (typeWidth t) (4 * j + m)) * intValue t (elemOf b (typeWidth t) (4 * j + m))) 0

/-- VDOT4 (R164). -/
def execVdot4 (d a b t q : Nat) (s : State) : Result :=
  .next (checkRegs (isV d && isV a && isV b) (fun s =>
    let w := 4 * typeWidth t
    let c := s.me
    let v := mapLanes (c.rp q) w (c.rv d) fun j =>
      (((elemOf (c.rv d) w j : Int) + dot4 t (c.rv a) (c.rv b) j).emod (2 ^ (8 * w))).toNat
    retire 4 8 (s.setMe (c.wv d v))) s)

/-- The bits of a predicate destination: each element's width of ones where `f` holds (R167). -/
def predOf (p : W32) (w : Nat) (f : Nat → Bool) : W32 :=
  BitVec.ofNat 32 ((activeElems p w).foldl (fun x j => if f j then setBits x (j * w) w (2 ^ w - 1) else x) 0)

/-- VINT VCMP (R167). -/
def execVintVcmp (c pd a b t q : Nat) (s : State) : Result :=
  .next (checkRegs (isPq pd && isV a && isV b) (fun s =>
    let w := typeWidth t
    let x := s.me
    let holds (j : Nat) : Bool :=
      let u := intValue t (elemOf (x.rv a) w j)
      let v := intValue t (elemOf (x.rv b) w j)
      match c with
      | 0 => u == v
      | 1 => u != v
      | 2 => decide (u < v)
      | _ => decide (u ≤ v)
    retire 4 4 (s.setMe (x.wp pd (predOf (x.rp q) w holds)))) s)

/-! ### Floating-point lanes (R165, R166) -/

/-- A floating lane instruction over the operand registers `srcs`; `f` gives the result and exceptions of a lane from
its operand codes, read under FTZ. -/
def floatLanes (d t q : Nat) (srcs : List Nat) (f : Rounding → List Nat → Nat × Nat) (s : State) : State :=
  checkRegs (isV d && srcs.all isV) (fun s =>
    let w := typeWidth t
    let c := s.me
    let lanes := activeElems (c.rp q) w
    let ops := srcs.map fun r => elemOf (c.rv r) w
    checkSubnormal t ops lanes (fun s =>
      let ftz := ftzOf c.fpc
      let res := lanes.map fun j =>
        (j, flushOut ftz t (f (roundingOf c.fpc) (ops.map fun g => readFtz ftz t (g j))))
      let v := res.foldl (fun v e => setElem v w e.1 e.2.1) (c.rv d)
      floatFinish 4 4 [] (res.map fun e => (e.1, e.2.2)) none (·.wv d v) s) s) s

/-- A lane whose exact result is rounded once (R165). -/
def rounded (t : Nat) (f : Rounding → List Num → Num) (m : Rounding) (x : List Nat) : Nat × Nat :=
  roundNum t m (f m (x.map (decodeFloat t)))

/-- The first operand. -/
def opA (x : List Num) : Num := x.getD 0 (.zero false)
/-- The second operand. -/
def opB (x : List Num) : Num := x.getD 1 (.zero false)
/-- The third operand. -/
def opD (x : List Num) : Num := x.getD 2 (.zero false)

/-- VFLT VADD (R165). -/
def execVfltVadd (d a b t q : Nat) (s : State) : Result :=
  .next (floatLanes d t q [a, b] (rounded t fun m x => addNum m (opA x) (opB x)) s)
/-- VFLT VSUB. -/
def execVfltVsub (d a b t q : Nat) (s : State) : Result :=
  .next (floatLanes d t q [a, b] (rounded t fun m x => addNum m (opA x) (negNum (opB x))) s)
/-- VFLT VMUL. -/
def execVfltVmul (d a b t q : Nat) (s : State) : Result :=
  .next (floatLanes d t q [a, b] (rounded t fun _ x => mulNum (opA x) (opB x)) s)
/-- VFLT VABS. -/
def execVfltVabs (d a t q : Nat) (s : State) : Result :=
  .next (floatLanes d t q [a] (rounded t fun _ x => absNum (opA x)) s)
/-- VFLT VNEG. -/
def execVfltVneg (d a t q : Nat) (s : State) : Result :=
  .next (floatLanes d t q [a] (rounded t fun _ x => negNum (opA x)) s)
/-- VFMA: A × B + D with one rounding. -/
def execVfma (d a b t q : Nat) (s : State) : Result :=
  .next (floatLanes d t q [a, b, d] (rounded t fun m x => fmaNum m (opA x) (opB x) (opD x)) s)
/-- VFNMA: D − A × B with one rounding. -/
def execVfnma (d a b t q : Nat) (s : State) : Result :=
  .next (floatLanes d t q [a, b, d] (rounded t fun m x => fmaNum m (negNum (opA x)) (opB x) (opD x)) s)

/-- Minimum or maximum of two codes (R166): `number` prefers the operand that is no NaN. -/
def pick (t : Nat) (wantMax number : Bool) (x y : Nat) : Nat × Nat :=
  let a := decodeFloat t x
  let b := decodeFloat t y
  let fl := if isSignalling a || isSignalling b then flagNV else 0
  if isNan a && isNan b then (canonicalNan t, fl)
  else if isNan a then (if number then y else canonicalNan t, fl)
  else if isNan b then (if number then x else canonicalNan t, fl)
  else (if wantMax then (if numLt a b then y else x) else (if numLt b a then y else x), fl)

/-- A lane of `pick`. -/
def picked (t : Nat) (wantMax number : Bool) (_ : Rounding) (x : List Nat) : Nat × Nat :=
  pick t wantMax number (x.getD 0 0) (x.getD 1 0)

/-- VFLT VMIN (R166). -/
def execVfltVmin (d a b t q : Nat) (s : State) : Result := .next (floatLanes d t q [a, b] (picked t false false) s)
/-- VFLT VMAX. -/
def execVfltVmax (d a b t q : Nat) (s : State) : Result := .next (floatLanes d t q [a, b] (picked t true false) s)
/-- VMINNUM. -/
def execVminnum (d a b t q : Nat) (s : State) : Result := .next (floatLanes d t q [a, b] (picked t false true) s)
/-- VMAXNUM. -/
def execVmaxnum (d a b t q : Nat) (s : State) : Result := .next (floatLanes d t q [a, b] (picked t true true) s)

/-- A floating comparison and its exceptions (R167). -/
def floatCompare (c : Nat) (x y : Num) : Bool × Nat :=
  let nan := isNan x || isNan y
  let sig := isSignalling x || isSignalling y
  match c with
  | 0 => (numEq x y, if sig then flagNV else 0)
  | 1 => (!numEq x y, if sig then flagNV else 0)
  | 2 => (!nan && numLt x y && !numEq x y, if nan then flagNV else 0)
  | _ => (!nan && (numLt x y || numEq x y), if nan then flagNV else 0)

/-- VFLT VCMP (R167). -/
def execVfltVcmp (c pd a b t q : Nat) (s : State) : Result :=
  .next (checkRegs (isPq pd && isV a && isV b) (fun s =>
    let w := typeWidth t
    let x := s.me
    let lanes := activeElems (x.rp q) w
    let ops := [elemOf (x.rv a) w, elemOf (x.rv b) w]
    checkSubnormal t ops lanes (fun s =>
      let ftz := ftzOf x.fpc
      let res (j : Nat) := floatCompare c (decodeFloat t (readFtz ftz t (elemOf (x.rv a) w j)))
        (decodeFloat t (readFtz ftz t (elemOf (x.rv b) w j)))
      floatFinish 4 4 [] (lanes.map fun j => (j, (res j).2)) none
        (·.wp pd (predOf (x.rp q) w fun j => (res j).1)) s) s) s)

/-! ### Reduction (R168, R169) -/

/-- One level of the tree: neighbours combined in order, an absent one passing the other. -/
def treeLevel {α : Type} (op : α → α → α) : List (Option α) → List (Option α)
  | x :: y :: rest =>
    (match x, y with
      | none, y => y
      | x, none => x
      | some a, some b => some (op a b)) :: treeLevel op rest
  | rest => rest

/-- Tree of R168, over a list whose length is a power of two up to 2^`fuel`. -/
def tree {α : Type} (op : α → α → α) : Nat → List (Option α) → Option α
  | 0, xs => (xs.head?).join
  | n + 1, xs => match xs with
    | [] => none
    | [x] => x
    | xs => tree op n (treeLevel op xs)

/-- An integer reduction step by kind (R168). -/
def intReduce (t kind x y : Nat) : Nat :=
  match kind with
  | 0 => intOp t (· + ·) x y
  | 1 => if intValue t x < intValue t y then x else y
  | 2 => if intValue t x < intValue t y then y else x
  | 3 => x &&& y
  | 4 => x ||| y
  | _ => x ^^^ y

/-- Identity of an integer reduction (R168). -/
def intIdentity (t kind : Nat) : Nat :=
  match kind with
  | 1 => intCode t (intMax t)
  | 2 => intCode t (intMin t)
  | 3 => 2 ^ typeBits t - 1
  | _ => 0

/-- A float reduction step by kind, rounded and flushed (R168). -/
def floatReduce (fpc : W32) (t kind x y : Nat) : Nat × Nat :=
  let m := roundingOf fpc
  match kind with
  | 0 => flushOut (ftzOf fpc) t (roundNum t m (addNum m (decodeFloat t x) (decodeFloat t y)))
  | 1 => pick t false false x y
  | 2 => pick t true false x y
  | 3 => pick t false true x y
  | _ => pick t true true x y

/-- Identity of a float reduction (R168). -/
def floatIdentity (t kind : Nat) : Nat :=
  match kind with
  | 0 => 0
  | 1 => maxCode t + 1
  | 2 => 2 ^ (typeBits t - 1) + (maxCode t + 1)
  | _ => canonicalNan t

/-- A value of the tree with its lowest element, the exceptions of its adds, and the lowest element of each add that
raised an enabled one. -/
structure Reduced where
  code : Nat
  low : Nat
  flags : Nat
  hits : List Nat
  deriving DecidableEq, Repr

/-- A step of the local tree. R168 words XVAL[7:0] for adds; a step of MIN, MAX, MINNUM or MAXNUM that raises an enabled
exception counts in the same way (DESIGN CHOICE, log entry 61). -/
def reduceStep (fpc : W32) (t kind : Nat) (x y : Reduced) : Reduced :=
  let r := floatReduce fpc t kind x.code y.code
  let low := Nat.min x.low y.low
  { code := r.1
    low := low
    flags := x.flags ||| y.flags ||| r.2
    hits := x.hits ++ y.hits ++ if r.2 &&& enablesOf fpc != 0 then [low] else [] }

/-- A signalling NaN that no step of the local tree has met raises NV as an operand (R89), in no add. -/
def noteSignalling (t : Nat) (x : Reduced) : Reduced :=
  if isSignalling (decodeFloat t x.code) then { x with flags := x.flags ||| flagNV } else x

/-- A code as an instruction writes it: a NaN is the canonical one (R89). -/
def canonCode (t code : Nat) : Nat := if isNan (decodeFloat t code) then canonicalNan t else code

/-- The register with element 0 the result and zeros above it. -/
def reducedReg (w x : Nat) : W256 := setElem 0 w 0 x

/-- An instruction that joins a gang reduction: its part is kept and it waits for the others (R169), its next turn 4 cycles or
more after this one (R3, R17). The stroke's copy goes to the followers' buffers as it issues. -/
def joinReduction (i : Instr) (part : Partial) (s : State) : State :=
  let s := if isStroke s && !s.me.monitored then copyToGang ⟨i, s.me.pc, s.me.pc + 4, 0⟩ s else s
  (s.issued.onMe fun c => { c with
    status := .waiting
    reduction := some part
    readyAt := max c.readyAt (s.now + 4) }).post 12 .gangVredCombine [s.actor.core, s.actor.thread]

/-- The integer reduction of a register's active elements. -/
def intPart (c : Ctx) (a kind t q : Nat) : Option Nat :=
  let w := typeWidth t
  tree (intReduce t kind) 5 ((List.range (32 / w)).map fun j =>
    if activeIn (c.rp q) w j then some (elemOf (c.rv a) w j) else none)

/-- The float reduction of a register's active elements. -/
def floatPart (c : Ctx) (a kind t q : Nat) : Option Reduced :=
  let w := typeWidth t
  (tree (reduceStep c.fpc t kind) 5 ((List.range (32 / w)).map fun j =>
    if activeIn (c.rp q) w j then
      some { code := readFtz (ftzOf c.fpc) t (elemOf (c.rv a) w j), low := j, flags := 0, hits := [] }
    else none)).map (noteSignalling t)

/-- VINT VRED (R168, R169). -/
def execVintVred (d a k t q : Nat) (s : State) : Result :=
  .next (checkRegs (isV d && isV a) (fun s =>
    let part := intPart s.me a k t q
    if s.me.gang.isSome then joinReduction (.vintVred d a k t q) ⟨s.now, part, 0, 0, d, k, t, none⟩ s
    else retire 4 12 (s.onMe (·.wv d (reducedReg (typeWidth t) (part.getD (intIdentity t k)))))) s)

/-- VFLT VRED (R168, R169). -/
def execVfltVred (d a k t q : Nat) (s : State) : Result :=
  .next (checkRegs (isV d && isV a) (fun s =>
    let w := typeWidth t
    let c := s.me
    checkSubnormal t [elemOf (c.rv a) w] (activeElems (c.rp q) w) (fun s =>
      let part := floatPart c a k t q
      let flags := (part.map (·.flags)).getD 0
      let hits := (part.map (·.hits)).getD []
      let lane := if hits.isEmpty then 0 else hits.foldl min 255
      if c.gang.isSome then
        joinReduction (.vfltVred d a k t q) ⟨s.now, part.map (·.code), flags, lane, d, k, t, none⟩ s
      else
        floatFinish 4 12 [] [(lane, flags)] (some false)
          (·.wv d (reducedReg w (canonCode t ((part.map (·.code)).getD (floatIdentity t k))))) s) s) s)

/-- The cross-member tree of a gang reduction: its value and the exceptions of its steps, under one member's FPC. -/
def gangResult (fpc : W32) (t k : Nat) (parts : List Partial) : Nat × Nat :=
  if isIntType t then
    ((tree (intReduce t k) 3 (parts.map (·.value))).getD (intIdentity t k), 0)
  else
    let r := tree (fun (x y : Nat × Nat) => let z := floatReduce fpc t k x.1 y.1; (z.1, x.2 ||| y.2 ||| z.2)) 3
      (parts.map fun p => p.value.map fun v => (v, 0))
    let r := r.getD (floatIdentity t k, 0)
    (canonCode t r.1, r.2)

/-- A member completes its gang reduction in its own turn: the gang's result and its exceptions, or its own trap (R169, R94), and
SINGLE_STEP after it (R378). (DEDUCED, log entry 48.) -/
def finishMember (a : Actor) (s : State) : State :=
  let s := { s with actor := a }
  match s.me.reduction.bind fun p => p.result.map fun r => (p, r) with
  | none => s
  | some (p, r) =>
    let levels := (s.me.gang.elim 1 (·.members.length)).log2
    let before := s.here.instret
    let s := s.onMe fun c => { c with status := .running, reduction := none }
    let s := if isStroke s then s
      else s.onMe fun c => { c with gang := c.gang.map fun g => { g with buffer := g.buffer.tail } }
    let s :=
      if isIntType p.type then retire 4 (8 * levels) (s.onMe (·.wv p.d (reducedReg (typeWidth p.type) r.1)))
      else
        let cross := some (r.2 &&& enablesOf s.me.fpc != 0)
        floatFinish 4 (8 * levels) [] [(p.lane, p.flags ||| r.2)] cross
          (·.wv p.d (reducedReg (typeWidth p.type) r.1)) s
    if s.here.instret = before then s else stepTrap a s

/-- The gang's value and the exceptions of the cross-member steps, given to a member. -/
def Ctx.combined (fpc : W32) (parts : List Partial) (c : Ctx) : Ctx :=
  { c with reduction := c.reduction.map fun p => { p with result := some (gangResult fpc p.type p.kind parts) } }

/-- GANG_VRED_COMBINE (R169, R176): once 12 cycles have passed since the last member's VRED, every part is present; the gang's
result is formed, and each member completes in its own turn. Every member writes the same result; where their FPCs differ in
RM or FTZ, whose the cross-member steps follow is a free choice (DESIGN CHOICE, log entry 49). -/
def execGangVredCombine (s : State) : Result :=
  let a : Actor := ⟨s.arg 0, s.arg 1⟩
  match (s.ctx a).gang with
  | none => .next s
  | some g =>
    let parts := g.members.filterMap fun m => (s.ctx m).reduction
    if parts.length = g.members.length ∧ (parts.all fun p => decide (p.joinedAt + 12 ≤ s.now)) = true then
      let fpc := (s.ctx (g.members.getD (Config.gangMode s.fresh % g.members.length) a)).fpc
      .next (g.members.foldl (fun s m => s.onCtx m (Ctx.combined fpc parts)) { s with fresh := s.fresh + 1 })
    else .next s

/-! ### Select, splat and permute (R170) -/

/-- A move of major 0x12: types 0 to 11 are accepted (R161, R162). -/
def moveCheck (t : Nat) (go : State → State) (s : State) : State :=
  if 12 ≤ t then trapOpen .formatUnsupported s else go s

/-- VSEL: every element is written. -/
def execVsel (d a b t q : Nat) (s : State) : Result :=
  .next (checkRegs (isV d && isV a && isV b) (moveCheck t fun s =>
    let w := typeWidth t
    let c := s.me
    let v := (List.range (32 / w)).foldl (fun v j =>
      setElem v w j (if activeIn (c.rp q) w j then elemOf (c.rv a) w j else elemOf (c.rv b) w j)) 0
    retire 4 4 (s.setMe (c.wv d v))) s)

/-- VSPLAT. -/
def execVsplat (d a t q : Nat) (s : State) : Result :=
  .next (checkRegs (isV d) (moveCheck t (withOperands [a] [] fun x s =>
    let w := typeWidth t
    let v := mapLanes (s.me.rp q) w (s.me.rv d) fun _ => (x.getD 0 0).toNat
    retire 4 4 ((popReads [a] s).onMe (·.wv d v)))) s)

/-- VPERM: an index at or past the element count gives 0. -/
def execVperm (d a b t q : Nat) (s : State) : Result :=
  .next (checkRegs (isV d && isV a && isV b) (moveCheck t fun s =>
    let w := typeWidth t
    let c := s.me
    let v := mapLanes (c.rp q) w (c.rv d) fun j =>
      let x := elemOf (c.rv b) w j
      if 32 / w ≤ x then 0 else elemOf (c.rv a) w x
    retire 4 4 (s.setMe (c.wv d v))) s)

/-! ### Packing, unpacking and conversion (R171 to R173) -/

/-- The source type that VPACK packs into a type, none where the type is not accepted (R161, R171). -/
def packSource (t : Nat) : Option Nat :=
  match t with
  | 0 | 4 => some 1
  | 1 | 5 => some 2
  | 2 | 6 => some 3
  | 10 | 11 => some 9
  | 9 => some 8
  | 12 | 13 | 14 | 15 => some 10
  | _ => none

/-- VPACK (R171): the elements of va and vb converted into half the width. XVAL[7:0] names the destination element (DESIGN
CHOICE, log entry 62). -/
def execVpack (d a b t : Nat) (s : State) : Result :=
  .next (checkRegs (isV d && isV a && isV b) (fun s =>
    match packSource t with
    | none => trapOpen .formatUnsupported s
    | some src =>
      let w := typeWidth src
      let n := 32 / w
      let c := s.me
      let res := (List.range (2 * n)).map fun j =>
        (j, convert src t c.fpc false (if j < n then elemOf (c.rv a) w j else elemOf (c.rv b) w (j - n)))
      let v : W256 :=
        if t = 15 then BitVec.ofNat 256 (pack6 (res.map (·.2.code)))
        else res.foldl (fun v e => setElem v (typeWidth t) e.1 e.2.code) 0
      floatFinish 4 4 ((res.filter (·.2.range)).map (·.1)) (res.map fun e => (e.1, e.2.flags)) none (·.wv d v) s) s)

/-- VUNPACK (R172): half of va widened exactly. XVAL[7:0] names the destination element (DESIGN CHOICE, log entry 62). -/
def execVunpack (d a h t : Nat) (s : State) : Result :=
  .next (checkRegs (isV d && isV a) (fun s =>
    match packSource t with
    | none => trapOpen .formatUnsupported s
    | some dst =>
      let w := typeWidth dst
      let n := 32 / w
      let c := s.me
      let src (j : Nat) : Nat :=
        if t = 15 then packed6 (c.rv a).toNat (n * h + j) else elemOf (c.rv a) (typeWidth t) (n * h + j)
      let res := (List.range n).map fun j =>
        (j, if isIntType t then (intCode dst (intValue t (src j)), 0) else roundNum dst .rne (decodeFloat t (src j)))
      let v := res.foldl (fun v e => setElem v w e.1 e.2.1) (0 : W256)
      floatFinish 4 4 [] (res.map fun e => (e.1, e.2.2)) none (·.wv d v) s) s)

/-- VCVT (R173): source type t, destination type u. -/
def execVcvt (d a u t q : Nat) (s : State) : Result :=
  .next (checkRegs (isV d && isV a) (fun s =>
    if t = 15 ∨ u = 15 then trapOpen .formatUnsupported s
    else
      let ws := typeWidth t
      let wu := typeWidth u
      let n := 32 / max ws wu
      let c := s.me
      let lanes := (List.range n).filter fun j => activeIn (c.rp q) wu j
      checkSubnormal t [elemOf (c.rv a) ws] lanes (fun s =>
        let res := lanes.map fun j => (j, convert t u c.fpc true (elemOf (c.rv a) ws j))
        let v := res.foldl (fun v e => setElem v wu e.1 e.2.code) (c.rv d)
        let v : W256 := BitVec.ofNat 256 (v.toNat % 2 ^ (8 * n * wu))
        floatFinish 4 4 ((res.filter (·.2.range)).map (·.1)) (res.map fun e => (e.1, e.2.flags)) none (·.wv d v) s) s) s)

end Sys2Proof.Machine
end

