-- ==== Sys2Proof/Machine/Sfu.lean ====
section
/-! DEFINITION. The special functions of the vector unit (R174). Reciprocal and square roots are exact, with a remainder
mark. The others are irrational except at the inputs handled first, so an approximation from below to 384 bits with the
mark that more follows gives the correctly rounded result (DEDUCED, log entry 13). -/

namespace Sys2Proof.Machine

/-- The square root rounded down, bit by bit from `2^fuel`. -/
def isqrtFrom (n : Nat) : Nat → Nat → Nat
  | 0, r => r
  | k + 1, r => let r' := r + 2 ^ k; isqrtFrom n k (if r' * r' ≤ n then r' else r)

/-- The square root rounded down. -/
def isqrt (n : Nat) : Nat := isqrtFrom n (n.log2 / 2 + 1) 0

/-- Bits of the fixed-point work. -/
def fixBits : Nat := 448

/-- π × 2^448, rounded down. -/
def piFixed : Nat := 0x3243f6a8885a308d313198a2e03707344a4093822299f31d0082efa98ec4e6c89452821e638d01377be5466cf34e90c6cc0ac29b7c97c50dd

/-- 1/x for x = m × 2^e. -/
def recipFin (neg : Bool) (m : Nat) (e : Int) : Num :=
  let k := m.log2 + 80
  .fin neg (2 ^ k / m) (-(k : Int) - e) (decide (2 ^ k % m ≠ 0))

/-- √x for x = m × 2^e. -/
def sqrtFin (m : Nat) (e : Int) : Num :=
  let odd := (e % 2).toNat
  let n := m * 2 ^ odd * 2 ^ 160
  let r := isqrt n
  .fin false r ((e - odd) / 2 - 80) (decide (r * r ≠ n))

/-- 1/√x for x = m × 2^e. -/
def rsqrtFin (m : Nat) (e : Int) : Num :=
  let odd := (e % 2).toNat
  let n := m * 2 ^ odd
  let k := n.log2 + 160
  let q := 2 ^ (2 * k) / n
  let r := isqrt q
  .fin false r (-(k : Int) - (e - odd) / 2) (decide (r * r * n ≠ 2 ^ (2 * k)))

/-- The product over the bits of `f`, a fraction of `n` bits, of the successive square roots of 2 (2^0.f), at
`fixBits` bits; `root` is the current root. -/
def exp2Bits (f : Nat) : Nat → Nat → Nat → Nat
  | 0, _, acc => acc
  | n + 1, root, acc =>
    let root := isqrt (root * 2 ^ fixBits)
    exp2Bits f n root (if f.testBit n then acc * root / 2 ^ fixBits else acc)

/-- 2^x for x = m × 2^e, nonzero. -/
def exp2Fin (neg : Bool) (m : Nat) (e : Int) : Num :=
  if (2000 : Int) < (m.log2 : Int) + e then (if neg then .fin false 1 (-3000) true else .fin false 1 3000 false)
  else
    let x := scaleTo neg m e (min e 0)
    let n := (-(min e 0)).toNat
    let whole := x / 2 ^ n
    let frac := (x % 2 ^ n).toNat
    if frac = 0 then .fin false 1 whole false
    else .fin false (exp2Bits frac n (2 * 2 ^ fixBits) (2 ^ fixBits) / 2 ^ 64) (whole - (fixBits - 64 : Nat)) true

/-- The bits of log2 of `y`, a fixed-point number of `fixBits` bits from 1 up to 2, most significant first. -/
def log2Bits : Nat → Nat → Nat → Nat
  | 0, _, acc => acc
  | n + 1, y, acc =>
    let z := y * y / 2 ^ fixBits
    if 2 ^ (fixBits + 1) ≤ z then log2Bits n (z / 2) (2 * acc + 1) else log2Bits n z (2 * acc)

/-- log2 x for x = m × 2^e above 0. -/
def log2Fin (m : Nat) (e : Int) : Num :=
  let k := m.log2
  let whole : Int := k + e
  if m = 2 ^ k then (if whole = 0 then .zero false else .fin (decide (whole < 0)) whole.natAbs 0 false)
  else
    let y := m * 2 ^ fixBits / 2 ^ k
    let b := 384
    let r : Int := whole * 2 ^ b + log2Bits b y 0
    if 0 ≤ r then .fin false r.toNat (-(b : Int)) true else .fin true (r.natAbs - 1) (-(b : Int)) true

/-- The Taylor series of sin t at `fixBits` bits: `term` is the current term, `k` its degree. -/
def sinSeries (t2 : Nat) : Nat → Nat → Nat → Int → Int
  | 0, _, _, acc => acc
  | n + 1, term, k, acc =>
    let next := term * t2 / 2 ^ fixBits / ((k + 1) * (k + 2))
    sinSeries t2 n next (k + 2) (if k / 2 % 2 = 0 then acc + term else acc - term)

/-- sin(π r) for r = a / 2^n, 0 < r < 1/2, from below at `fixBits` bits. -/
def sinPiFixed (a n : Nat) : Nat :=
  let t := piFixed * a / 2 ^ n
  let t2 := t * t / 2 ^ fixBits
  ((sinSeries t2 80 t 1 0) - 2 ^ 12).toNat

/-- sin(π x) for x = a / 2^n: the phase is reduced exactly; 0, ±1 and the rest. `zeroNeg` is the sign of a zero. -/
def sinPiRat (a : Int) (n : Nat) (zeroNeg : Bool) : Num :=
  let turn := (a % 2 ^ (n + 1)).toNat
  let neg := decide (2 ^ n ≤ turn)
  let half := if neg then turn - 2 ^ n else turn
  let r := if 2 * half ≤ 2 ^ n then half else 2 ^ n - half
  if r = 0 then .zero zeroNeg
  else if 2 * r = 2 ^ n then .fin neg 1 0 false
  else .fin neg (sinPiFixed r n / 2 ^ 32) (-((fixBits - 32 : Nat) : Int)) true

/-- sin(π x) for x = m × 2^e: an integer x gives a zero with the sign of x (R174). -/
def sinPiFin (neg : Bool) (m : Nat) (e : Int) : Num :=
  if 0 ≤ e then .zero neg else sinPiRat (scaleTo neg m e e) (-e).toNat neg

/-- cos(π x) = sin(π (1/2 − |x|)) for x = m × 2^e; at n + ½ it is +0 (R174). -/
def cosPiFin (m : Nat) (e : Int) : Num :=
  let q := min e (-1)
  let n := (-q).toNat
  sinPiRat (2 ^ (n - 1) - scaleTo false m e q) n false

/-! ### Special inputs and exceptions (R174) -/

/-- A function's result with the exceptions that its special inputs raise. -/
structure Special where
  value : Num
  flags : Nat
  deriving DecidableEq, Repr

/-- A result without exception of its own. -/
def plain (x : Num) : Special := ⟨x, 0⟩
/-- An invalid operation. -/
def invalid : Special := ⟨.nan true, flagNV⟩

/-- VRCP. -/
def vrcp : Num → Special
  | .nan s => plain (.nan s)
  | .inf a => plain (.zero a)
  | .zero a => ⟨.inf a, flagDZ⟩
  | .fin a m e _ => plain (recipFin a m e)
/-- VRSQRT. -/
def vrsqrt : Num → Special
  | .nan s => plain (.nan s)
  | .inf a => if a then invalid else plain (.zero false)
  | .zero a => ⟨.inf a, flagDZ⟩
  | .fin a m e _ => if a then invalid else plain (rsqrtFin m e)
/-- VSQRT. -/
def vsqrt : Num → Special
  | .nan s => plain (.nan s)
  | .inf a => if a then invalid else plain (.inf false)
  | .zero a => plain (.zero a)
  | .fin a m e _ => if a then invalid else plain (sqrtFin m e)
/-- VEXP2. -/
def vexp2 : Num → Special
  | .nan s => plain (.nan s)
  | .inf a => plain (if a then .zero false else .inf false)
  | .zero _ => plain (.fin false 1 0 false)
  | .fin a m e _ => plain (exp2Fin a m e)
/-- VLOG2. -/
def vlog2 : Num → Special
  | .nan s => plain (.nan s)
  | .inf a => if a then invalid else plain (.inf false)
  | .zero _ => ⟨.inf true, flagDZ⟩
  | .fin a m e _ => if a then invalid else plain (log2Fin m e)
/-- VSINPI. -/
def vsinpi : Num → Special
  | .nan s => plain (.nan s)
  | .inf _ => invalid
  | .zero a => plain (.zero a)
  | .fin a m e _ => plain (sinPiFin a m e)
/-- VCOSPI. -/
def vcospi : Num → Special
  | .nan s => plain (.nan s)
  | .inf _ => invalid
  | .zero _ => plain (.fin false 1 0 false)
  | .fin _ m e _ => plain (cosPiFin m e)

/-- A special function over a register (R174, R175): FORMAT_UNSUPPORTED for a type out of its range. -/
def special (lo hi occ d a t q : Nat) (f : Num → Special) (s : State) : State :=
  checkRegs (isV d && isV a) (fun s =>
    if t < lo ∨ hi < t then trapOpen .formatUnsupported s
    else
      let w := typeWidth t
      let c := s.me
      let lanes := activeElems (c.rp q) w
      checkSubnormal t [elemOf (c.rv a) w] lanes (fun s =>
        let ftz := ftzOf c.fpc
        let res := lanes.map fun j =>
          let r := f (decodeFloat t (readFtz ftz t (elemOf (c.rv a) w j)))
          let y := flushOut ftz t (roundNum t (roundingOf c.fpc) r.value)
          (j, y.1, y.2 ||| r.flags)
        let v := res.foldl (fun v e => setElem v w e.1 e.2.1) (c.rv d)
        floatFinish 4 occ [] (res.map fun e => (e.1, e.2.2)) none (·.wv d v) s) s) s

/-- VRCP (R174). -/
def execVrcp (d a t q : Nat) (s : State) : Result := .next (special 9 10 12 d a t q vrcp s)
/-- VRSQRT (R174). -/
def execVrsqrt (d a t q : Nat) (s : State) : Result := .next (special 9 10 12 d a t q vrsqrt s)
/-- VSQRT (R174): 32 cycles in f64 (R176). -/
def execVsqrt (d a t q : Nat) (s : State) : Result :=
  .next (special 8 11 (if t = 8 then 32 else 12) d a t q vsqrt s)
/-- VEXP2 (R174). -/
def execVexp2 (d a t q : Nat) (s : State) : Result := .next (special 9 10 16 d a t q vexp2 s)
/-- VLOG2 (R174). -/
def execVlog2 (d a t q : Nat) (s : State) : Result := .next (special 9 10 16 d a t q vlog2 s)
/-- VSINPI (R174). -/
def execVsinpi (d a t q : Nat) (s : State) : Result := .next (special 9 10 16 d a t q vsinpi s)
/-- VCOSPI (R174). -/
def execVcospi (d a t q : Nat) (s : State) : Result := .next (special 9 10 16 d a t q vcospi s)

end Sys2Proof.Machine
end

