-- ==== Sys2Proof/Machine/Thread.lean ====
section
/-! DEFINITION. The thread class (chapter 06): creating and ending threads, YIELD, PRI, WAKE, MIGRATE, crews, gangs, PART,
WAITM, and the steps that carry their requests and replies. -/

namespace Sys2Proof.Machine

/-! ### Checks -/

/-- GANG_FORBIDDEN inside a gang (R136). -/
def noGang (go : State → State) (s : State) : State := if s.me.gang.isSome then trapOpen .gangForbidden s else go s

/-- The core that a handle operand names, if R135 allows it to the acting thread. -/
def handleTarget (s : State) (h : Nat) : Option Nat :=
  match handleCore h with
  | some k => if decide (h < 2 ^ 27) && (isHub k == isHub s.actor.core) && s.mayName s.actor.core k then some k else none
  | none => none

/-- CheckHandle (R135). -/
def checkHandle (h : Word) (go : Nat → State → State) (s : State) : State :=
  match handleTarget s h.toNat with
  | some k => go k s
  | none => trapE .partitionFence h s

/-- The occupancy of SPAWN, KILL and MIGRATE by distance (R158). -/
def reach (a b : Nat) : Nat :=
  if clusterOf a = clusterOf b then 8 else if dieOf a = dieOf b ∧ isHub a = isHub b then 40 else 400

/-- CONTEXT_ZERO_ONLY in any thread but thread 0. -/
def zeroOnly (go : State → State) (s : State) : State := if s.actor.thread ≠ 0 then trapOpen .contextZeroOnly s else go s

/-! ### SPAWN, QUIT, REAP and KILL -/

/-- SPAWN once its checks hold: the reservation limit, or the request and the park (R137). -/
def spawnAt (d a b q k : Nat) (entry : Word) (s : State) : State :=
  if bits entry.toNat 57 7 ≠ 0 then trapE .addressNoncanonical entry s
  else if entry.getLsbD 0 then trapE .fetchMisaligned entry s
  else if s.here.children = 64 then
    retire 4 8 ((writeReg d 2 (popReads [a, b] s)).onMe (·.wpOk q false))
  else
    let c := s.me
    let args := (List.range 4).map fun i => c.rg (4 + i)
    let s := spendOut d (parkAfter 4 (reach s.actor.core k) 9 0 (popReads [a, b] s))
    s.send .control s.actor.core k c.handle (.spawn s.actor d q entry args c.codeId.toNat c.priority) .spawnRequest

/-- Whether a core runs another launch than the acting thread's (R137). -/
def runsOther (s : State) (k : Nat) : Bool :=
  (s.core k).launch.any fun l => l.id != s.here.launchOf.id

/-- SPAWN (R137): the request travels to the target and the issuer parks for the reply. -/
def execSpawn (d a b q : Nat) (s : State) : Result :=
  .next (checkRegs (isPq q) (noGang (specForbid (zeroOnly (withOperands [a, b] [d] fun x s =>
    checkHandle (x.getD 0 0) (fun k s =>
      if runsOther s k then trapE .partitionFence (x.getD 0 0) s else spawnAt d a b q k (x.getD 1 0) s) s)))) s)

/-- Whether a core has been reserved for a launch that has not loaded it yet, so that no thread of the launch may issue there
(R81). -/
def isUnloaded (s : State) (k : Nat) : Bool := s.hub.launches.any fun l => l.2.toSend.contains k || l.2.loading.contains k

/-- SPAWN_REQUEST (R137): the target builds the new thread, or refuses for want of a thread number. At a core that its launch has
not loaded yet the request waits (R81). (DEDUCED, log entry 20.) -/
def execSpawnRequest (s : State) : Result :=
  let before := s
  .next (onFlight .spawnRequest (fun f s => match f.payload with
    | .spawn a d q entry args codeId prio =>
      let k := f.dst
      if isUnloaded s k then some (before.post 1 .spawnRequest before.args) else
      let l := (s.core a.core).launchOf
      let reply (r : Option Nat) (s : State) : State := s.send .control k a.core 0 (.spawnReply a d q r) .spawnReply
      let fits := (s.core k).launch.all fun m => m.id == l.id
      match (s.core k).freeThread with
      | some t =>
        if fits then
          let s := s.onCore k fun c => { c with launch := some (c.launch.getD l) }
          let mode := if isHub k then (s.ctx a).mode else 0
          let c := startContext k t l entry args codeId prio 0 mode
          let (h, s) := buildThread k t { c with spawner := some a.core } s
          some (reply (some h) s)
        else some (reply none s)
      | none => some (reply none s)
    | _ => none) s)

/-- SPAWN_REPLY (R137): the handle and success, or 1 and failure. -/
def execSpawnReply (s : State) : Result :=
  .next (onFlight .spawnReply (fun f s => match f.payload with
    | .spawnReply a d q r =>
      let s := s.onCore a.core fun c => { c with children := c.children + (if r.isSome then 1 else 0) }
      some ((deliver a d (word (r.getD 1)) s).onCtx a fun c => resume s.now (c.wpOk q r.isSome))
    | _ => none) s)

/-- How a thread's own QUIT ends it: a task as TDONE (R350), a role as KRETIRE (R325). -/
def quitKind (c : Ctx) : DrainKind := if c.ticket.isSome then .tdone else if c.role.isSome then .retire else .quit

/-- QUIT with an exit value (R138). -/
def quit (v : Word) (s : State) : State := beginDrain s.actor (quitKind s.me) v (retire 4 4 s)

/-- QUIT (R138). -/
def execQuit (a : Nat) (s : State) : Result :=
  .next (noGang (withOperands [a] [] fun x s => quit (x.getD 0 0) (popReads [a] s)) s)

/-- QUIT_DRAIN_END (R138): the thread ends once its entries, remote operations and replies are complete; one whose end
waited for an engine's hold begins its drain (R140, R268). -/
def execQuitDrainEnd (s : State) : Result :=
  let a : Actor := ⟨s.arg 0, s.arg 1⟩
  let c := s.ctx a
  .next (match c.status, c.ending with
    | .draining kind v, _ => if isDrained s a then endThread a kind v s else s.post 1 .quitDrainEnd s.args
    | _, some (kind, v) => beginDrain a kind v s
    | _, none => s)

/-- REAP (R139). -/
def execReap (d b q : Nat) (s : State) : Result :=
  .next (checkRegs (isPq q) (noGang (specForbid (zeroOnly (withOperands [] [d, b] fun _ s =>
    let core := s.here
    match core.reaps with
    | (h, v) :: rest =>
      let s := s.setHere { core with reaps := rest, children := core.children - 1 }
      retire 4 8 ((writeReg b (word h) (writeReg d v s)).onMe (·.wpOk q true))
    | [] =>
      if core.children = 0 then retire 4 8 (s.onMe (·.wpOk q false)) else parkAt 7 0 s)))) s)

/-- REAP_RECORD (R138): the record enters the reap queue and wakes a REAP. -/
def execReapRecord (s : State) : Result :=
  .next (onFlight .reapRecord (fun f s => match f.payload with
    | .reap h v =>
      some (wakeWhere f.dst (fun c => c.parkReason == 7)
        (s.onCore f.dst fun c => { c with reaps := c.reaps ++ [(h, v)] }))
    | _ => none) s)

/-- KILL (R140). -/
def execKill (a q : Nat) (s : State) : Result :=
  .next (checkRegs (isPq q) (noGang (specForbid (withOperands [a] [] fun x s =>
    checkHandle (x.getD 0 0) (fun k s =>
      let h := (x.getD 0 0).toNat
      let c := s.me
      let s := popReads [a] s
      if h = c.handle then quit (BitVec.allOnes 64) s
      else if handleThread h = 0 then retire 4 8 (s.onMe (·.wpOk q false))
      else
        let s := parkAfter 4 (reach s.actor.core k) 9 0 s
        s.send .control s.actor.core k c.handle (.kill s.actor q h) .killRequest) s))) s)

/-- KILL_REQUEST (R140): the target ends; one that has already ended, or is ending, is none. -/
def execKillRequest (s : State) : Result :=
  .next (onFlight .killRequest (fun f s => match f.payload with
    | .kill a q h =>
      let reply (ok : Bool) (s : State) : State := s.send .control f.dst a.core 0 (.killReply a q ok) .killReply
      match s.threadOf h with
      | some t =>
        if (s.ctx t).isDraining || (s.ctx t).ending.isSome then some (reply false s) else some (reply true (killThread t s))
      | none => some (reply false s)
    | _ => none) s)

/-- KILL_REPLY (R140). -/
def execKillReply (s : State) : Result :=
  .next (onFlight .killReply (fun f s => match f.payload with
    | .killReply a q ok => some (s.onCtx a fun c => resume s.now (c.wpOk q ok))
    | _ => none) s)

/-! ### YIELD, PRI and WAKE -/

/-- YIELD (R141): the issuer goes to the wings as PENDING and the thread that waits takes its slot. -/
def execYield (s : State) : Result :=
  .next (noGang (fun s =>
    let core := s.here
    let c := s.me
    match nextPending core with
    | some p =>
      if wingsEligible core s.actor.thread c && decide (c.eff ≤ p.2.eff) then
        startMove ⟨s.actor.core, p.1⟩ (some c.slot) (startMove s.actor none (retire 4 4 s))
      else retire 4 4 s
    | none => retire 4 4 s) s)

/-- PRI (R142): a value above CEIL gives CEIL. -/
def execPri (d a : Nat) (s : State) : Result :=
  .next (withOperands [a] [d] (fun x s =>
    let old := s.me.priority
    let s := popReads [a] s
    let s := s.onMe fun c => setPriority s.here (min (x.getD 0 0).toNat c.ceil) c
    retire 4 4 (writeReg d (word old) s)) s)

/-- A thread in gang await is released with its own predicate set to `ok`; its PC goes to `pc` (R151, R152). -/
def releaseAwait (a : Actor) (ok : Bool) (pc : Word) (s : State) : State :=
  let c := s.ctx a
  let q := match c.wait with
    | some w => w.key - gangKey 0
    | none => 0
  let s := s.onCore a.core fun core => { core with instret := core.instret + 1 }
  stepTrap a (s.onCtx a fun c => { (unpark s.now c).wpOk q ok with pc := pc })

/-- A thread parked in the wings, or on its way there, becomes PENDING, to test its condition again in a slot (R129, R143, R147);
one that the port still moves does so as it arrives. -/
def called (now : Nat) (c : Ctx) : Ctx :=
  if c.hasLeft && !c.called then { c with called := true, place := if c.isWinged then .wings now else c.place } else c

/-- A thread that WAKE names re-tests its condition as though its event had arrived (R143, R193). A wait at a crew
barrier or on a grant slot whose condition fails stays as it is, but for the slot that a swapped-out thread then takes (R129). -/
def wakeThread (a : Actor) (s : State) : State :=
  let c := s.ctx a
  match c.parkReason with
  | 1 | 4 => s.onCtx a fun c => { woken s.now c with
      wait := c.wait.map fun w => { w with retest := true, byWake := true, limited := false } }
  | 2 | 3 => s.wake a
  | 5 => s.onCtx a (called s.now)
  | 6 => if holdsGrant (s.core a.core) c then s.wake a else s.onCtx a (called s.now)
  | 8 => releaseAwait a false (c.pc + 4) s
  | _ => s

/-- WAKE (R143). -/
def execWake (a q : Nat) (s : State) : Result :=
  .next (checkRegs (isPq q) (specPark (withOperands [a] [] fun x s =>
    checkHandle (x.getD 0 0) (fun k s =>
      if k ≠ s.actor.core then trapE .wakeInvalid (x.getD 0 0) s
      else
        let s := popReads [a] s
        match s.threadOf (x.getD 0 0).toNat with
        | some t => retire 4 8 ((wakeThread t s).onMe (·.wpOk q true))
        | none => retire 4 8 (s.onMe (·.wpOk q false))) s)) s)

/-! ### MIGRATE (R144) -/

/-- Whether a reply addressed to an old handle may still be in flight. -/
def isAwaited (s : State) (old : Nat) : Bool :=
  (s.cores.any fun e => e.2.queue.any fun q => q.owner == old) || s.net.any fun f => f.handle == old

/-- The forwarding entries that a core still needs (R144). -/
def keptForwards (s : State) (k : Nat) : List Forward :=
  (s.core k).forwards.filter fun f => f.new == f.old || isAwaited s f.old

/-- MIGRATE once its checks hold (R144, steps 1 to 3). An entry whose new handle equals the old one is reserved.
(DEDUCED, log entry 20.) -/
def migrateTo (a q k : Nat) (s : State) : State :=
  let c := s.me
  if k = s.actor.core then retire 4 8 ((popReads [a] s).onMe (·.wpOk q true))
  else if !c.unacked.isEmpty then parkOn 9 0 migrateKey s
  else
    let kept := keptForwards s s.actor.core
    if 8 ≤ kept.length then retire 4 8 ((popReads [a] s).onMe (·.wpOk q false))
    else
      let s := s.setHere { s.here with forwards := kept ++ [⟨c.handle, c.handle⟩] }
      let s := retire 4 (reach s.actor.core k) (popReads [a] s)
      let moving := s.me
      let s := s.onMe fun c => { c with status := .parked, park := 9 }
      s.send .control s.actor.core k c.handle (.migrate s.actor q moving) .migrateRequest

/-- MIGRATE (R144). -/
def execMigrate (a q : Nat) (s : State) : Result :=
  .next (checkRegs (isPq q) (noGang (specForbid (withOperands [a] [] fun x s =>
    checkHandle (x.getD 0 0) (fun k s =>
      if s.actor.thread = 0 ∨ s.me.bound = true ∨ s.me.role.isSome = true then trapOpen .migrateRefused s
      else migrateTo a q k s) s))) s)

/-- Crew membership, holds, requests and the task of a thread carried to its new name (R144, R242). -/
def rename (a b : Actor) (old new : Nat) (s : State) : State :=
  let ren (x : Actor) : Actor := if x = a then b else x
  let reh (x : Nat) : Nat := if x = old then new else x
  s.onHub fun h => { h with
    crews := h.crews.map fun c => (c.1, { c.2 with
      members := c.2.members.map fun m => (ren m.1, m.2)
      arrived := c.2.arrived.map ren })
    objects := h.objects.map fun o => { o with
      holders := o.holders.map fun x => (reh x.1, x.2)
      queue := o.queue.map fun r => if r.handle = old then { r with handle := new, core := b.core } else r }
    tasks := h.tasks.map fun t => (t.1, { t.2 with actor := t.2.actor.map ren }) }

/-- The context that a migrating thread has on its old core, for what has reached it there since its request left: causes, its
crew's completions and a debugger's halt. -/
def migrant (old c : Ctx) : Ctx :=
  { c with
    pend := old.pend
    rank := old.rank
    crewsz := old.crewsz
    arrived := old.arrived
    halted := old.halted }

/-- A reserved forwarding entry given back. -/
def dropForward (k old : Nat) (s : State) : State :=
  s.onCore k fun c => { c with forwards := c.forwards.filter fun f => f.old != old }

/-- Whether the target core takes a migrating thread (R144, step 3). -/
def takesMigrant (s : State) (k : Nat) (l : CoreLaunch) (c : Ctx) : Bool :=
  let core := s.core k
  let launched := c.spawner.isNone && c.ticket.isNone
  (core.launch.all fun m => m.id == l.id)
    && (!(l.coresident && launched) || core.newcomerSlot.isSome)

/-- MIGRATE_REQUEST (R144, steps 3 to 5): the target accepts the context under a new handle, or refuses it. A member that has
arrived at its crew's barrier and is live here may complete the phase (R147). At a core that its launch has not loaded yet the
request waits (R81). (DEDUCED, log entry 20.) -/
def execMigrateRequest (s : State) : Result :=
  let before := s
  .next (onFlight .migrateRequest (fun f s => match f.payload with
    | .migrate a q c =>
      let k := f.dst
      if isUnloaded s k then some (before.post 1 .migrateRequest before.args) else
      let l := (s.core a.core).launchOf
      let reply (r : Option Nat) (s : State) : State := s.send .control k a.core 0 (.migrateReply a q r) .migrateReply
      if (s.ctx? a).isNone || (s.ctx a).isDraining then some (dropForward a.core c.handle s)
      else match (s.core k).freeThread with
        | some t =>
          if takesMigrant s k l c then
            let s := s.onCore k fun x => { x with launch := some (x.launch.getD l) }
            let (h, s) := buildThread k t { (migrant (s.ctx a) c).wpOk q true with wait := none, fetch := none, fetching := false } s
            let s := s.onCore a.core fun x => { x with
              forwards := x.forwards.map fun w => if w.old = c.handle then { w with new := h } else w }
            let s := rename a ⟨k, t⟩ c.handle h (stepTrap ⟨k, t⟩ s)
            some (reply (some h) (if c.isMember then s.post 0 .crewPhaseComplete [c.crewSlot.toNat] else s))
          else some (reply none s)
        | none => some (reply none s)
    | _ => none) s)

/-- MIGRATE_REPLY (R144, steps 4 and 5): the old core frees the thread, or the thread goes on there. -/
def execMigrateReply (s : State) : Result :=
  .next (onFlight .migrateReply (fun f s => match f.payload with
    | .migrateReply a _ (some _) => some (idleCore a.core (freeThread a s))
    | .migrateReply a q none =>
      some ((dropForward a.core (s.ctx a).handle s).onCtx a fun c => resume s.now (c.wpOk q false))
    | _ => none) s)

/-! ### Crews (R145 to R148) -/

/-- JOIN (R145). -/
def execJoin (a : Nat) (s : State) : Result :=
  .next (noGang (specForbid (withOperands [a] [] fun x s =>
    let c := s.me
    let l := s.here.launchOf
    let off := x.getD 0 0
    if l.crews ≤ off.toNat then trapE .crewInvalid off s
    else if c.isMember then trapE .crewInvalid (word c.crewSlot.toNat) s
    else if l.coresident ∧ c.spawner.isSome then trapE .crewCoresidency off s
    else
      let slot := l.crewBase + off.toNat
      let crew := s.crew slot
      let s := s.setCrew slot { crew with
        members := crew.members ++ [(s.actor, crew.nextRank)]
        nextRank := crew.nextRank + 1 }
      let s := s.onMe fun c => { c.setRank 0 18 crew.nextRank with
        crewsz := BitVec.ofNat 32 (crew.members.length + 1)
        crewSlot := BitVec.ofNat 16 slot
        isMember := true
        arrived := none }
      retire 4 8 (popReads [a] s))) s)

/-- LEAVE (R146). -/
def execLeave (s : State) : Result :=
  .next (noGang (specForbid fun s =>
    if !s.me.isMember then trapOpen .crewNotMember s else retire 4 8 (leaveCrew s.actor s)) s)

/-- The issuer arrives in its crew's current phase. -/
def arrive (s : State) : State :=
  let slot := s.me.crewSlot.toNat
  let crew := s.crew slot
  let s := s.setCrew slot { crew with arrived := crew.arrived ++ [s.actor] }
  (s.onMe fun c => { c with arrived := some crew.phase }).post 0 .crewPhaseComplete [slot]

/-- Whether the phase in which the issuer arrived has completed. -/
def phaseDone (s : State) : Bool := s.me.arrived.any fun p => p != (s.crew s.me.crewSlot.toNat).phase

/-- The issuer arrives if it has not yet arrived in the current phase (R148). -/
def arriveOnce (s : State) : State := if s.me.arrived.isSome ∧ phaseDone s = false then s else arrive s

/-- BAR (R148): arrives if it has not, and parks until the phase has completed; 4 cycles beside its park (DESIGN CHOICE, log
entry 45). -/
def execBar (s : State) : Result :=
  .next (specForbid (fun s =>
    if !s.me.isMember then trapOpen .crewNotMember s
    else parkAfter 4 4 5 s.me.crewSlot.toNat (arriveOnce s)) s)

/-- BARTRY (R148): reports whether the phase of its earlier arrival has completed, and arrives if it has not arrived in the
current phase. (DEDUCED, log entry 21.) -/
def execBartry (q : Nat) (s : State) : Result :=
  .next (checkRegs (isPq q) (specForbid fun s =>
    if !s.me.isMember then trapOpen .crewNotMember s
    else retire 4 4 ((arriveOnce s).onMe (·.wpOk q (phaseDone s)))) s)

/-- Whether every member of a crew has arrived (R147). -/
def allArrived (crew : Crew) : Bool := !crew.members.isEmpty && crew.members.all fun m => crew.arrived.contains m.1

/-- Whether a crew's phase completes now: every member has arrived and is live (R147). -/
def phaseReady (s : State) (crew : Crew) : Bool := allArrived crew && crew.members.all fun m => (s.ctx? m.1).any (·.isLive)

/-- The members in the wings that a phase waits for alone become PENDING, since their event has come but for their own return
(R129, R147, DEDUCED, log entry 21). -/
def callMembers (crew : Crew) (s : State) : State :=
  crew.members.foldl (fun s m => s.onCtx m.1 fun c =>
    if c.parkReason == 5 then called s.now c else c) s

/-- CREW_PHASE_COMPLETE (R147). Members are listed in the order of their ranks. -/
def execCrewPhaseComplete (s : State) : Result :=
  let slot := s.arg 0
  let crew := s.crew slot
  if !allArrived crew then .next s
  else if !phaseReady s crew then .next (callMembers crew s)
  else
    let n := crew.members.length
    let ranked := crew.members.zipIdx.map fun e => (e.1.1, e.2)
    let s := s.setCrew slot { members := ranked, arrived := [], phase := (crew.phase + 1) % 2 ^ 16, nextRank := n }
    .next (ranked.foldl (fun s (m : Actor × Nat) => s.onCtx m.1 fun c =>
      let c : Ctx := { c.setRank 0 18 m.2 with crewsz := BitVec.ofNat 32 n }
      if c.parkReason = 5 then { resume s.now c with arrived := none } else c) s)

/-! ### Gangs (R151 to R155) -/

/-- The threads of a stroke's group, in index order: thread `t` on every other core, the stroke on its own (R152). -/
def gangMembers (stroke : Actor) (n t : Nat) : List Actor :=
  let base := stroke.core / 16 * 16 + stroke.core % 16 / n * n
  (List.range n).map fun i => if base + i = stroke.core then stroke else ⟨base + i, t⟩

/-- Whether a thread can be enrolled by a stroke with this code ID (R152). -/
def isAwaiting (s : State) (code : W16) (m : Actor) : Bool :=
  (s.ctx? m).any fun c => c.parkReason == 8 && c.codeId == code

/-- The members join the gang: the followers are released behind the stroke's GANG (R152). -/
def enrol (q : Nat) (members : List Actor) (s : State) : State :=
  let stroke := s.actor
  let pc := s.me.pc + 4
  members.zipIdx.foldl (fun s e =>
    let s := if e.1 = stroke then s.onMe (·.wpOk q true) else releaseAwait e.1 true pc s
    s.onCtx e.1 fun c => { (c.setRank 18 3 e.2).setXstat 8 2 (if e.1 = stroke then 1 else 2) with
      gsize := BitVec.ofNat 32 members.length
      fetch := if e.1 = stroke then c.fetch else none
      gang := some ⟨stroke, members, e.2, []⟩ }) s

/-- GANG (R151, R152). Hub cores and roles may form no gang (R12, R322). -/
def execGang (a n q : Nat) (s : State) : Result :=
  .next (checkRegs (isPq q) (noGang (specForbid fun s =>
    if isHub s.actor.core ∨ s.me.role.isSome then trapOpen .gangForbidden s
    else if n ≠ 0 ∧ n ≠ 2 ∧ n ≠ 4 ∧ n ≠ 8 then trapOpen .immediateRange s
    else if n = 0 then (parkOn 8 0 (gangKey q) s).onMe fun c => { c with readyAt := s.now + 8 }
    else withOperands [a] [] (fun x s =>
      let t := (x.getD 0 0).toNat
      if 63 < t then trapOpen .immediateRange s
      else
        let members := gangMembers s.actor n t
        let s := popReads [a] s
        if members.all fun m => m == s.actor || isAwaiting s s.me.codeId m then retire 4 16 (enrol q members s)
        else retire 4 16 (s.onMe (·.wpOk q false))) s)) s)

/-- UNGANG (R154): a follower leaves; the stroke places it in every buffer, waits until every follower has executed
it, and leaves. -/
def execUngang (s : State) : Result :=
  .next (match s.me.gang with
    | none => retire 4 4 s
    | some g =>
      if g.stroke ≠ s.actor then retire 4 4 (s.onMe leaveGang)
      else if g.members.all fun m => m == s.actor || (s.ctx m).gang.all (·.stroke != s.actor) then retire 4 4 (s.onMe leaveGang)
      else if s.me.wait.any fun w => w.key == ungangKey then stall s
      else
        let pc := s.me.pc
        let s := stall (copyToGang ⟨.ungang, pc, pc + 4, pc + 4⟩ s)
        s.onMe fun c => { c with wait := some ⟨ungangKey, 0, 0, false, false, false⟩ })

/-! ### PART and WAITM -/

/-- PART (R156): the issuer's slice, in exact arithmetic. (DEDUCED, log entry 20.) -/
def execPart (d a b q : Nat) (s : State) : Result :=
  .next (checkRegs (isEven d) (withOperands [a, b] [d, d + 1] fun x s =>
    let n := (x.getD 0 0).toNat
    let g := (x.getD 1 0).toNat
    let c := s.me
    if g = 0 then trapE .divideByZero (x.getD 0 0) s
    else if q = 0 ∧ c.isMember = false then trapOpen .crewNotMember s
    else
      let r := if q = 0 then c.crewRank else bits c.rank.toNat 18 3
      let p := max 1 (if q = 0 then c.crewsz.toNat else c.gsize.toNat)
      let chunks := (n + g - 1) / g
      let mine := chunks / p + (if r < chunks % p then 1 else 0)
      let first := r * (chunks / p) + min r (chunks % p)
      let s := writeReg d (word (min (first * g) n)) (popReads [a, b] s)
      retire 4 8 (writeReg (d + 1) (word (min ((first + mine) * g) n)) s)) s)

/-- WAITM (R157). -/
def execWaitm (s : State) : Result := .next (if s.here.inbox.isEmpty then parkAt 3 0 s else retire 4 4 s)

/-! ### The wings -/

/-- WINGS_SWAP_OUT (R131). -/
def execWingsSwapOut (s : State) : Result := .next (swapOut (s.arg 0) s)

/-- WINGS_SLOT_GRANT (R131). -/
def execWingsSlotGrant (s : State) : Result := .next (grantSlot (s.arg 0) s)

/-- WINGS_MOVE_DONE (R130): the thread is in its slot, or in the wings. -/
def execWingsMoveDone (s : State) : Result :=
  let a : Actor := ⟨s.arg 0, s.arg 1⟩
  let c := s.ctx a
  .next (match c.place with
    | .moving dest done =>
      if s.now < done then s.post (done - s.now) .wingsMoveDone s.args
      else match dest with
        | some i =>
          let core := s.core a.core
          let s := s.onCtx a fun c =>
            let x := { c.unwoken with place := .live i, readyAt := max c.readyAt (s.now + 1), called := false }
            if c.called && c.role.isSome then refreshed core x else x
          let s := returned a s
          if c.isMember then s.post 0 .crewPhaseComplete [c.crewSlot.toNat] else s
        | none =>
          let s := s.onCtx a fun c => { c with place := .wings s.now }
          let s := if c.isMember then s.post 0 .crewPhaseComplete [c.crewSlot.toNat] else s
          if (s.core a.core).stage.isSome then s.post 0 .recordDispatch [a.core] else s
    | _ => s)

end Sys2Proof.Machine
end

