-- ==== Sys2Proof/Machine/Stage.lean ====
section
/-! DEFINITION. The channel and stage class (chapter 16): neighbour channels, messages, and the keyed stage with its
dispatcher. -/

namespace Sys2Proof.Machine

/-! ### Checks -/

/-- A word that hub cores do not have: ILLEGAL_WORD (R12). -/
def coreOnly (go : State → State) (s : State) : State :=
  if isHub s.actor.core then trapOpen .illegalWord s else go s

/-- While channels are bound, no g field of the class names g28 or g29 (R309). -/
def plainFields (fs : List Nat) (go : State → State) (s : State) : State :=
  checkRegs (!(s.me.bound && (fs.contains 28 || fs.contains 29))) go s

/-- A direction field holds 0 to 4, or IMMEDIATE_RANGE is raised (R313). -/
def checkDir (x : Nat) (go : State → State) (s : State) : State := if 4 < x then trapOpen .immediateRange s else go s

/-! ### CHBIND, ENQ, DEQ and CHWM (R314 to R316) -/

/-- Why a direction cannot be bound, if it cannot (R314). -/
def dirFault (s : State) (dir : Nat) : Option Reason :=
  match neighbour s.actor.core dir with
  | none => some .channelUnbound
  | some n => if s.partOf n ≠ s.partOf s.actor.core ∨ runsOther s n = true then some .partitionFence else none

/-- Whether a channel is the input of the core's stage. -/
def isStageInput (c : Core) (u : Nat) : Bool := c.stage.any fun st => st.input == u

/-- The first check of CHBIND that fails. -/
def bindFault (s : State) (u v : Nat) : Option (Reason × Nat) :=
  let up := if u = 4 then none else match dirFault s u with
    | some r => some (r, u)
    | none => if isStageInput s.here u then some (.channelUnbound, u) else none
  up.orElse fun _ => if v = 4 then none else (dirFault s v).map fun r => (r, v)

/-- The bindings changed: g28 and g29 are kept when a binding begins and return when both end (R309). -/
def rebind (u v : Nat) (c : Ctx) : Ctx :=
  let c' := { c with bindU := u, bindV := v }
  if !c.bound && c'.bound then { c' with held28 := Map.get 0 c.g 28, held29 := Map.get 0 c.g 29 }
  else if c.bound && !c'.bound then (c'.wg 28 c.held28).wg 29 c.held29
  else c'

/-- CHBIND (R314). -/
def execChbind (u v : Nat) (s : State) : Result :=
  .next (coreOnly (checkDir u (checkDir v (specForbid fun s =>
    match bindFault s u v with
    | some (r, dir) => trapE r (word dir) s
    | none => refreshEff s.actor.core (retire 4 8 (s.onMe (rebind u v)))))) s)

/-- ENQ (R315). -/
def execEnq (a q : Nat) (s : State) : Result :=
  .next (coreOnly (checkRegs (isPq q) (plainFields [a] (specPark fun s =>
    let v := s.me.bindV
    if v = 4 then trapE .channelUnbound 4 s
    else if s.here.creditsLeft v = 0 then retire 4 4 (s.onMe (·.wpOk q false))
    else retire 4 4 ((pushValue s.actor.core v s.me.eff (s.me.rg a) s).onMe (·.wpOk q true))))) s)

/-- DEQ (R315). A channel whose head is reserved serves no other pop until the hold ends (R268). -/
def execDeq (d q : Nat) (s : State) : Result :=
  .next (coreOnly (checkRegs (isPq q) (plainFields [d] (specPark fun s =>
    let u := s.me.bindU
    let ch := s.here.chan u
    if u = 4 then trapE .channelUnbound 4 s
    else if ch.reserved.any fun t => t != s.actor.thread then stall s
    else match ch.values with
      | [] => retire 4 4 (s.onMe (·.wpOk q false))
      | x :: _ => retire 4 4 ((popValue s.actor.core u s.me.eff s).onMe fun c => (c.wg d x).wpOk q true)))) s)

/-- A channel's status word (R311). -/
def chanStatus (ch : Channel) : Nat :=
  ch.values.length + 2 ^ 8 * ch.lo + 2 ^ 16 * ch.hi + (if ch.throttle then 2 ^ 23 else 0)

/-- Whether an operand of CHWM is legal (R316): no reserved bit, and watermarks in range where it writes them. -/
def chwmOk (x : Nat) : Bool :=
  let lo := bits x 8 7
  let hi := bits x 16 7
  bits x 7 1 == 0 && bits x 15 1 == 0 && bits x 24 7 == 0 && bits x 32 32 == 0
    && (bits x 31 1 == 0 || hi == 64 || (decide (1 ≤ lo) && decide (lo < hi) && decide (hi ≤ 63)))

/-- New watermarks; THROTTLE is cleared if DEPTH is below both (R311). -/
def setMarks (k u lo hi : Nat) (s : State) : State :=
  let s := s.onCore k fun c => c.setChan u { c.chan u with lo := lo, hi := hi }
  if ((s.core k).chan u).values.length ≤ hi then clearThrottle k u s else s

/-- CHWM (R316). R313 gives IMMEDIATE_RANGE to the direction values 5 to 31 and CHWM the channels 0 to 3; 4 raises it too (DESIGN
CHOICE, log entry 59). -/
def execChwm (d a c : Nat) (s : State) : Result :=
  .next (coreOnly (plainFields [d, a] (specPark fun s =>
    let x := s.me.rg a
    if 3 < c then trapOpen .immediateRange s
    else if !chwmOk x.toNat then trapE .immediateRange x s
    else
      let old := chanStatus (s.here.chan c)
      let s := if x.getLsbD 31 then setMarks s.actor.core c (bits x.toNat 8 7) (bits x.toNat 16 7) s else s
      retire 4 4 (s.onMe (·.wg d (word old))))) s)

/-! ### Values and credits in flight (R310, R311) -/

/-- CHANNEL_PUSH_ARRIVAL (R310, R311): the value joins the channel, which may throttle; its waiters re-test. -/
def execChannelPushArrival (s : State) : Result :=
  .next (onFlight .channelPushArrival (fun f s => match f.payload with
    | .push u x =>
      let k := f.dst
      let ch := (s.core k).chan u
      let ch := { ch with values := ch.values ++ [x] }
      let throttle := ch.throttle || decide (ch.hi < ch.values.length)
      let s := refreshEff k (s.onCore k fun c => c.setChan u { ch with throttle := throttle })
      let s := wakeWhere k (fun c => c.wait.any fun w => w.key == popKey u) s
      some (if isStageInput (s.core k) u then s.post 0 .recordDispatch [k] else s)
    | _ => none) s)

/-- CHANNEL_CREDIT_RETURN (R310). -/
def execChannelCreditReturn (s : State) : Result :=
  .next (onFlight .channelCreditReturn (fun f s => match f.payload with
    | .credit v =>
      let s := s.onCore f.dst fun c => { c with credits := Map.set 0 c.credits v (Map.get 0 c.credits v - 1) }
      some (wakeWhere f.dst (fun c => c.wait.any fun w => w.key == pushKey v) s)
    | _ => none) s)

/-- Whether a thread's downstream binding leads into a throttled channel, so that it parks before its next instruction
(R311). -/
def isHeldBack (s : State) (a : Actor) : Bool :=
  let v := (s.ctx a).bindV
  v != 4 && match neighbour a.core v with
    | some n => ((s.core n).chan (opposite v)).throttle
    | none => false

/-- A producer of a throttled channel parks, its PC unchanged (R311); it keeps the place of its first attempt to push
(R310). -/
def throttlePark (a : Actor) (s : State) : State :=
  let arg := 4 + (s.ctx a).bindV
  (s.onCtx a fun c => { c with
    status := .parked
    park := BitVec.ofNat 32 (4 + 256 * arg)
    throttled := true
    timeoutAt := some (s.now + 2 ^ 20) }).post (2 ^ 20) .channelDeadlock [a.core, a.thread]

/-! ### Deadlock (R312) -/

/-- Whether a thread has stayed parked on a channel for 2^20 cycles. -/
def isStuck (s : State) (a : Actor) : Bool :=
  let c := s.ctx a
  c.parkReason == 4 && c.timeoutAt.any fun t => decide (t ≤ s.now)

/-- The threads to which the wait edges of a parked thread run (R312). -/
def waitEdges (s : State) (a : Actor) : List Actor :=
  let arg := bits (s.ctx a).park.toNat 8 24
  match neighbour a.core (arg % 4) with
  | none => []
  | some n =>
    let dir := opposite (arg % 4)
    ((s.core n).threads.filter fun t => (if arg < 4 then t.2.bindV else t.2.bindU) == dir).map fun t => ⟨n, t.1⟩

/-- The stuck threads that wait edges reach from those listed, within `n` rounds. -/
def reachable (s : State) : Nat → List Actor → List Actor
  | 0, xs => xs
  | n + 1, xs =>
    let more := ((xs.flatMap (waitEdges s)).filter fun a => isStuck s a && !xs.contains a).eraseDups
    if more.isEmpty then xs else reachable s n (xs ++ more)

/-- The stuck threads that wait edges of a thread lead to. -/
def waitsFor (s : State) (a : Actor) : List Actor :=
  reachable s 4096 (((waitEdges s a).filter (isStuck s)).eraseDups)

/-- CHANNEL_DEADLOCK (R312): every thread on a cycle with the one named stops, and one record goes out. -/
def execChannelDeadlock (s : State) : Result :=
  let a : Actor := ⟨s.arg 0, s.arg 1⟩
  let from_ := if isStuck s a then waitsFor s a else []
  .next (if !from_.contains a then s
  else
    let cycle := from_.filter fun b => (waitsFor s b).contains a
    let lowest := cycle.foldl (fun h b => min h (s.ctx b).handle) (s.ctx a).handle
    let code := causeCode .async .channelDeadlock
    let s := cycle.foldl (fun s b =>
      let c := s.ctx b
      pendIn b c ⟨code, word (bits c.park.toNat 8 24), 9, 0⟩ s) s
    notice (s.kernelOf a.core) code (s.recordPart a.core) lowest 0 (dieOf a.core) s)

/-! ### Messages (R317, R318) -/

/-- CheckName (R317). -/
def checkName (w : Word) (go : State → State) (s : State) : State :=
  let n := w.toNat
  let mine := nameDevice n == s.plat.devid
  if 2 ^ 33 ≤ n ∨ bits n 0 6 ≠ 0 ∨ (bits n 32 1 = 1 ∧ bits n 16 2 ≠ 0) ∨ (mine = true ∧ (nameCore n).isNone) then
    trapE .copyDestinationInvalid w s
  else if mine && !(nameCore n).any (s.mayName s.actor.core) then trapE .partitionFence w s
  else go s

/-- An inbox's answer on its way to the sender: 0 refused, 1 accepted, 2 denied, 3 unreachable. -/
def messageAnswer (src : Nat) (a : Actor) (q ans : Nat) (name : Word) (s : State) : State :=
  s.send .message src a.core 0 (.messageReply a q ans name) .messageReply

/-- SEND (R317). A name on another device that names no core is refused there, as R218 and R221 have it for windows and
counters (DESIGN CHOICE, log entry 7). -/
def execSend (a b q : Nat) (s : State) : Result :=
  .next (checkRegs (isPq q && isEven b) (plainFields [a, b] (specPark fun s =>
    let w := s.me.rg a
    checkName w (throughLink (nameDevice w.toNat) fun s =>
      let me := s.actor
      let c := s.me
      let sender := word (c.handle + 2 ^ 32 * s.plat.devid)
      let s := parkAfter 4 4 9 0 s
      if nameDevice w.toNat = s.plat.devid then
        match nameCore w.toNat with
        | some k => s.send .message me.core k c.handle (.message me q (c.rg b) (c.rg (b + 1)) sender) .messageArrival
        | none => s
      else match remoteFailure s (nameDevice w.toNat) with
        | some .remoteDenied => messageAnswer (elsewhere + nameDevice w.toNat) me q 2 w s
        | some _ => messageAnswer (elsewhere + nameDevice w.toNat) me q 3 w s
        | none =>
          let (x, s) := fabricNat 1 s
          messageAnswer (elsewhere + nameDevice w.toNat) me q (if (nameCore w.toNat).isNone then 2 else x % 2) w s) s)) s)

/-- MESSAGE_ARRIVAL (R317): the message enters the inbox, or the saved inbox image, unless that holds 64. -/
def execMessageArrival (s : State) : Result :=
  .next (onFlight .messageArrival (fun f s => match f.payload with
    | .message a q m0 m1 sender =>
      let k := f.dst
      let m : Message := ⟨m0, m1, sender⟩
      let saved := (switchedOut s k).bind fun i =>
        ((s.hub.saved[i]?).bind fun v => v.cores.find? fun c => c.core == k).map fun c => (i, c)
      some (match saved with
        | some (i, c) =>
          if 64 ≤ c.image.inbox.length + c.messages.length then messageAnswer k a q 0 0 s
          else messageAnswer k a q 1 0 (onSaved i k (fun c => { c with messages := c.messages ++ [m] }) s)
        | none =>
          if 64 ≤ (s.core k).inbox.length then messageAnswer k a q 0 0 s
          else
            let s := s.onCore k fun c => { c with inbox := c.inbox ++ [m] }
            messageAnswer k a q 1 0 (wakeWhere k (fun c => c.parkReason == 3) s))
    | _ => none) s)

/-- MESSAGE_REPLY (R317): the predicate is written, or the cause of a failed delivery becomes pending; its value is unstated
(DESIGN CHOICE, log entry 11). -/
def execMessageReply (s : State) : Result :=
  .next (onFlight .messageReply (fun f s => match f.payload with
    | .messageReply a q ans _ =>
      let s := s.onCtx a fun c => resume s.now (if ans < 2 then c.wpOk q (ans == 1) else c)
      let r : Reason := if ans = 2 then .remoteDenied else .remoteUnreachable
      some (if ans < 2 then s
        else pendCause (s.ctx a).handle a.core ⟨causeCode .remote r, Config.unstatedXval s.fresh, 9, 0⟩ { s with fresh := s.fresh + 1 })
    | _ => none) s)

/-- RECV (R318). -/
def execRecv (d b q : Nat) (s : State) : Result :=
  .next (checkRegs (isPq q && isEven d) (plainFields [d, b] (specPark fun s =>
    match s.here.inbox with
    | [] => retire 4 4 (s.onMe (·.wpOk q false))
    | m :: rest =>
      let s := s.setHere { s.here with inbox := rest }
      retire 4 4 (s.onMe fun c => (((c.wg d m.m0).wg (d + 1) m.m1).wg b m.sender).wpOk q true))) s)

/-! ### The stage's tables (R44, R320 to R324) -/

/-- A word of the descriptor copy. -/
def Stage.word (st : Stage) (i : Nat) : Nat := (st.desc.getD i 0).toNat
/-- The entry PC. -/
def Stage.entryPc (st : Stage) : Word := st.desc.getD 0 0
/-- The finale PC. -/
def Stage.finalePc (st : Stage) : Word := st.desc.getD 1 0
/-- How many slots the spill area holds (R323). -/
def Stage.areaSlots (st : Stage) : Nat := min (2 ^ (bits (st.word 2) 58 6 - 10)) 256
/-- The role capacity. -/
def Stage.capacity (st : Stage) : Nat := bits (st.word 3) 0 6
/-- The idle limit in nanoseconds of TIME; 0 means none. -/
def Stage.idle (st : Stage) : Nat := bits (st.word 3) 8 16 * 1000
/-- The local-store address of the initial register image. -/
def Stage.imageAt (st : Stage) : Nat := bits (st.word 3) 32 18
/-- The records in a key's pending slot, oldest first. -/
def Stage.pending (st : Stage) (key : Nat) : List Record := (Tbl.get? st.slots key).getD []
/-- The stage with a key's pending slot replaced. -/
def Stage.setPending (st : Stage) (key : Nat) (rs : List Record) : Stage :=
  { st with slots := if rs.isEmpty then Tbl.del st.slots key else Tbl.put st.slots key rs }
/-- Whether a key's role is being spilled. -/
def Stage.isSpilling (st : Stage) (key : Nat) : Bool := st.spilling.any fun p => p.key == key
/-- Whether a key's role is in the spill index. -/
def Stage.isSpilled (st : Stage) (key : Nat) : Bool := st.spills.any fun p => p.key == key
/-- The lowest free slot of the spill area. -/
def Stage.freeArea (st : Stage) : Option Nat :=
  (List.range st.areaSlots).find? fun i => !((st.spills ++ st.spilling).any fun p => p.slot == i)

/-- The threads of a core that are roles. -/
def Core.roles (c : Core) : List (Nat × Ctx) := c.threads.filter fun e => e.2.role.isSome
/-- The role of a key. -/
def Core.roleOf (c : Core) (key : Nat) : Option (Nat × Ctx) := c.threads.find? fun e => e.2.role == some key
/-- The stage's role count: roles live or in the wings (R322). -/
def roleCount (c : Core) (st : Stage) : Nat := c.roles.length + st.spills.countP (·.fetching)

/-- A record in g8 to g15 (R319). -/
def loadRecord (r : Record) (c : Ctx) : Ctx :=
  (List.range 7).foldl (fun c i => c.wg (9 + i) (r.payload.getD i 0)) (c.wg 8 r.header)

/-- A suspended role made ready: PENDING in the wings, with the stage's EFF (R321). -/
def unsuspend (core : Core) (now : Nat) (c : Ctx) : Ctx :=
  refreshed core { c with
    suspended := false
    called := !c.isLive
    place := match c.place with
      | .wings _ => .wings now
      | p => p }

/-- A role entered at the finale (R324). -/
def enterFinale (st : Stage) (reason : Nat) (c : Ctx) : Ctx :=
  { loadRecord ⟨word (reason * 2 ^ 56 + c.role.getD 0), []⟩ c with pc := st.finalePc, finale := true }

/-! ### Instantiation and fetch-back (R322, R323) -/

/-- A register image loaded into a new role, bindings and all (R322). The cause of a bad image is that of CTXLOAD. -/
def roleFrom (k t : Nat) (st : Stage) (key : Nat) (im : List Byte) (core : Core) : Ctx :=
  let c := startContext k t { core.launchOf with ceil := st.ceil } st.entryPc [] st.codeId st.prio 0 0
  let c := loadImage core im { c with role := some key }
  { c with crewSlot := BitVec.ofNat 16 core.launchOf.crewBase }

/-- A new role of a key with its first record, PENDING or in a slot (R322); none without a free thread number. A bad image,
or one that cannot be read, is a trap of the new role at its entry PC. -/
def instantiate (k : Nat) (st : Stage) (key : Nat) (r : Record) (s : State) : Option State :=
  let core := s.core k
  match core.freeThread with
  | none => none
  | some t =>
    let im := getBytes core.ls st.imageAt 1024
    let s := correctSingles k st.imageAt 1024 s
    let fault : Option (Nat × Nat) := match core.badWord st.imageAt 1024 with
      | some w => some (causeCode .access .lsUncorrectable, w)
      | none => (checkImage im 0).map fun off => (causeCode .execute .restoreInvalid, off)
    let base := roleFrom k t st key (if fault.isSome then List.replicate 1024 0 else im) core
    let c := rebind 4 st.output (loadRecord r (setPriority core st.prio
      { base with pc := st.entryPc, codeId := BitVec.ofNat 16 st.codeId }))
    let s := (buildThread k t c s).2
    some (match fault with
      | some (cause, x) => takeCause ⟨k, t⟩ cause (word x) st.entryPc s
      | none => s)

/-- What comes back from the spill area: the role with the registers, bindings and crew of its image, a member of that crew if
it was one when it was spilled (R147, R323, R384). Its handle is new. -/
def restored (k t : Nat) (st : Stage) (p : Spill) (im : List Byte) (s : State) : Ctx :=
  let c := roleFrom k t st p.key im (s.core k)
  let name := spilledName k p.slot
  let crew := s.crew (imageNat im 0x39C 2)
  let member := crew.members.any fun m => m.1 == name
  { c with
    rank := BitVec.ofNat 32 (imageNat im 0x38C 4)
    crewsz := BitVec.ofNat 32 (imageNat im 0x394 4)
    crewSlot := BitVec.ofNat 16 (imageNat im 0x39C 2)
    isMember := member
    arrived := if member then p.arrived else none
    bindU := bits (imageNat im 0x3A4 1) 0 3
    bindV := bits (imageNat im 0x3A4 1) 3 3
    held28 := word (imageNat im 0x3A8 8)
    held29 := word (imageNat im 0x3B0 8) }

/-- A fetched-back role takes up its oldest pending record, or the finale, or waits suspended (R321, R324).
(DEDUCED, log entry 27.) -/
def takeUp (st : Stage) (p : Spill) (c : Ctx) : Ctx × Stage :=
  match st.pending p.key with
  | r :: rest => (loadRecord r c, st.setPending p.key rest)
  | [] => if p.finale = 0 then ({ c with suspended := true }, st) else (enterFinale st p.finale c, st)

/-- ROLE_FETCH_BACK (R323): the image is read into the wings, once they have a place. -/
def execRoleFetchBack (s : State) : Result :=
  let k := s.arg 0
  let key := s.arg 1
  let core := s.core k
  .next (match core.stage with
    | none => s
    | some st => match st.spills.find? fun p => p.key == key && p.fetching with
      | none => s
      | some p => match (if wingsCount core < 48 then core.freeThread else none) with
        | none => s.post 16 .roleFetchBack s.args
        | some t =>
          if awaitsMemory s (clusterOf k) (s.spaceOf k) (st.slotAddr p.slot) 1024 then s.post 1 .roleFetchBack s.args
          else match readVirtual (clusterOf k) (s.spaceOf k) 1024 (st.slotAddr p.slot) s with
          | (_, some (r, at_), s) =>
            if isStalling r then stallFault (.fetchBack k key) (s.spaceOf k) at_ 0 r s else failFetchBack k key s
          | (im, none, s) =>
            if (checkImage im 0).isSome then failFetchBack k key s
            else
              let st := { st with spills := st.spills.filter fun q => q.key != key }
              let (c, st) := takeUp st p (restored k t st p im s)
              let s := s.onCore k fun c => { c with stage := some st }
              let (h, s) := seatThread k t (.wings s.now) { c with suspendedAt := s.time, suspendedOn := s.now, called := true } s
              let s := s.onCtx ⟨k, t⟩ (refreshed core)
              let s := rename (spilledName k p.slot) ⟨k, t⟩ p.owner h s
              (if c.isMember then s else leaveSpilled ⟨k, t⟩ s).post 0 .recordDispatch [k])

/-- ROLE_SPILL (R323): the image is written, the key enters the spill index and the thread's place is free. The role stays in
its crew, under the name of its slot. A role that has been killed meanwhile is not spilled (R325). -/
def execRoleSpill (s : State) : Result :=
  let k := s.arg 0
  let key := s.arg 1
  let core := s.core k
  .next (match core.stage with
    | none => s
    | some st => match st.spilling.find? fun p => p.key == key, (core.roleOf key).filter (·.2.suspended) with
      | some p, some e =>
        let va := st.slotAddr p.slot
        if awaitsMemory s (clusterOf k) (s.spaceOf k) va 1024 then s.post 1 .roleSpill s.args
        else match writeVirtual (clusterOf k) (s.spaceOf k) va (va + 1024) (imageOf e.2) va s with
        | (some (r, at_), s) =>
          if isStalling r then stallFault (.spill k key) (s.spaceOf k) at_ 1 r s else failSpill k key s
        | (none, s) =>
          let h := e.2.handle
          let s := rename ⟨k, e.1⟩ (spilledName k p.slot) h h s
          let s := onStage k (fun st => { st with
            spills := st.spills ++ [{ p with deadline := e.2.suspendedAt + st.idle, owner := h, arrived := e.2.arrived }]
            spilling := st.spilling.filter fun q => q.key != key }) s
          (freeThread ⟨k, e.1⟩ s).post 0 .recordDispatch [k]
      | _, _ => onStage k (fun st => { st with spilling := st.spilling.filter fun q => q.key != key }) s)

/-! ### The dispatcher (R321 to R324) -/

/-- The suspended role that suspended longest ago, by core cycle, and stands in the wings (R322); of several that came to be suspended
in one cycle, the lowest thread number (DESIGN CHOICE, log entry 60). -/
def oldestSuspended (c : Core) (st : Stage) : Option (Nat × Ctx) :=
  (c.roles.filter fun e => e.2.suspended && e.2.isWinged && !st.isSpilling (e.2.role.getD 0)).foldl
    (fun best e => match best with
      | none => some e
      | some b => if e.2.suspendedOn < b.2.suspendedOn then some e else some b) none

/-- Room is made under capacity (R322, R323): a spill begins, or where no slot is free the role enters the finale, and the room
comes once it has retired: one role at a time. None if nothing can be done now. -/
def makeRoom (k : Nat) (st : Stage) (s : State) : Option State :=
  if !st.spilling.isEmpty then none
  else match oldestSuspended (s.core k) st with
    | none => none
    | some e =>
      let key := e.2.role.getD 0
      match st.freeArea with
      | some slot =>
        some ((onStage k (fun st => { st with spilling := st.spilling ++ [⟨key, slot, 0, false, 0, 0, none⟩] }) s).post 0
          .roleSpill [k, key])
      | none =>
        if (s.core k).roles.any (·.2.finale) then none
        else some (s.onCtx ⟨k, e.1⟩ fun c => unsuspend (s.core k) s.now (enterFinale st 2 c))

/-- Whether the stage has room for one more role. -/
def hasRoom (c : Core) (st : Stage) : Bool := decide (roleCount c st < st.capacity)

/-- A suspended role whose slot it cannot leave yet moves out once the wings have a place (R130, R325).
(DEDUCED, log entry 27.) -/
def settleSuspended (k : Nat) (s : State) : Option State :=
  let core := s.core k
  if 48 ≤ wingsCount core then none
  else ((core.roles.find? fun e => e.2.suspended && e.2.isLive)).map fun e => startMove ⟨k, e.1⟩ none s

/-- A suspended role that has a pending record, or whose stage ends, is resumed. -/
def resumeRole (k : Nat) (st : Stage) (s : State) : Option State :=
  let core := s.core k
  let wants (c : Ctx) : Bool :=
    let key := c.role.getD 0
    c.suspended && !st.isSpilling key && (st.ending || !(st.pending key).isEmpty)
  (core.roles.find? fun e => wants e.2).map fun e =>
    let key := e.2.role.getD 0
    let a : Actor := ⟨k, e.1⟩
    match st.pending key with
    | r :: rest => (onStage k (·.setPending key rest) s).onCtx a fun c => unsuspend core s.now (loadRecord r c)
    | [] => s.onCtx a fun c => unsuspend core s.now (enterFinale st 3 c)

/-- A spilled role that is wanted is fetched back, once there is room (R323, R324). -/
def fetchRole (k : Nat) (st : Stage) (s : State) : Option State :=
  match st.spills.find? fun p => !p.fetching && (st.ending || p.finale != 0 || !(st.pending p.key).isEmpty) with
  | none => none
  | some p =>
    if hasRoom (s.core k) st then
      let mark (q : Spill) : Spill :=
        if q.key = p.key then { q with fetching := true, finale := if st.ending && q.finale == 0 then 3 else q.finale }
        else q
      some ((onStage k (fun st => { st with spills := st.spills.map mark }) s).post 0 .roleFetchBack [k, p.key])
    else makeRoom k st s

/-- A key with pending records and no role: its first record instantiates one (R325). -/
def orphanKey (c : Core) (st : Stage) : Option (Nat × Record × List Record) :=
  (st.slots.find? fun e => (c.roleOf e.1).isNone && !st.isSpilled e.1).bind fun e => match e.2 with
    | r :: rest => some (e.1, r, rest)
    | [] => none

/-- The record at the head of the input channel (R319), once its header and all LEN values have arrived: until then its values stand
in the channel, and count in DEPTH (DESIGN CHOICE, log entry 65: R319 does not say when a header leaves the channel). -/
def nextRecord (ch : Channel) : Option Record :=
  match ch.values with
  | [] => none
  | h :: vs =>
    let n := bits h.toNat 24 3
    if n ≤ vs.length then some ⟨h, vs.take n⟩ else none

/-- The values of a record leave the input channel, with the stage's EFF (R132, R321; DEDUCED, log entry 52). -/
def dropRecord (k : Nat) (st : Stage) (r : Record) (s : State) : State := popValues k st.input st.prio (1 + r.payload.length) s

/-- The next input record handled by the state of its key (R321); none while input stops. -/
def takeRecord (k : Nat) (st : Stage) (s : State) : Option State :=
  let core := s.core k
  match nextRecord (core.chan st.input) with
  | none => none
  | some r =>
    let key := bits r.header.toNat 0 24
    if bits r.header.toNat 27 5 ≠ 0 then some (causeForZero k .stageRecordMalformed r.header (dropRecord k st r s))
    else if key = 0xFFFFFF then some (causeForZero k .stageKeyRange r.header (dropRecord k st r s))
    else if (core.roleOf key).isSome || st.isSpilled key then
      if 4 ≤ (st.pending key).length then none
      else some (onStage k (fun st => st.setPending key (st.pending key ++ [r])) (dropRecord k st r s))
    else if hasRoom core st then (instantiate k st key r s).map (dropRecord k st r)
    else makeRoom k st s

/-- The end of a stage (R320): with no role, spill or record left it is undefined, and its issuer goes on. -/
def endStage (k : Nat) (s : State) : State :=
  refreshEff k ((s.onCore k fun c => { c with stage := none }).wake ⟨k, 0⟩)

/-- One act of the dispatcher; none if there is nothing that it can do now. -/
def dispatchOnce (k : Nat) (st : Stage) (s : State) : Option State :=
  ((settleSuspended k s).orElse fun _ => resumeRole k st s).orElse fun _ => (fetchRole k st s).orElse fun _ =>
    match orphanKey (s.core k) st with
    | some (key, r, rest) =>
      if hasRoom (s.core k) st then (instantiate k st key r s).map (onStage k (·.setPending key rest))
      else makeRoom k st s
    | none =>
      if st.ending then
        (if (s.core k).roles.isEmpty && st.spills.isEmpty && st.spilling.isEmpty then some (endStage k s) else none)
      else takeRecord k st s

/-- RECORD_DISPATCH (R321): one act, and the next is due. -/
def execRecordDispatch (s : State) : Result :=
  let k := s.arg 0
  .next (match (s.core k).stage with
    | none => s
    | some st => match dispatchOnce k st s with
      | some s => s.post 0 .recordDispatch [k]
      | none => s)

/-- IDLE_LIMIT_EXPIRY (R324): a role suspended for the idle limit, with no pending record, enters the finale. -/
def execIdleLimitExpiry (s : State) : Result :=
  let k := s.arg 0
  let key := s.arg 1
  let core := s.core k
  .next (match core.stage with
    | none => s
    | some st =>
      if st.idle = 0 ∨ (st.pending key).isEmpty = false then s
      else
        let due (since : Nat) : Bool := decide (since + st.idle ≤ s.time)
        match core.roleOf key with
        | some e =>
          if !(e.2.suspended && due e.2.suspendedAt) then s
          else if st.isSpilling key then
            onStage k (fun st => { st with spilling := st.spilling.map fun p =>
              if p.key = key then { p with finale := 1 } else p }) s
          else s.onCtx ⟨k, e.1⟩ fun c => unsuspend core s.now (enterFinale st 1 c)
        | none =>
          (onStage k (fun st => { st with spills := st.spills.map fun p =>
            if p.key = key ∧ p.deadline ≤ s.time ∧ p.finale = 0 then { p with finale := 1 } else p }) s).post 0
            .recordDispatch [k])

/-! ### STAGEDEF and the role instructions (R320, R325, R326) -/

/-- Whether a script descriptor obeys R44. -/
def scriptOk (lim : Nat) (e0 e1 e2 e3 : Nat) : Bool :=
  let pcOk (x : Nat) : Bool := bits x 0 1 == 0 && bits x 57 7 == 0
  let image := bits e3 32 18
  pcOk e0 && pcOk e1
    && bits e2 0 10 == 0 && bits e2 57 1 == 0 && decide (10 ≤ bits e2 58 6) && decide (bits e2 58 6 ≤ 40)
    && decide (1 ≤ bits e3 0 6) && decide (bits e3 0 6 ≤ 48) && bits e3 6 2 == 0 && bits e3 24 8 == 0 && bits e3 50 14 == 0
    && image % 64 == 0 && decide (image + 1024 ≤ lim)

/-- STAGEDEF of a new stage, its checks in order (R320). -/
def defineStage (a b q : Nat) (s : State) : State :=
  let e (i : Nat) : Nat := (s.me.re (q + i)).toNat
  if s.here.stage.isSome then trapE .stageUndefined 1 s
  else if !scriptOk (lsLimit s.actor.core) (e 0) (e 1) (e 2) (e 3) then trapOpen .extInvalid s
  else match dirFault s b with
    | some r => trapE r (word b) s
    | none =>
      if s.here.threads.any fun t => t.2.bindU == b then trapE .channelUnbound (word b) s
      else match (if a = 4 then none else dirFault s a) with
        | some r => trapE r (word a) s
        | none =>
          let st : Stage := {
            desc := (List.range 4).map fun i => s.me.re (q + i)
            input := b
            output := a
            codeId := s.me.codeId.toNat
            prio := s.me.priority
            ceil := s.here.launchOf.ceil
            slots := []
            spills := []
            spilling := []
            ending := false }
          let s := s.setHere { s.here with stage := some st }
          (refreshEff s.actor.core (retire 4 16 s)).post 0 .recordDispatch [s.actor.core]

/-- STAGEDEF (R320): a definition, or with NONE, NONE the end of the stage. -/
def execStagedef (a b q : Nat) (s : State) : Result :=
  .next (coreOnly (checkRegs (q == 0 || q == 4) (noGang (checkDir a (checkDir b (specForbid (zeroOnly fun s =>
    if b < 4 then defineStage a b q s
    else if a ≠ 4 then trapOpen .immediateRange s
    else if s.here.stage.isNone then trapE .stageUndefined 0 s
    else
      let k := s.actor.core
      (parkAfter 4 16 9 0 (onStage k (fun st => { st with ending := true }) s)).post 0 .recordDispatch [k])))))) s)

/-- A role instruction in a role of the core's stage; elsewhere it raises STAGE_UNDEFINED (R325). -/
def asRole (go : Nat → Stage → State → State) (s : State) : State :=
  match s.me.role, s.here.stage with
  | some key, some st => go key st s
  | _, _ => trapE .stageUndefined 0 s

/-- The role ends (R325). -/
def retireRole (s : State) : State := beginDrain s.actor .retire 0 ((retire 4 4 s).onMe (rebind 4 4))

/-- The oldest pending record taken into g8 to g15; the slot has room again. -/
def takePending (key : Nat) (r : Record) (rest : List Record) (s : State) : State :=
  ((onStage s.actor.core (·.setPending key rest) s).onMe (loadRecord r)).post 0 .recordDispatch [s.actor.core]

/-- KRECV (R325). -/
def execKrecv (q : Nat) (s : State) : Result :=
  .next (coreOnly (checkRegs (isPq q) (noGang (asRole fun key st s =>
    match st.pending key with
    | r :: rest => retire 4 4 ((takePending key r rest s).onMe (·.wpOk q true))
    | [] => retire 4 4 (s.onMe (·.wpOk q false))))) s)

/-- KYIELD (R325): it retires a finale role, takes a pending record, or suspends. -/
def execKyield (s : State) : Result :=
  .next (coreOnly (noGang (asRole fun key st s =>
    if s.me.finale then retireRole s
    else match st.pending key with
      | r :: rest => retire 4 4 (takePending key r rest s)
      | [] =>
        ((retire 4 4 s).onMe fun c => { c with suspended := true, suspendedAt := s.time, suspendedOn := s.now }).post 0 .recordDispatch
          [s.actor.core])) s)

/-- KRETIRE (R325). -/
def execKretire (s : State) : Result := .next (coreOnly (noGang (asRole fun _ _ s => retireRole s)) s)

/-- The state of a key as KLOOK shows it (R326). -/
def klookWord (c : Core) (st : Stage) (key : Nat) : Nat :=
  let base := 4 * (st.pending key).length + 2 ^ 8 * roleCount c st
  match c.roleOf key with
  | some e =>
    base + (if e.2.suspended then 2 else 1) + (if e.2.finale then 32 else 0) + 2 ^ 32 * e.2.handle
  | none => base + (if st.isSpilled key then 3 else 0)

/-- KLOOK (R326). -/
def execKlook (d a : Nat) (s : State) : Result :=
  .next (coreOnly (plainFields [d, a] fun s =>
    let x := s.me.rg a
    if 0xFFFFFF ≤ x.toNat then trapE .stageKeyRange x s
    else match s.here.stage with
      | none => trapOpen .stageUndefined s
      | some st => retire 4 8 (s.onMe (·.wg d (word (klookWord s.here st x.toNat))))) s)

end Sys2Proof.Machine
end

