-- ==== Sys2Proof/Machine/Matrix.lean ====
section
/-! DEFINITION. The matrix class (chapter 12): descriptors and their checks, the engine queue and the holds of a check
phase, the weight loader, streaming with its exact sums, and the accumulator transfers. -/

namespace Sys2Proof.Machine

/-! ### Formats and classes (R83, R264) -/

/-- The format classes of R264. -/
inductive FmtClass where
  | c16 | c8 | c4 | d64
  deriving DecidableEq, Repr

/-- The element type of a float format code (R83, R86), numbered as in the format tables; none for an integer format or
no format. -/
def elemType (code : Nat) : Option Nat :=
  match code with
  | 1 => some 8
  | 2 => some 9
  | 3 => some 10
  | 4 => some 11
  | 5 => some 12
  | 6 => some 13
  | 7 => some 16
  | 8 => some 14
  | 9 => some 15
  | 0x10 => some 16
  | 0x11 => some 12
  | 0x12 => some 15
  | _ => none

/-- Whether the format-code table holds a code (R83). -/
def isFormat (code : Nat) : Bool := (decide (1 ≤ code) && decide (code ≤ 0xD)) || (decide (0x10 ≤ code) && decide (code ≤ 0x12))
/-- Whether a code is that of an MX format. -/
def isMx (code : Nat) : Bool := decide (0x10 ≤ code) && decide (code ≤ 0x12)

/-- The class of a format code (R264). -/
def classOf (code : Nat) : Option FmtClass :=
  match code with
  | 1 => some .d64
  | 3 | 4 => some .c16
  | 5 | 6 | 8 | 9 | 0x11 | 0x12 => some .c8
  | 7 | 0x10 => some .c4
  | _ => none

/-- The depth K of a dense plane (R264). -/
def depthOf : FmtClass → Nat
  | .c16 => 32
  | .c8 => 64
  | .c4 => 128
  | .d64 => 16

/-- The columns of a plane (R264). -/
def columnsOf : FmtClass → Nat
  | .d64 => 16
  | _ => 32

/-- The bytes of a column record (R264). -/
def recordSize (code : Nat) : Nat := if code = 1 then 128 else if code = 9 ∨ code = 0x12 then 48 else 64

/-- The scale blocks per column (R264). -/
def blocksOf : FmtClass → Nat
  | .c8 => 2
  | .c4 => 4
  | _ => 0

/-! ### The MATRIX descriptor (R42) -/

/-- The activation format code. -/
def actFormat (w : Word) : Nat := bits w.toNat 0 8
/-- The weight format code. -/
def weightFormat (w : Word) : Nat := bits w.toNat 8 8
/-- The number of rows. -/
def descRows (w : Word) : Nat := bits w.toNat 24 8 + 1
/-- The pitch field, in 16-byte units. -/
def descPitch (w : Word) : Nat := bits w.toNat 32 16
/-- The scale mode. -/
def scaleMode (w : Word) : Nat := bits w.toNat 48 8
/-- The sparsity mode. -/
def sparsityOf (w : Word) : Nat := bits w.toNat 56 8
/-- Whether the weight side is scaled (R266). -/
def weightScaled (w : Word) : Bool := scaleMode w == 1 || scaleMode w == 2
/-- Whether the activation side is scaled (R266). -/
def actScaled (w : Word) : Bool := scaleMode w == 1 || scaleMode w == 3
/-- The stored depth K of the weight side. -/
def weightDepth (w : Word) : Nat := ((classOf (weightFormat w)).map depthOf).getD 0
/-- The length of a streamed row in elements: the logical depth (R264, R265). -/
def rowLength (w : Word) : Nat := weightDepth w * (if sparsityOf w = 1 then 2 else 1)
/-- The length of a streamed row in bytes. -/
def rowBytes (w : Word) : Nat := rowLength w * ((elemType (actFormat w)).map typeBits).getD 0 / 8
/-- The distance P between streamed rows (R273). -/
def rowPitch (w : Word) : Nat := if descPitch w = 0 then (rowBytes w + 15) / 16 * 16 else 16 * descPitch w
/-- The scales of an activation row, B_a (R273). -/
def rowScales (w : Word) : Nat := if actScaled w then rowLength w / 32 else 0
/-- The weight scales of a column, B (R264, R272). -/
def columnScales (w : Word) : Nat := if weightScaled w then ((classOf (weightFormat w)).map blocksOf).getD 0 else 0
/-- The index bytes of a column, M (R272). -/
def columnIndex (w : Word) : Nat := if sparsityOf w = 1 then weightDepth w / 4 else 0
/-- The bytes V of the values region (R272). -/
def valuesSize (w : Word) : Nat := ((classOf (weightFormat w)).map columnsOf).getD 0 * recordSize (weightFormat w)
/-- The size of a weight image (R272). -/
def imageSize (w : Word) : Nat := valuesSize w + 32 * columnIndex w + 32 * columnScales w

/-- The streaming instructions, as R265 pairs them: 0 MSTREAM, 1 MSTREAMS, 2 MSTREAMD. -/
def streamKind (w : Word) : Nat :=
  if classOf (weightFormat w) = some .d64 then 2 else if sparsityOf w = 1 then 1 else 0

/-- Whether the engine runs a descriptor's pairing for a kind of streaming (R265). -/
def runsPairing (kind : Nat) (w : Word) : Bool :=
  let acc := bits w.toNat 16 8
  match classOf (weightFormat w), classOf (actFormat w) with
  | some x, some y =>
    if kind = 2 then sparsityOf w == 0 && acc == 1 && decide (x = .d64) && decide (y = .d64)
    else sparsityOf w == kind && acc == 2 && decide (x ≠ .d64) && (decide (x = y) || (decide (x = .c4) && decide (y = .c8)))
  | _, _ => false

/-- Whether a side's scaling is one that R266 allows. -/
def scaleAllowed (code : Nat) (scaled : Bool) : Bool :=
  if isMx code then scaled
  else !(scaled && (decide (classOf code = some .c16) || decide (classOf code = some .d64)))

/-- The first check that a descriptor fails for a kind of streaming: R42, then R265, then R266. Of R42's own fields formats come
first, then the accumulate format, rows, pitch, scale and sparsity modes, an order that R42 does not give (DESIGN CHOICE, log
entry 43). -/
def descFault (kind : Nat) (w : Word) : Option Reason :=
  let acc := bits w.toNat 16 8
  if !isFormat (actFormat w) || !isFormat (weightFormat w) then some .formatUnsupported
  else if acc ≠ 1 ∧ acc ≠ 2 then some .matrixFormatMismatch
  else if 32 < descRows w then some .matrixShape
  else if descPitch w ≠ 0 ∧ (classOf (actFormat w)).isSome ∧ 16 * descPitch w < rowBytes w then some .matrixShape
  else if 3 < scaleMode w ∨ 1 < sparsityOf w then some .extInvalid
  else if !runsPairing kind w then some .matrixFormatMismatch
  else if !scaleAllowed (weightFormat w) (weightScaled w) || !scaleAllowed (actFormat w) (actScaled w) then
    some .scaleInvalid
  else none

/-- A descriptor passes its checks, or its cause is raised; no rule names an XVAL for it. -/
def checkDesc (kind : Nat) (w : Word) (go : State → State) (s : State) : State :=
  match descFault kind w with
  | some r => trapOpen r s
  | none => go s

/-! ### The engine's work becomes due -/

/-- Whether the debugger has frozen the core's engines (R393). -/
def Core.frozen (c : Core) : Bool := c.dbgCtl.getLsbD 0

/-- The steps that a core's engine may now take. -/
def kickEngine (k : Nat) (s : State) : State :=
  let e := (s.core k).eng
  let s := if e.rows.isEmpty then s else s.post 0 .streamRowWrite [k]
  let s := if e.outs.isEmpty then s else s.post 0 .accumulatorWriteOut [k]
  let s := match e.loads.head? with
    | some (.weights ..) => s.post 0 .weightLoad [k]
    | some (.compress _ _ _ _ _ (some _) _) => s.post 0 .weightCompress [k]
    | _ => s
  match e.queue.head? with
  | some ⟨_, _, .swap _⟩ => s.post 0 .planeSwap [k]
  | some ⟨_, _, .zero _⟩ => s.post 0 .azeroAmoveAtHead [k]
  | some ⟨_, _, .move _ _⟩ => s.post 0 .azeroAmoveAtHead [k]
  | some ⟨_, _, .xform ..⟩ => s.post 0 .transformExecute [k]
  | _ => s

/-- A core's engine changed, and what it may now do due. -/
def onEngine (k : Nat) (f : Engine → Engine) (s : State) : State :=
  kickEngine k (s.onCore k fun c => { c with eng := f c.eng })

/-- The engine without an entry of its queue. -/
def Engine.dequeue (e : Engine) (id : Nat) : Engine := { e with queue := e.queue.filter fun x => x.id != id }

/-- Whether a row in the array is on its way to one of these rows (R267). -/
def Engine.rowsToward (e : Engine) (planes : List Nat) (lo n : Nat) : Bool :=
  e.rows.any fun r => decide (lo ≤ r.row) && decide (r.row < lo + n) &&
    (planes.contains r.d || (r.double && planes.contains (r.d + 1)))

/-- An instruction that is accepted at once, 4 cycles (R268); it is not ready while the queue is full (R267). -/
def enqueueEngine (op : Engine → EngineOp) (pops : List Nat) (s : State) : State :=
  let e := s.here.eng
  if 8 ≤ e.queue.length then stall s
  else
    let (id, s) := s.newId
    let k := s.actor.core
    let owner := s.me.handle
    onEngine k (fun e => { e with queue := e.queue ++ [⟨id, owner, op e⟩] }) (retire 4 4 (popReads pops s))

/-! ### Holds (R268) -/

/-- The values that a holding instruction will pop are reserved at the head of their channel, as soon as all are present (R268): its
wait for them is over. -/
def reserve (pops : List Nat) (s : State) : State :=
  let c := s.me
  if popsOf c pops = 0 then s
  else
    let core := s.here
    (s.setHere (core.setChan c.bindU { core.chan c.bindU with reserved := some s.actor.thread })).onMe fun c =>
      { c with wait := none }

/-- The reservation of the acting thread ends, and the channel's other waiters re-test (R268, R310). -/
def unreserve (pops : List Nat) (s : State) : State :=
  let c := s.me
  if popsOf c pops = 0 then s
  else
    let core := s.here
    wakeWhere s.actor.core (fun x => x.wait.any fun w => w.key == popKey c.bindU)
      (s.setHere (core.setChan c.bindU { core.chan c.bindU with reserved := none }))

/-- The hold ends without a trap: the reserved values are popped, the queue entry is `rest`, nothing or the work left to
the engine. `occ` is the hold's time without its waits (R285). -/
def endHold (id occ : Nat) (pops : List Nat) (rest : Option EngineOp) (s : State) : State :=
  let k := s.actor.core
  let s := popReads pops (unreserve pops s)
  let s := retire 4 occ s
  onEngine k (fun e => match rest with
    | none => e.dequeue id
    | some op => { e with queue := e.queue.map fun x => if x.id = id then { x with op := op } else x }) s

/-- The hold ends with a trap: nothing is popped, and the instruction's footprint is gone. -/
def failHold (id : Nat) (pops : List Nat) (raise : State → State) (s : State) : State :=
  let k := s.actor.core
  let s := finishFootprint k id true true (unreserve pops s)
  raise (onEngine k (·.dequeue id) s)

/-- An instruction that holds its context from issue to the end of its check phase: its channel values reserved, it waits for its
footprint and a place in the queue, then for the head of the queue and for the rows sent toward its own (R267, R268, R284). `act` is
its check phase, given its entry. -/
def engineHold (reads writes : List Bytes) (pops : List Nat) (planes : List Nat) (lo n : Nat)
    (act : Nat → State → State) (s : State) : State :=
  let core := s.here
  let t := s.actor.thread
  let attempt (id : Nat) (s : State) : State :=
    let core := s.here
    if core.frozen || (core.eng.queue.head?.map (·.id)) != some id || core.eng.rowsToward planes lo n then stall s
    else act id s
  match core.eng.queue.find? fun e => decide (e.op = .hold t) with
  | some e => attempt e.id s
  | none =>
    if decide (8 ≤ core.eng.queue.length) || (!(reads.isEmpty && writes.isEmpty) && engineWaits core reads writes) then
      stall (reserve pops s)
    else
      let (id, s) := s.newId
      let owner := s.me.handle
      let s := if reads.isEmpty && writes.isEmpty then s
        else enterFootprint s.actor.core id owner reads writes true s
      let s := (reserve pops s).onMe fun c => { c with wait := none }
      attempt id (s.setHere { s.here with eng := { s.here.eng with queue := s.here.eng.queue ++ [⟨id, owner, .hold t⟩] } })

/-! ### Planes and accumulator rows -/

/-- A weight plane of the engine. -/
def Engine.plane (e : Engine) (i : Nat) : WPlane := e.planes.getD i WPlane.empty
/-- The engine with a weight plane replaced. -/
def Engine.setPlane (e : Engine) (i : Nat) (p : WPlane) : Engine := { e with planes := e.planes.set i p }
/-- The word at row `r`, column `c` of an accumulator plane. -/
def Engine.word (e : Engine) (p r c : Nat) : Nat := (Map.get 0 e.acc (1024 * p + 32 * r + c)).toNat
/-- The engine with that word replaced. -/
def Engine.setWord (e : Engine) (p r c x : Nat) : Engine :=
  { e with acc := Map.set 0 e.acc (1024 * p + 32 * r + c) (BitVec.ofNat 32 x) }
/-- The FP64 element at row `r`, column `c` of the pair that starts at an even plane (R263). -/
def Engine.pairElem (e : Engine) (p r c : Nat) : Nat := e.word p r c + 2 ^ 32 * e.word (p + 1) r c
/-- The engine with that element replaced. -/
def Engine.setPairElem (e : Engine) (p r c x : Nat) : Engine := (e.setWord p r c x).setWord (p + 1) r c (x / 2 ^ 32)
/-- The engine with the poison bits of rows set or cleared. -/
def Engine.setPoison (e : Engine) (planes rows : List Nat) (on : Bool) : Engine :=
  let ks := planes.flatMap fun p => rows.map fun r => 32 * p + r
  let rest := e.poison.filter fun x => !ks.contains x
  { e with poison := if on then rest ++ ks else rest }
/-- Whether a row is poisoned. -/
def Engine.isPoisoned (e : Engine) (p r : Nat) : Bool := e.poison.contains (32 * p + r)

/-- The planes of a transfer or stream: one, or the even-odd pair. -/
def planesOf (d : Nat) (pair : Bool) : List Nat := if pair then [d, d + 1] else [d]

/-! ### MLDW and MSWAP (R274, R275) -/

/-- MLDW (R274): checked, and accepted by the weight loader. -/
def execMldw (a q : Nat) (s : State) : Result :=
  .next (coreOnly (withOperands [a] [] fun x s =>
    let w := s.me.re q
    let base := (x.getD 0 0).toNat
    checkDesc (streamKind w) w (fun s =>
      if base % 64 ≠ 0 then lsMisaligned base s
      else if lsLimit s.actor.core < base + imageSize w then trapE .footprintWrap (word base) s
      else
        let core := s.here
        let reads := [run base (imageSize w)]
        if decide (2 ≤ core.eng.loads.length) || engineWaits core reads [] then stall s
        else
          let (id, s) := s.newId
          let owner := s.me.handle
          let k := s.actor.core
          let s := enterFootprint k id owner reads [] true s
          let swaps (e : Engine) : List Nat := (e.queue.filter fun x => match x.op with
            | .swap _ => true
            | _ => false).map (·.id)
          onEngine k (fun e => { e with loads := e.loads ++ [.weights id owner base w (swaps e)] })
            (retire 4 4 (popReads [a] s))) s) s)

/-- MSWAP (R275): accepted into the engine queue. -/
def execMswap (s : State) : Result :=
  .next (coreOnly (enqueueEngine (fun e => .swap (e.loads.filterMap fun l => match l with
    | .weights id .. => some id
    | .compress .. => none)) []) s)

/-- The index of stored element `j` in a column's index bytes (R272). -/
def indexAt (ix : List Byte) (j : Nat) : Nat := bits (ix.getD (j / 4) 0).toNat (2 * (j % 4)) 2

/-- The first group, by column, whose two indices do not rise (R272). (DEDUCED, log entry 26.) -/
def badGroup (ix : List Byte) (m k : Nat) : Option (Nat × Nat) :=
  (List.range 32).findSome? fun n =>
    let col := (ix.drop (n * m)).take m
    ((List.range (k / 2)).find? fun g => indexAt col (2 * g + 1) ≤ indexAt col (2 * g)).map fun g => (n, g)

/-- WEIGHT_LOAD (R274): once the MSWAPs before it have acted and no row tagged with its target is in the array (R269). -/
def execWeightLoad (s : State) : Result :=
  let k := s.arg 0
  let core := s.core k
  let e := core.eng
  let t := 1 - e.active
  match e.loads with
  | .weights id _ base w swaps :: rest =>
    if core.frozen || (swaps.any fun i => e.queue.any fun x => x.id == i) || (e.rows.any fun r => r.plane == t) then .next s
    else
      let v := valuesSize w
      let m := columnIndex w
      let ix := getBytes core.ls (base + v) (32 * m)
      let state : PlaneState := match core.badWord base (imageSize w) with
        | some b => .damaged b
        | none => match (if m = 0 then none else badGroup ix m (weightDepth w)) with
          | some (n, g) => .badmeta n g
          | none => .loaded
      let plane : WPlane := {
        values := getBytes core.ls base v
        index := ix
        scales := getBytes core.ls (base + v + 32 * m) (32 * columnScales w)
        state := state
        format := weightFormat w
        scaled := weightScaled w
        sparsity := sparsityOf w }
      let s := correctSingles k base (imageSize w) s
      .next (onEngine k (fun e => { e.setPlane t plane with loads := rest }) (finishFootprint k id true false s))
  | _ => .next s

/-- PLANE_SWAP (R275): once every MLDW before it has finished (R269). -/
def execPlaneSwap (s : State) : Result :=
  let k := s.arg 0
  let core := s.core k
  match core.eng.queue with
  | ⟨_, _, .swap loads⟩ :: rest =>
    let pending := loads.any fun i => core.eng.loads.any fun l => match l with
      | .weights id .. => id == i
      | .compress .. => false
    if core.frozen || pending then .next s
    else .next (onEngine k (fun e => { e with active := 1 - e.active, queue := rest }) s)
  | _ => .next s

/-! ### Streaming (R276 to R279) -/

/-- XVAL of MATRIX_OPERAND_UE (R279): plane, row, kind, address. -/
def ueWord (d row kind addr : Nat) : Word := word (d + 2 ^ 3 * row + 2 ^ 8 * kind + 2 ^ 32 * addr)

/-- Rows `i` up, `n` of them, read with their scales: those before the first uncorrectable word, and that row and word. -/
def readRows (core : Core) (w : Word) (ab sbase : Nat) : Nat → Nat → List (Nat × List Byte × List Byte) × Option (Nat × Nat)
  | _, 0 => ([], none)
  | i, n + 1 =>
    let x := ab + i * rowPitch w
    let y := sbase + i * rowScales w
    match (core.badWord x (rowBytes w)).or (core.badWord y (rowScales w)) with
    | some b => ([], some (i, b))
    | none =>
      let (rows, bad) := readRows core w ab sbase (i + 1) n
      ((i, getBytes core.ls x (rowBytes w), getBytes core.ls y (rowScales w)) :: rows, bad)

/-- Cycles of the array's entry per row: 16 for D64, 2 for C4 weights against C8 rows, else 1 (R265). -/
def rowCycles (w : Word) (double : Bool) : Nat :=
  if double then 16
  else if decide (classOf (weightFormat w) = some .c4) && decide (classOf (actFormat w) = some .c8) then 2
  else 1

/-- The check phase of a stream at the head of the queue (R276). -/
def streamPhase (id d : Nat) (double : Bool) (half : Nat) (w : Word) (ab sbase start : Nat) (pops : List Nat)
    (s : State) : State :=
  let k := s.actor.core
  let core := s.here
  let active := core.eng.active
  let p := core.eng.plane active
  let fail := failHold id pops
  if p.state = .empty then fail (trapOpen .planeEmpty) s
  else if p.format ≠ weightFormat w ∨ p.scaled ≠ weightScaled w ∨ p.sparsity ≠ sparsityOf w then
    fail (trapOpen .matrixFormatMismatch) s
  else match p.state with
    | .damaged b => fail (trapA .matrixOperandUe (ueWord d start 1 b)) s
    | .badmeta n g => fail (trapE .sparseMetadata (word (n + 2 ^ 5 * g))) s
    | _ =>
      let n := descRows w - start
      let (rows, bad) := readRows core w ab sbase start n
      let enter (e : Engine) : Engine := { e with rows := e.rows ++ rows.map fun r =>
        { d := d, row := r.1, half := half, double := double, desc := w, plane := active, acts := r.2.1, scales := r.2.2 } }
      let s := rows.foldl (fun s r => correctSingles k (sbase + r.1 * rowScales w) (rowScales w)
        (correctSingles k (ab + r.1 * rowPitch w) (rowBytes w) s)) s
      match bad with
      | none => endHold id (4 + n * rowCycles w double) pops none (finishFootprint k id true false (onEngine k enter s))
      | some (i, b) =>
        let lost := (List.range (descRows w - i)).map (i + ·)
        fail (trapA .matrixOperandUe (ueWord d i 0 b))
          (onEngine k (fun e => (enter e).setPoison (planesOf d double) lost true) s)

/-- The bits of a control word that R271 reserves. -/
def streamReserved (kind : Nat) (ctl : Word) : Bool :=
  bits ctl.toNat 18 6 != 0 || bits ctl.toNat 30 34 != 0 || (kind != 2 && ctl.getLsbD 29)

/-- MSTREAM, MSTREAMS and MSTREAMD (R276). -/
def stream (kind d a b q : Nat) (s : State) : State :=
  coreOnly (withOperands [a, b] [] fun x s =>
    let w := s.me.re q
    let ab := (x.getD 0 0).toNat
    let ctl := x.getD 1 0
    let sbase := bits ctl.toNat 0 18
    let start := bits ctl.toNat 24 5
    let lim := lsLimit s.actor.core
    checkDesc kind w (checkRegs (kind != 2 || isEven d) fun s =>
      let rows := descRows w
      if streamReserved kind ctl then trapE .matrixShape ctl s
      else if rows ≤ start then trapE .accRange ctl s
      else if ab % 16 ≠ 0 then lsMisaligned ab s
      else if lim < ab + (rows - 1) * rowPitch w + rowBytes w then trapE .footprintWrap (word ab) s
      else if rowScales w ≠ 0 ∧ lim < sbase + rows * rowScales w then trapE .footprintWrap (word sbase) s
      else
        let n := rows - start
        let elems : Bytes := ⟨ab + start * rowPitch w, rowBytes w, rowPitch w, n⟩
        let scales := if rowScales w = 0 then [] else [run (sbase + start * rowScales w) (n * rowScales w)]
        engineHold (elems :: scales) [] [a, b] (planesOf d (kind == 2)) start n
          (fun id => streamPhase id d (kind == 2) (bits ctl.toNat 29 1) w ab sbase start [a, b]) s) s) s

/-- MSTREAM (R276). -/
def execMstream (d a b q : Nat) (s : State) : Result := .next (stream 0 d a b q s)
/-- MSTREAMS (R276). -/
def execMstreams (d a b q : Nat) (s : State) : Result := .next (stream 1 d a b q s)
/-- MSTREAMD (R278). -/
def execMstreamd (d a b q : Nat) (s : State) : Result := .next (stream 2 d a b q s)

/-- An E8M0 scale (R85). -/
def scaleNum (c : Nat) : Num := if c = 0xFF then .nan false else .fin false 1 ((c : Int) - 127) false

/-- Element `j` of a packed run of elements of type `t` (R65, R272). -/
def packedElem (t run j : Nat) : Num := decodeFloat t (bits run (j * typeBits t) (typeBits t))

/-- `t / 2^q` toward zero, for a finite value. -/
def truncTo (q : Int) : Num → Int
  | .fin neg m e _ =>
    let x : Int := if q ≤ e then m * 2 ^ (e - q).toNat else m / 2 ^ (q - e).toNat
    if neg then -x else x
  | _ => 0

/-- floor(log2 |t|) of a finite nonzero value. -/
def log2Num : Num → Option Int
  | .fin _ m e _ => some ((m.log2 : Int) + e)
  | _ => none

/-- The sum of R277 with its one rounding, over the prior value and the products. -/
def exactSum (ts : List Num) : Nat :=
  let pos := ts.contains (.inf false)
  let neg := ts.contains (.inf true)
  if ts.any isNan || (pos && neg) then canonicalNan 9
  else if pos || neg then roundRne 9 (.inf neg)
  else match (ts.filterMap log2Num).foldl (fun m x => match m with
      | none => some x
      | some y => some (max x y)) none with
    | none => signBit 9 (ts.all fun t => decide (t = .zero true))
    | some e =>
      let q := e - 48
      let sum := ts.foldl (fun acc t => acc + truncTo q t) 0
      if sum = 0 then 0 else roundRne 9 (.fin (decide (sum < 0)) sum.natAbs q false)

/-- The products of column `n` (R277): activations already scaled, weights of the plane with their scales. -/
def columnTerms (w : Word) (p : WPlane) (acts : List Num) (n : Nat) : List Num :=
  let t := (elemType (weightFormat w)).getD 9
  let size := recordSize (weightFormat w)
  let rec_ := natOfBytes ((p.values.drop (n * size)).take size)
  let m := columnIndex w
  let ix := (p.index.drop (n * m)).take m
  (List.range (weightDepth w)).map fun j =>
    let k := if sparsityOf w = 1 then 4 * (j / 2) + indexAt ix j else j
    let weight := packedElem t rec_ j
    let weight := if weightScaled w then mulNum weight (scaleNum (p.scales.getD (n * columnScales w + j / 32) 0).toNat)
      else weight
    mulNum (acts.getD k (.zero false)) weight

/-- The activations of a row, scaled (R273, R277). -/
def rowActs (w : Word) (acts scales : List Byte) : List Num :=
  let t := (elemType (actFormat w)).getD 9
  let row := natOfBytes acts
  (List.range (rowLength w)).map fun k =>
    let x := packedElem t row k
    if actScaled w then mulNum x (scaleNum (scales.getD (k / 32) 0).toNat) else x

/-- The FP64 fused multiply-adds of R278. -/
def fmaChain (acts weights : Nat) : Nat → Nat → Nat → Nat
  | 0, _, acc => acc
  | n + 1, k, acc =>
    fmaChain acts weights n (k + 1)
      (roundRne 8 (fmaNum .rne (packedElem 8 acts k) (packedElem 8 weights k) (decodeFloat 8 acc)))

/-- A row's sums written into its accumulator row (R277, R278). -/
def writeRow (r : StreamRow) (e : Engine) : Engine :=
  let p := e.plane r.plane
  let w := r.desc
  let e := if r.double then
      let acts := natOfBytes r.acts
      (List.range 16).foldl (fun e n =>
        let weights := natOfBytes ((p.values.drop (n * 128)).take 128)
        let c := 16 * r.half + n
        e.setPairElem r.d r.row c (fmaChain acts weights 16 0 (e.pairElem r.d r.row c))) e
    else
      let acts := rowActs w r.acts r.scales
      (List.range 32).foldl (fun e n =>
        e.setWord r.d r.row n (exactSum (decodeFloat 9 (e.word r.d r.row n) :: columnTerms w p acts n))) e
  e.setPoison (planesOf r.d r.double) [r.row] false

/-- STREAM_ROW_WRITE (R277): the oldest row in the array. -/
def execStreamRowWrite (s : State) : Result :=
  let k := s.arg 0
  let core := s.core k
  match core.eng.rows with
  | r :: rest => if core.frozen then .next s else .next (onEngine k (fun e => { writeRow r e with rows := rest }) s)
  | [] => .next s

/-! ### Matrix-class writes into the local store (R183) -/

/-- Bytes written word by word: a word with an uncorrectable error stays as it is, and the kernel receives a record. -/
def engineWrite (k owner x : Nat) (bs : List Byte) (s : State) : State :=
  (wordParts x bs).foldl (fun s e =>
    match (s.core k).badWord e.1 e.2.length with
    | some b => sendRecord (s.kernelOf k)
        (plainRecord (causeCode .access .lsUncorrectable) (s.recordPart k) 6 owner (word b) (dieOf k)) s
    | none => (correctSingles k e.1 e.2.length s).onCore k fun c => c.lsPut e.1 e.2) s

/-! ### MCOMP (R280) -/

/-- The two elements of a group that MCOMP keeps: their positions, the lower first (R280). -/
def keptOf (t : Nat) (xs : List Nat) : Nat × Nat :=
  let val (i : Nat) : Num := absNum (decodeFloat t (xs.getD i 0))
  let above (i j : Nat) : Bool := if isNan (val i) then !isNan (val j) else !isNan (val j) && numLt (val j) (val i)
  let best (skip : Nat) : Nat := (List.range 4).foldl (fun b i =>
    if i = skip then b else if b = 4 then i else if above i b then i else b) 4
  let x := best 4
  let y := best x
  (min x y, max x y)

/-- The compressed values and index of a dense column with `n` elements of type `t` (R272, R280). -/
def compressColumn (t n col : Nat) : Nat × Nat :=
  let b := typeBits t
  (List.range (n / 4)).foldl (fun (r : Nat × Nat) g =>
    let xs := (List.range 4).map fun i => bits col ((4 * g + i) * b) b
    let (i, j) := keptOf t xs
    (r.1 + (xs.getD i 0 + xs.getD j 0 * 2 ^ b) * 2 ^ (2 * g * b), r.2 + (i + 4 * j) * 2 ^ (4 * g))) (0, 0)

/-- The compressed image of a dense one (R280). -/
def compressImage (w : Word) (src : List Byte) : List Byte :=
  let t := (elemType (weightFormat w)).getD 9
  let size := recordSize (weightFormat w)
  let cols := (List.range 32).map fun n =>
    compressColumn t (rowLength w) (natOfBytes ((src.drop (n * 2 * size)).take (2 * size)))
  cols.flatMap (fun c => bytesOfNat size c.1) ++ cols.flatMap (fun c => bytesOfNat (columnIndex w) c.2)
    ++ (src.drop (64 * size)).take (32 * columnScales w)

/-- An ACCESS cause for which the spec names no value (DESIGN CHOICE, log entry 11). -/
def trapOpenA (r : Reason) (s : State) : State :=
  trapA r (Config.unstatedXval s.fresh) { s with fresh := s.fresh + 1 }

/-- The check phase of MCOMP: its source read at the head of the loader (R280). An uncorrectable word has neither a plane nor a
row: XVAL[7:0] is a free value (R279; DESIGN CHOICE, log entry 57). -/
def compressPhase (id : Nat) (w : Word) (src size : Nat) (pops : List Nat) (s : State) : State :=
  let k := s.actor.core
  let core := s.here
  match core.badWord src size with
  | some b =>
    let s := finishFootprint k id true true (unreserve pops s)
    let s := onEngine k (fun e => { e with loads := e.loads.tail }) s
    trapA .matrixOperandUe (partXval (2 ^ 64 - 2 ^ 8) (ueWord 0 0 3 b) s) { s with fresh := s.fresh + 1 }
  | none =>
    let im := compressImage w (getBytes core.ls src size)
    let s := finishFootprint k id true false (correctSingles k src size s)
    let s := retire 4 (4 + size / 64) (popReads pops (unreserve pops s))
    onEngine k (fun e => { e with loads := e.loads.map fun l => match l with
      | .compress i o x y d _ _ => if i = id then .compress i o x y d (some im) false else l
      | l => l }) s

/-- MCOMP (R280). Its sparsity mode is tested after the other checks of its descriptor, an order that R280 leaves open (DESIGN
CHOICE, log entry 57). -/
def execMcomp (a b q : Nat) (s : State) : Result :=
  .next (coreOnly (withOperands [a, b] [] fun x s =>
    let w := s.me.re q
    let src := (x.getD 0 0).toNat
    let dst := (x.getD 1 0).toNat
    let lim := lsLimit s.actor.core
    checkDesc (streamKind w) w (fun s =>
      let size := 64 * recordSize (weightFormat w) + 32 * columnScales w
      if sparsityOf w ≠ 1 then trapOpen .matrixFormatMismatch s
      else if src % 64 ≠ 0 ∨ dst % 64 ≠ 0 then trapOpenA .lsMisaligned s
      else if lim < src + size ∨ lim < dst + imageSize w then trapOpen .footprintWrap s
      else if (run src size).meets (run dst (imageSize w)) then trapOpen .matrixShape s
      else
        let k := s.actor.core
        let core := s.here
        let mine (l : Load) : Option Nat := match l with
          | .compress id owner _ _ _ _ true => if owner = s.me.handle then some id else none
          | _ => none
        let attempt (id : Nat) (s : State) : State :=
          match s.here.eng.loads.head?.bind mine with
          | some i => if i = id ∧ s.here.frozen = false then compressPhase id w src size [a, b] s else stall s
          | none => stall s
        match core.eng.loads.findSome? mine with
        | some id => attempt id s
        | none =>
          if decide (2 ≤ core.eng.loads.length) || engineWaits core [run src size] [run dst (imageSize w)] then
            stall (reserve [a, b] s)
          else
            let (id, s) := s.newId
            let owner := s.me.handle
            let s := enterFootprint k id owner [run src size] [run dst (imageSize w)] true s
            let s := (reserve [a, b] s).onMe fun c => { c with wait := none }
            attempt id (s.onCore k fun c => { c with eng := { c.eng with
              loads := c.eng.loads ++ [.compress id owner src dst w none true] } })) s) s)

/-- WEIGHT_COMPRESS (R280): the compressed image is written. -/
def execWeightCompress (s : State) : Result :=
  let k := s.arg 0
  let core := s.core k
  match core.eng.loads with
  | .compress id owner _ dst _ (some im) _ :: rest =>
    if core.frozen then .next s
    else .next (onEngine k (fun e => { e with loads := rest })
      (finishFootprint k id false true (engineWrite k owner dst im s)))
  | _ => .next s

/-! ### AZERO and AMOVE (R281) -/

/-- AZERO (R281). -/
def execAzero (d : Nat) (s : State) : Result := .next (coreOnly (enqueueEngine (fun _ => .zero d) []) s)
/-- AMOVE (R281). -/
def execAmove (d a : Nat) (s : State) : Result := .next (coreOnly (enqueueEngine (fun _ => .move d a) []) s)

/-- An accumulator plane set to zero, its poison clear. -/
def Engine.zeroPlane (e : Engine) (d : Nat) : Engine :=
  { e.setPoison [d] (List.range 32) false with acc := e.acc.filter fun x => x.1 / 1024 != d }

/-- An accumulator plane copied with its poison. -/
def Engine.copyPlane (e : Engine) (d a : Nat) : Engine :=
  if d = a then e
  else
    let ws := (e.acc.filter fun x => x.1 / 1024 == a).map fun x => (1024 * d + x.1 % 1024, x.2)
    let ps := (List.range 32).filter (e.isPoisoned a)
    let e := e.zeroPlane d
    ({ e with acc := ws.foldr (fun (x : Nat × W32) m => Map.set 0 m x.1 x.2) e.acc }).setPoison [d] ps true

/-- AZERO_AMOVE_AT_HEAD (R281), once the rows sent toward its planes have been written (R267). -/
def execAzeroAmoveAtHead (s : State) : Result :=
  let k := s.arg 0
  let core := s.core k
  let go (planes : List Nat) (rest : List EngineEntry) (f : Engine → Engine) : State :=
    if core.frozen || core.eng.rowsToward planes 0 32 then s
    else onEngine k (fun e => { f e with queue := rest }) s
  match core.eng.queue with
  | ⟨_, _, .zero d⟩ :: rest => .next (go [d] rest (·.zeroPlane d))
  | ⟨_, _, .move d a⟩ :: rest => .next (go [d, a] rest (·.copyPlane d a))
  | _ => .next s

/-! ### ALDR, ASTR and AOUT (R282, R283) -/

/-- FIRST of a range word (R271). -/
def rangeFirst (w : Word) : Nat := bits w.toNat 0 5
/-- The number of rows of a range word. -/
def rangeRows (w : Word) : Nat := bits w.toNat 5 5 + 1
/-- PAIR of a range word. -/
def rangePair (w : Word) : Bool := w.getLsbD 10

/-- The operand checks that the three transfers share, after the reserved bits (R282). -/
def checkTransfer (d x : Nat) (w : Word) (size : Nat) (go : State → State) (s : State) : State :=
  checkRegs (!rangePair w || isEven d) (fun s =>
    if 32 < rangeFirst w + rangeRows w then trapE .accRange w s
    else if x % 16 ≠ 0 then lsMisaligned x s
    else if lsLimit s.actor.core < x + rangeRows w * size then trapE .footprintWrap (word x) s
    else go s) s

/-- The rows that ALDR reads, from row `j` of the transfer: those before the first uncorrectable word, and it. -/
def loadRows (core : Core) (x size : Nat) : Nat → Nat → List (Nat × List Byte) × Option (Nat × Nat)
  | _, 0 => ([], none)
  | j, n + 1 =>
    match core.badWord (x + j * size) size with
    | some b => ([], some (j, b))
    | none =>
      let (rows, bad) := loadRows core x size (j + 1) n
      ((j, getBytes core.ls (x + j * size) size) :: rows, bad)

/-- A row's bytes written into its accumulator row, or into the pair's row as FP64 (R282). -/
def loadRow (d row : Nat) (pair : Bool) (bs : List Byte) (e : Engine) : Engine :=
  let v := natOfBytes bs
  let e := (List.range 32).foldl (fun e c =>
    if pair then e.setPairElem d row c (bits v (64 * c) 64) else e.setWord d row c (bits v (32 * c) 32)) e
  e.setPoison (planesOf d pair) [row] false

/-- The check phase of ALDR (R282). -/
def loadPhase (id d x : Nat) (w : Word) (pops : List Nat) (s : State) : State :=
  let k := s.actor.core
  let pair := rangePair w
  let size := if pair then 256 else 128
  let (rows, bad) := loadRows s.here x size 0 (rangeRows w)
  let s := rows.foldl (fun s r => correctSingles k (x + r.1 * size) size s) s
  let load (e : Engine) : Engine := rows.foldl (fun e r => loadRow d (rangeFirst w + r.1) pair r.2 e) e
  match bad with
  | none =>
    endHold id (4 + rangeRows w * size / 64) pops none (finishFootprint k id true false (onEngine k load s))
  | some (j, b) =>
    let i := rangeFirst w + j
    let lost := (List.range (rangeRows w - j)).map (i + ·)
    failHold id pops (trapA .matrixOperandUe (ueWord d i 2 b))
      (onEngine k (fun e => (load e).setPoison (planesOf d pair) lost true) s)

/-- ALDR (R282). -/
def execAldr (d a b : Nat) (s : State) : Result :=
  .next (coreOnly (withOperands [a, b] [] fun v s =>
    let x := (v.getD 0 0).toNat
    let w := v.getD 1 0
    let size := if rangePair w then 256 else 128
    if bits w.toNat 11 53 ≠ 0 then trapE .matrixShape w s
    else checkTransfer d x w size (engineHold [run x (rangeRows w * size)] [] [a, b] (planesOf d (rangePair w))
      (rangeFirst w) (rangeRows w) (fun id => loadPhase id d x w [a, b])) s) s)

/-- The lowest poisoned row of a range, in the first of the planes that holds it. -/
def firstPoisoned (e : Engine) (planes : List Nat) (lo n : Nat) : Option Nat :=
  ((List.range n).map (lo + ·)).find? fun r => planes.any fun p => e.isPoisoned p r

/-- The check phase of ASTR and AOUT: a copy of the rows is taken, as the bytes to be written (R282, R283). -/
def storePhase (id d x : Nat) (w : Word) (f : Engine → Nat → List Byte) (pops : List Nat) (s : State) : State :=
  let k := s.actor.core
  let e := s.here.eng
  match firstPoisoned e (planesOf d (rangePair w)) (rangeFirst w) (rangeRows w) with
  | some r => failHold id pops (trapE .accPoisoned (word (d + 2 ^ 3 * r))) s
  | none =>
    let bs := (List.range (rangeRows w)).flatMap fun j => f e (rangeFirst w + j)
    let owner := s.me.handle
    endHold id (4 + rangeRows w) pops none (onEngine k (fun e => { e with outs := e.outs ++ [⟨id, owner, x, bs⟩] }) s)

/-- The bytes of an accumulator row, or of the pair's row (R282). -/
def rowOf (d : Nat) (pair : Bool) (e : Engine) (row : Nat) : List Byte :=
  (List.range 32).flatMap fun c => if pair then bytesOfNat 8 (e.pairElem d row c) else bytesOfNat 4 (e.word d row c)

/-- ASTR (R282). -/
def execAstr (d a b : Nat) (s : State) : Result :=
  .next (coreOnly (withOperands [a, b] [] fun v s =>
    let x := (v.getD 0 0).toNat
    let w := v.getD 1 0
    let size := if rangePair w then 256 else 128
    if bits w.toNat 11 53 ≠ 0 then trapE .matrixShape w s
    else checkTransfer d x w size (engineHold [] [run x (rangeRows w * size)] [a, b] (planesOf d (rangePair w))
      (rangeFirst w) (rangeRows w) (fun id => storePhase id d x w (rowOf d (rangePair w)) [a, b])) s) s)

/-- FORMAT of an output word (R271). -/
def outFormat (w : Word) : Nat := bits w.toNat 16 8

/-- Whether AOUT writes a format (R283). -/
def outAllowed (w : Word) : Bool := [2, 3, 4, 5, 6, 8].contains (outFormat w) || (outFormat w == 1 && rangePair w)

/-- An element scaled by 2^POW, rectified and converted (R283). -/
def outElem (w : Word) (t code : Nat) : Nat :=
  let y := match decodeFloat (if rangePair w then 8 else 9) code with
    | .fin neg m e more => .fin neg m (e + signedNat 6 (bits w.toNat 24 6)) more
    | y => y
  let y := if w.getLsbD 11 then match y with
      | .fin true .. => .zero false
      | .inf true => .zero false
      | .zero _ => .zero false
      | y => y
    else y
  if t = 14 then (toTapered t y).code else if t = 12 ∨ t = 13 then (toNarrow t y).code else roundRne t y

/-- The bytes of a converted row (R283). -/
def outRow (d : Nat) (w : Word) (e : Engine) (row : Nat) : List Byte :=
  let t := (elemType (outFormat w)).getD 9
  (List.range 32).flatMap fun c =>
    bytesOfNat (typeBits t / 8) (outElem w t (if rangePair w then e.pairElem d row c else e.word d row c))

/-- AOUT (R283). (DEDUCED, log entry 26.) -/
def execAout (d a b : Nat) (s : State) : Result :=
  .next (coreOnly (withOperands [a, b] [] fun v s =>
    let x := (v.getD 0 0).toNat
    let w := v.getD 1 0
    let size := 32 * (typeBits ((elemType (outFormat w)).getD 9) / 8)
    if bits w.toNat 12 4 ≠ 0 ∨ bits w.toNat 30 34 ≠ 0 then trapE .matrixShape w s
    else if !isFormat (outFormat w) then trapOpen .formatUnsupported s
    else if !outAllowed w then trapOpen .matrixFormatMismatch s
    else checkTransfer d x w size (engineHold [] [run x (rangeRows w * size)] [a, b] (planesOf d (rangePair w))
      (rangeFirst w) (rangeRows w) (fun id => storePhase id d x w (outRow d w) [a, b])) s) s)

/-- ACCUMULATOR_WRITE_OUT (R282): the rows that the oldest ASTR or AOUT copied are written. -/
def execAccumulatorWriteOut (s : State) : Result :=
  let k := s.arg 0
  let core := s.core k
  match core.eng.outs with
  | o :: rest =>
    if core.frozen then .next s
    else .next (onEngine k (fun e => { e with outs := rest })
      (finishFootprint k o.footprint false true (engineWrite k o.owner o.addr o.bytes s)))
  | [] => .next s

end Sys2Proof.Machine
end

