-- ==== Sys2Proof/Machine/Task.lean ====
section
/-! DEFINITION. Task records, dispatch, speculation and commit (chapter 18): TPOST, TFOOT, TDONE, TSTAT, TWAIT, and the
steps of the task engine and the commit unit. -/

namespace Sys2Proof.Machine

/-! ### Records and regions (R43, R345) -/

/-- Whether a region breaks R43; one with access 0 is ignored. -/
def regionBad (r : Word) : Bool := bits r.toNat 0 2 != 0 && !regionOk r

/-- Whether a counter name is well formed and names a core (R214). -/
def nameOk (s : State) (w : Word) : Bool :=
  let n := w.toNat
  decide (n < 2 ^ 33) && !(bits n 32 1 == 1 && bits n 16 2 != 0) && (nameDevice n != s.plat.devid || (nameCore n).isSome)

/-- Whether the eight words of a record obey R345. -/
def recordOk (s : State) (r : List Word) : Bool :=
  let pc := (r.getD 0 0).toNat
  let ctl := (r.getD 6 0).toNat
  let note := r.getD 7 0
  decide (pc < 2 ^ 57) && pc % 2 == 0
    && decide (bits ctl 0 4 ≤ 9) && bits ctl 6 2 == 0 && bits ctl 14 2 == 0 && bits ctl 24 8 == 0
    && if bits ctl 5 1 = 1 then nameOk s note else note == 0

/-- The timestamp of a record. -/
def recordTs (r : List Word) : Nat := (r.getD 5 0).toNat

/-- Whether two regions conflict: a granule of both, which at least one of them writes (R353). -/
def regionsConflict (a b : Word) : Bool := regionsMeet a b && (2 ≤ bits a.toNat 0 2 || 2 ≤ bits b.toNat 0 2)

/-- Whether two footprints conflict (R353). -/
def conflicts (t u : Task) : Bool := t.regions.any fun a => u.regions.any (regionsConflict a)

/-- The partition's floor (R346). -/
def floorOf (s : State) (part : Nat) : Nat :=
  match (oldestTask s.hub.tasks part).bind (Tbl.get? s.hub.tasks ·) with
  | some t => t.ts
  | none => (s.part part).floor

/-- The lowest free record entry (R365). -/
def freeRecord (h : Hub) : Option Nat := Tbl.freeFrom ((allTasks h).foldl (fun m t => Tbl.put m t.1 t.2) []) 8192 0

/-- A record posted into a partition: a ticket, its edges, and the dispatch that is due (R346, R353). -/
def postTask (e part : Nat) (r regions : List Word) (poster : Option Nat) (s : State) : Nat × State :=
  let h := s.hub
  let ctl := (r.getD 6 0).toNat
  let n := Map.get 0 h.taskGens e
  let limit := bits ctl 16 8
  let t : Task := {
    gen := n % 2 ^ 15
    part := part
    entry := r.getD 0 0
    args := (r.drop 1).take 4
    ts := recordTs r
    posted := h.posts
    prio := bits ctl 0 4
    early := bits ctl 4 1 == 1
    note := if bits ctl 5 1 = 1 then some (r.getD 7 0) else none
    crew := bits ctl 8 6
    limit := if limit = 0 then 16 else limit
    user := bits ctl 32 32
    regions := regions.filter fun x => bits x.toNat 0 2 != 0
    edges := []
    state := .waiting
    withEdge := false
    aborts := 0
    poster := poster
    actor := none
    readSet := []
    puts := [] }
  let edges := (h.tasks.filter fun u => u.2.part == part && isEarlier u.2 t && conflicts t u.2).map (·.1)
  let s := s.onHub fun h => { h with
    tasks := Tbl.put h.tasks e { t with edges := edges }
    taskGens := Map.set 0 h.taskGens e (n + 1)
    posts := h.posts + 1 }
  (ticketOf e t.gen, s.post 0 .taskDispatch [part])

/-! ### TFOOT and TPOST (R348, R349) -/

/-- TFOOT (R348). -/
def execTfoot (a n q : Nat) (s : State) : Result :=
  .next (checkRegs (q == 0 || q == 4) (withOperands [a] [] fun v s =>
    let x := (v.getD 0 0).toNat
    if 4 < n then trapE .immediateRange (word n) s
    else
      let rs := (List.range n).map fun j => s.me.re (q + j)
      checkLs x 32 32 (lsMisaligned x) (fun s => match rs.find? regionBad with
        | some r => trapE .taskFootprintInvalid r s
        | none => checkWatch [(x, 32)] false true (awaitPrints [] [run x 32] (checkEcc x 32 fun s =>
            let s := correctSingles s.actor.core x 32 s
            let block := (List.range 4).flatMap fun j => bytesOfNat 8 (rs.getD j 0).toNat
            retire 4 4 (popReads [a] (s.setHere (s.here.lsPut x block))))) s) s) s)

/-- The words of a run of local store. -/
def lsWords (c : Core) (x n : Nat) : List Word := (List.range n).map fun i => word (c.lsRead (x + 8 * i) 8)

/-- TPOST once the record has been read: its checks, then the post and the park (R349). -/
def postRecord (d a q x : Nat) (r f : List Word) (s : State) : State :=
  let tooEarly := match s.taskOf s.actor with
    | some (_, t) => decide (recordTs r ≤ t.ts)
    | none => false
  if !recordOk s r then trapE .taskRecordInvalid (word x) s
  else match f.find? regionBad with
    | some w => trapE .taskFootprintInvalid w s
    | none =>
      if tooEarly then trapE .taskRecordInvalid (word x) s
      else
        let part := s.spaceOf s.actor.core
        let s := spendOut d (parkAfter 4 4 9 0 (popReads [a] s))
        s.send .control s.actor.core umpireKey s.me.handle (.post s.actor d q r f part) .taskPostAtHub

/-- TPOST (R349). -/
def execTpost (d a q : Nat) (s : State) : Result :=
  .next (checkRegs (isPq q) (withOperands [a] [d] fun v s =>
    let x := (v.getD 0 0).toNat
    checkLs x 96 64 (lsMisaligned x) (checkWatch [(x, 96)] true false (awaitPrints [run x 96] [] (checkEcc x 96 fun s =>
      let s := correctSingles s.actor.core x 96 s
      postRecord d a q x (lsWords s.here x 8) (lsWords s.here (x + 64) 4) s))) s) s)

/-- TASK_POST_AT_HUB (R349): full, at or below the floor, or posted. A post of an execution that has been discarded
meanwhile is discarded with it (R362). -/
def execTaskPostAtHub (s : State) : Result :=
  .next (onFlight .taskPostAtHub (fun f s => match f.payload with
    | .post a d q r fp part =>
      let c := s.ctx a
      let discarded := match c.status with
        | .draining .abort _ | .draining .discard _ => true
        | _ => false
      some (if discarded then answer a d q 1 false s
      else match freeRecord s.hub with
        | none => answer a d q 1 false s
        | some e =>
          if recordTs r ≤ floorOf s part then answer a d q 2 false s
          else
            let (t, s) := postTask e part r fp c.ticket s
            answer a d q (word t) true s)
    | _ => none) s)

/-! ### TDONE, TSTAT and TWAIT (R350 to R352) -/

/-- TDONE (R350). -/
def execTdone (s : State) : Result :=
  .next (if s.me.ticket.isNone then trapE .taskRecordInvalid 0 s else beginDrain s.actor .tdone 0 (retire 4 4 s))

/-- The state of a task as TSTAT shows it (R351). -/
def tstatWord (s : State) (part : Nat) (ticket : Option Nat) : Nat :=
  let inflight := 2 ^ 32 * (s.hub.tasks.countP fun t => t.2.part == part)
  match ticket with
  | none => inflight
  | some tk => match Tbl.get? s.hub.tasks (ticketEntry tk) with
    | some t =>
      if t.part = part ∧ ticketOf (ticketEntry tk) t.gen = tk then
        inflight + (match t.state with
          | .waiting => 1
          | .dispatched => 2
          | .finished => 3)
          + (if oldestTask s.hub.tasks part = some (ticketEntry tk) then 0 else 4)
          + (if t.withEdge then 8 else 0) + 2 ^ 8 * min t.aborts 255
      else inflight
    | none => inflight

/-- TSTAT (R351). -/
def execTstat (d a : Nat) (s : State) : Result :=
  .next (withOperands [a] [d] (fun v s =>
    let x := v.getD 0 0
    let n := x.toNat
    if n ≠ 0 ∧ (2 ^ 32 ≤ n ∨ bits n 28 4 ≠ 8) then trapE .taskRecordInvalid x s
    else
      let r := tstatWord s (s.spaceOf s.actor.core) (if n = 0 then s.me.ticket else some n)
      let s := spendOut d (parkAfter 4 4 9 0 (popReads [a] s))
      s.send .control umpireKey s.actor.core 0 (.plain s.actor d (word r)) .hubAnswer) s)

/-- Whether a timeline word has reached a value: the difference, as a signed number, is not negative (R340). -/
def timelineReached (word_ value : Word) : Bool := !(word_ - value).msb

/-- TWAIT (R352): it is re-tested at every timeline update, with the PC at the instruction. A fault of the Umpire does not stall
(R444). -/
def execTwait (a b : Nat) (s : State) : Result :=
  .next (withOperands [a, b] [] (fun v s =>
    let x := (v.getD 0 0).toNat
    let k := s.actor.core
    let space := s.spaceOf k
    if 2 ^ 57 ≤ x ∨ x % 8 ≠ 0 then trapE .timelineFault (v.getD 0 0) s
    else if awaitsMemory s (clusterOf k) space x 8 then stall s
    else match readVirtual (clusterOf k) space 8 x s with
      | (_, some (r, _), s) =>
        if isStalling r && space != 80 then stallFault (.twait k s.actor.thread) space x 4 r (parkOn 9 0 twaitKey s)
        else trapA .timelineFault (v.getD 0 0) s
      | (bs, none, s) =>
        if timelineReached (word (natOfBytes bs)) (v.getD 1 0) then retire 4 4 (popReads [a, b] s)
        else parkOn 9 0 twaitKey s) s)

/-! ### Dispatch (R354, R355, R363) -/

/-- Whether a launch with TASKS = 1 has loaded a core, which then takes tasks until the launch completes (R338, R354); no
task starts there before the launch's gate has opened (R16). -/
def takesTasks (h : Hub) (k : Nat) (c : Core) : Bool :=
  c.launch.any fun l => l.tasks && (Tbl.get? h.launches l.id).any fun x =>
    x.loaded.contains k && (x.lifted || !(x.coresident || x.gate))

/-- The cores to which a partition's tasks go: those of its launches with TASKS = 1. -/
def taskCores (s : State) (part : Nat) : List (Nat × Core) :=
  s.cores.filter fun c => s.partOf c.1 == some part && takesTasks s.hub c.1 c.2 && !c.2.stopped && !c.2.retired

/-- The core of the fewest resident threads among those with a free thread number; ties go to the lowest key. -/
def bestTaskCore (s : State) (part : Nat) : Option (Nat × Core) :=
  ((taskCores s part).filter fun c => c.2.freeThread.isSome).foldl (fun best c => match best with
    | none => some c
    | some b => if c.2.threads.length < b.2.threads.length then some c else some b) none

/-- Whether a waiting task may be dispatched (R354, R363). -/
def isDispatchable (s : State) (e : Nat) (t : Task) : Bool :=
  decide (t.state = .waiting) && (t.edges.isEmpty || t.early)
    && (decide (t.aborts < t.limit) || oldestTask s.hub.tasks t.part == some e)

/-- The earliest dispatchable task of a partition. -/
def nextTask (s : State) (part : Nat) : Option (Nat × Task) :=
  (s.hub.tasks.filter fun t => t.2.part == part && isDispatchable s t.1 t.2).foldl (fun best t => match best with
    | none => some t
    | some b => if isEarlier t.2 b.2 then some t else some b) none

/-- A task becomes a thread of a core's launch (R355). -/
def startTask (e : Nat) (t : Task) (k : Nat) (core : Core) (s : State) : State :=
  match core.freeThread with
  | none => s
  | some n =>
    let l := core.launchOf
    let codeId := ((Tbl.get? s.hub.launches l.id).map (·.codeId)).getD 0
    let ticket := ticketOf e t.gen
    let c := startContext k n l t.entry t.args codeId (min t.prio l.ceil) t.crew 0
    let c := ((c.wg 8 (word ticket)).wg 9 (word t.ts)).wg 10 (word t.user)
    let a : Actor := ⟨k, n⟩
    let s := (buildThread k n { c with ticket := some ticket } s).2
    let s := s.onHub fun h => { h with tasks := Tbl.put h.tasks e { t with
      state := .dispatched
      withEdge := !t.edges.isEmpty
      actor := some a } }
    if t.limit ≤ t.aborts then pendIn a (s.ctx a) ⟨causeCode .async .taskAbortLimit, word t.aborts, 9, 0⟩ s else s

/-- TASK_DISPATCH (R354): the earliest dispatchable task starts, and the next is due; the oldest one without a place asks
for room (R364). -/
def execTaskDispatch (s : State) : Result :=
  let part := s.arg 0
  .next (match nextTask s part with
    | none => s
    | some (e, t) => match bestTaskCore s part with
      | some (k, core) => (startTask e t k core s).post 0 .taskDispatch [part]
      | none => if oldestTask s.hub.tasks part = some e then s.post 0 .roomAbort [part] else s)

/-! ### Commit (R360, R361) -/

/-- The held pieces of a task's puts, in issue order: core, entry, pieces. One that has failed meanwhile is held no longer. -/
def heldPieces (s : State) (t : Task) : List (Nat × Nat × List (Nat × List Byte)) :=
  t.puts.filterMap fun p => ((s.entry? p.1 p.2).filter fun e => decide (e.state = .heldPut)).map fun e => (p.1, p.2, e.held)

/-- One held piece performed at its home; the granules that it writes, and the failure that stops it. -/
def performPiece (k part : Nat) (p : Nat × List Byte) (s : State) : List Nat × Option (Reason × Nat) × State :=
  let g := clusterOf k
  let n := if p.2.isEmpty then 0 else (p.1 + p.2.length - 1) / 64 - p.1 / 64 + 1
  let spots := (List.range n).map fun i => max p.1 (64 * (p.1 / 64 + i))
  let (grains, s) := spots.foldl (fun (gs, s) va => match translateNow s g part va 2 with
    | (.ok (pa, e), s) => (granuleOf s e pa :: gs, s)
    | (.error _, s) => (gs, s)) (([] : List Nat), s)
  let (f, s) := writeVirtual g part p.1 (p.1 + p.2.length) p.2 p.1 s
  (grains, f, s)

/-- The pieces of an entry performed in order, up to a failure. -/
def performPieces (k part : Nat) : List (Nat × List Byte) → State → List Nat × Option (Reason × Nat) × State
  | [], s => ([], none, s)
  | p :: ps, s => match performPiece k part p s with
    | (gs, some f, s) => (gs, some f, s)
    | (gs, none, s) =>
      let (hs, f, s) := performPieces k part ps s
      (gs ++ hs, f, s)

/-- The held puts of a task performed and their entries completed, in issue order; the granules written (R360).
(DEDUCED, log entry 29.) -/
def performHeld (part : Nat) : List (Nat × Nat × List (Nat × List Byte)) → State → List Nat × State
  | [], s => ([], s)
  | (k, id, ps) :: rest, s =>
    let (gs, f, s) := performPieces k part ps s
    let s := match f with
      | some (r, va) => failEntry k id r (word va) s
      | none => completeEntry k id s
    let (hs, s) := performHeld part rest s
    (gs ++ hs, s)

/-- The increment of a committed task's NOTIFY counter; a failure goes to the kernel (R360), COUNTER_INDEX and PARTITION_FENCE
with the origin that R371 lists for them. (DEDUCED, log entry 28.) -/
def notifyCounter (part : Nat) (w : Word) (s : State) : State :=
  let n := w.toNat
  let kernel := (s.part part).kernel
  let failed (r : Reason) (s : State) : State :=
    sendRecord kernel (plainRecord (causeCode (if r = .counterIndex ∨ r = .partitionFence then .execute else .remote) r) part 2 0
      w 0) s
  if nameDevice n ≠ s.plat.devid then
    match remoteFailure s (nameDevice n) with
    | some r => failed r s
    | none => if (nameCore n).isNone then failed .remoteDenied s else s
  else match nameCore n with
    | some k =>
      if s.partOf k = some part ∨ (isControl k = true ∧ s.kernelOf k = kernel) then
        s.send .counter umpireKey k noHandle (.increment umpireKey 0 (bits n 0 6) 1) .counterIncrement
      else failed .partitionFence s
    | none => failed .counterIndex s

/-- A finished oldest task committed (R360, R361). -/
def commitTask (e : Nat) (t : Task) (s : State) : State :=
  let (grains, s) := performHeld t.part (heldPieces s t) s
  let hit := (s.hub.tasks.filter fun u => u.2.part == t.part && isEarlier t u.2 && u.2.readSet.any grains.contains).map (·.1)
  let s := hit.foldl (fun s u => abortTask u true s) s
  let s := match t.note with
    | some w => notifyCounter t.part w s
    | none => s
  let s := s.onHub fun h =>
    { h with tasks := (Tbl.del h.tasks e).map fun u => (u.1, u.2.without [e]) }
  let s := wakeOldest (s.setPart t.part { s.part t.part with floor := t.ts })
  let s := ((s.post 0 .taskCommit [t.part]).post 0 .taskDispatch [t.part]).post 0 .umpireQueueSelect []
  s.hub.launches.foldl (fun s l => if l.2.tasks && l.2.part == t.part then s.post 0 .launchComplete [l.1] else s) s

/-- Whether a commit waits for a link slot of its tenant: a held piece, or the counter, is on another agent's device (R414). -/
def commitAwaits (s : State) (t : Task) : Bool :=
  ((heldPieces s t).any fun h => h.2.2.any fun p => awaitsMemory s (clusterOf h.1) t.part p.1 p.2.length)
    || (!s.linkAllowed t.part && t.note.any fun w => nameDevice w.toNat != s.plat.devid)

/-- Whether a fault of a held put is being served: a walk, or a key of a merger, has it among its waiters (R230). -/
def isServed (s : State) (w : Waiter) : Bool :=
  (s.walks.any fun x => decide (x.2.waiter = w))
    || s.dies.any fun d => (d.2.keys.any fun f => f.waiters.any fun x => decide (x.1 = w)) || d.2.overflow.any fun x => decide (x.waiter = w)

/-- The first stalling failure of the translations that a commit needs: core, entry, reason and address (R226, R360). -/
def commitFault (part : Nat) : List (Nat × Nat × Nat) → State → Option (Nat × Nat × Reason × Nat) × State
  | [], s => (none, s)
  | (k, id, va) :: rest, s => match translateNow s (clusterOf k) part va 2 with
    | (.error r, s) => if isStalling r then (some (k, id, r, va), s) else commitFault part rest s
    | (.ok _, s) => commitFault part rest s

/-- An address of each page that the held pieces of a task touch, in order. -/
def heldSpots (s : State) (t : Task) : List (Nat × Nat × Nat) :=
  (heldPieces s t).flatMap fun h => h.2.2.flatMap fun p =>
    if p.2.isEmpty then [] else (pageSpots (p.1, p.2.length)).map fun va => (h.1, h.2.1, va)

/-- TASK_COMMIT (R360). A held put whose translation fails in a way that stalls an entry (R226) stalls the commit, which is tried
again when its fault has been replied to (R230). (DEDUCED, log entry 29.) -/
def execTaskCommit (s : State) : Result :=
  let part := s.arg 0
  let s := wakeOldest s
  .next (match oldestTask s.hub.tasks part with
    | some e => match Tbl.get? s.hub.tasks e with
      | some t =>
        if t.state ≠ .finished then s
        else if (heldPieces s t).any fun h => isServed s (.entry h.1 h.2.1) then s
        else if commitAwaits s t then s.post 1 .taskCommit [part]
        else match commitFault part (heldSpots s t) s with
          | (some (k, id, r, va), s) => stallFault (.entry k id) part va 1 r s
          | (none, s) => commitTask e t s
      | none => s
    | none => s.hub.launches.foldl (fun s l =>
        if l.2.tasks && l.2.part == part then s.post 0 .launchComplete [l.1] else s) s)

/-! ### Room for the oldest task (R364) -/

/-- Whether the oldest task waits for a thread number that no task core has, while none is being freed. -/
def wantsThread (s : State) (part e : Nat) (t : Task) : Bool :=
  isDispatchable s e t && (bestTaskCore s part).isNone
    && !((taskCores s part).any fun c => c.2.threads.any fun x => x.2.isDraining)

/-- Whether a put of the oldest task waits for room in the commit buffer. -/
def wantsBuffer (s : State) (t : Task) : Bool :=
  match t.actor with
  | none => false
  | some a => (s.core a.core).queue.any fun q =>
      decide (q.state = .waiting) && q.op.isPut && s.ownerOf q.owner == some a
        && decide (419430 < bufferSize s + granules ((runsOf q).map fun r => (r.1, List.replicate r.2.2 0)))

/-- The latest task among those listed. -/
def latestTask (ts : List (Nat × Task)) : Option Nat :=
  (ts.foldl (fun best t => match best with
    | none => some t
    | some b => if isEarlier b.2 t.2 then some t else some b) none).map (·.1)

/-- ROOM_ABORT (R364): the latest dispatched speculative task that holds the resource is aborted, uncounted.
(DEDUCED, log entry 29.) -/
def execRoomAbort (s : State) : Result :=
  let part := s.arg 0
  .next (match oldestTask s.hub.tasks part with
    | none => s
    | some e => match Tbl.get? s.hub.tasks e with
      | none => s
      | some t =>
        let others := s.hub.tasks.filter fun u => u.2.part == part && u.1 != e
        let holders :=
          if wantsThread s part e t then others.filter fun u => u.2.actor.isSome
          else if wantsBuffer s t then others.filter fun u => !u.2.puts.isEmpty
          else []
        match latestTask holders with
        | some v => abortTask v false s
        | none => s)

end Sys2Proof.Machine
end

