-- ==== Sys2Proof/Machine/Queue.lean ====
section
/-! DEFINITION. Host queues and launches (R120 to R123, R333 to R344): the Umpire's selection, its acts on packets, the
placing, loading, gating and completion of launches, and timelines. -/

namespace Sys2Proof.Machine

/-! ### Queues (R333 to R335) -/

/-- The translation space of a queue's work (R339, R344). -/
def Queue.space (q : Queue) : Nat := if q.control then 64 + q.kernel else q.part

/-- Whether the fields of a QCB obey R333. -/
def qcbOk (log2n prio part flags qid ring timeline : Nat) (rest : List Byte) : Bool :=
  decide (4 ≤ log2n) && decide (log2n ≤ 16) && decide (prio ≤ 9) && (bits flags 1 1 == 1 || decide (part < 64))
    && decide (flags < 4) && qid != 0
    && decide (ring < 2 ^ 57) && ring % 4096 == 0 && decide (timeline < 2 ^ 57) && timeline % 8 == 0
    && rest.all (· == 0)

/-- The queue that a QCB describes, admitted by a master; none where it breaks R333 or R339. The accelerator kernel whose frame
the QCB lies in is that of the queue's partition, or of the control core that admits a control queue.
(DEDUCED, log entry 17.) -/
def readQcb (s : State) (m addr : Nat) : Option Queue :=
  let b := s.physBytes addr 64
  let f (off n : Nat) : Nat := natOfBytes ((b.drop off).take n)
  let flags := f 11 1
  let part := f 10 1
  let control := bits flags 1 1 == 1
  let kernel := if control then s.controlKernel (m - 8) else (s.part part).kernel
  let ok := qcbOk (f 8 1) (f 9 1) part flags (f 12 2) (f 0 8) (f 32 8) (b.drop 54)
    && addr % 64 == 0 && (s.deedCheck kernel (frameOf addr)).isNone && (!control || isControlMaster m)
  if ok then
    some {
      qcb := addr
      qid := f 12 2
      prio := f 9 1
      part := if control then 0 else part
      kernel := kernel
      control := control
      msi := bits flags 0 1 == 1
      ring := word (f 0 8)
      log2n := f 8 1
      timeline := word (f 32 8)
      msiAddr := f 40 8
      msiData := f 48 4
      read := 0
      write := 0
      busy := false
      tested := 0
      stalled := false
      seeds := [] }
  else none

/-- Every queue that holds its QID: admitted, listed or evicted. -/
def heldQueues (h : Hub) : List Queue := h.queues.map (·.2) ++ h.admitList ++ h.evicted

/-- QADMIT (R335): a slot, the list, or an error, to which a misaligned address leads too (R333); a second write for a queue
that is in is ignored. At a stack that accepts no
command it waits (R437; DEDUCED, log entry 34). -/
def execQadmit (s : State) : Result :=
  let addr := s.arg 1
  .next (
    if (heldQueues s.hub).any (fun q => q.qcb == addr) then s
    else
      let taken (q : Queue) : Bool := (heldQueues s.hub).any (fun x => x.qid == q.qid)
        || s.hub.halted.any fun x => x.1 == q.qid && x.2 != addr
      if hitsShut s addr 64 then s.post 1 .qadmit s.args
      else match readQcb s (s.arg 0) addr with
      | none => if inRanges (frameOf (addr + 14)) && inRanges (frameOf (addr + 15)) then qcbPut addr 15 1 1 (qcbPut addr 14 1 3 s) else s
      | some q =>
        if taken q then qcbPut addr 15 1 1 (qcbPut addr 14 1 3 s)
        else match freeQueueSlot s.hub with
          | some slot => seatQueue slot q (s.onHub fun h => { h with halted := h.halted.filter fun x => x.1 != q.qid })
          | none =>
            if 64 ≤ s.hub.admitList.length then s.onHub fun h => { h with qovf := true }
            else s.onHub fun h => { h with
              admitList := h.admitList ++ [q]
              halted := h.halted.filter fun x => x.1 != q.qid })

/-- DOORBELL (R335): the queue re-reads its WRITE field; at a stack that accepts no command it waits (R437; DEDUCED, log
entry 34). -/
def execDoorbell (s : State) : Result :=
  .next (match s.hub.queues.find? fun q => q.2.qid == s.arg 0 with
    | some (slot, q) =>
      if hitsShut s q.qcb 64 then s.post 1 .doorbell s.args else
      let w := s.physRead (q.qcb + 24) 8
      (s.onHub fun h => { h with queues := Tbl.put h.queues slot { q with write := w } }).post 0 .umpireQueueSelect []
    | none => s)

/-! ### Access to a queue's memory (R344) -/

/-- The hub's cluster, whose translation cache the Umpire's work uses. -/
def hubCluster : Nat := 256

/-- A queue changed. -/
def onQueue (slot : Nat) (f : Queue → Queue) (s : State) : State :=
  s.onHub fun h => { h with queues := Tbl.adjust h.queues slot f }

/-- The Umpire is done with a queue for now, and may act on another. -/
def release (slot : Nat) (s : State) : State :=
  (onQueue slot (fun q => { q with busy := false }) s).post 0 .umpireQueueSelect []

/-- The Umpire is done with a queue until something changes for its packet, of this type. -/
def defer (slot type : Nat) (s : State) : State := release slot (onQueue slot (fun q => { q with tested := type }) s)

/-- The queues whose packet of this type was acted on in vain are to be looked at again. -/
def retest (type : Nat) (h : Hub) : Hub :=
  { h with queues := h.queues.map fun (i, q) => (i, { q with tested := if q.tested = type then 0 else q.tested }) }

/-- A failing access of a queue: a stalling fault is served while the queue keeps its slot and is not ready, any other halts it
(R343, R344). (DEDUCED, log entry 18.) -/
def queueFault (slot : Nat) (q : Queue) (r : Reason) (va : Nat) (s : State) : State :=
  if isStalling r then
    stallFault (.queue slot q.qid) q.space va 4 r (release slot (onQueue slot (fun q => { q with stalled := true }) s))
  else haltQueue slot 4 s

/-- Bytes of a queue's memory read, or the state after the fault. -/
def readFor (slot : Nat) (q : Queue) (va n : Nat) (go : List Byte → State → State) (s : State) : State :=
  match readVirtual hubCluster q.space n va s with
  | (_, some (r, at_), s) => queueFault slot q r at_ s
  | (bs, none, s) => go bs s

/-- The address of the packet at READ. -/
def Queue.packetAt (q : Queue) : Nat := q.ring.toNat + q.read % 2 ^ q.log2n * 64

/-- The queue served last among those of its priority (R120). -/
def markServed (slot : Nat) (q : Queue) (s : State) : State :=
  s.onHub fun h => { h with lastServed := Map.set 255 h.lastServed q.prio slot }

/-- READ raised past the packet that has been acted on, in the QCB too (R333, R337). -/
def passPacket (slot : Nat) (s : State) : State :=
  match Tbl.get? s.hub.queues slot with
  | none => s
  | some q =>
    let read := (q.read + 1) % 2 ^ 64
    let s := qcbPut q.qcb 16 8 read s
    release slot (markServed slot q (onQueue slot (fun q => { q with read := read, tested := 0, seeds := [] }) s))

/-- A field of a packet. -/
def field (b : List Byte) (off n : Nat) : Nat := natOfBytes ((b.drop off).take n)

/-- Whether the packet at a queue's head, or its QCB, cannot be reached now: it waits for a link slot of its tenant, or at a stack
that accepts no command (R414, R437; DEDUCED, log entry 34). -/
def awaitsHead (s : State) (q : Queue) : Bool := awaitsMemory s hubCluster q.space q.packetAt 64 || hitsShut s q.qcb 64

/-- Whether a packet waits, as memory that it names lies on another device or in a stack that accepts no command (R414, R437;
DEDUCED, log entry 34). -/
def awaitsSlot (s : State) (q : Queue) (b : List Byte) : Bool :=
  let waits (va n : Nat) : Bool := awaitsMemory s hubCluster q.space va n
  match field b 0 1 with
  | 1 => waits (field b 8 8) 64
  | 2 => waits (field b 8 8) 8
  | 3 => waits q.timeline.toNat 8
  | _ => waits (field b 8 8) (128 * min (field b 16 4) 256)

/-- The packet at a queue's head, acted on by `go` with its bytes; a queue whose packet has come to wait is given up for now. -/
def withPacket (go : Nat → Queue → List Byte → State → State) (s : State) : State :=
  let slot := s.arg 0
  match Tbl.get? s.hub.queues slot with
  | some q =>
    if q.busy ∧ q.read ≠ q.write then
      if awaitsHead s q then release slot s
      else readFor slot q q.packetAt 64 (fun b s => if awaitsSlot s q b then release slot s else go slot q b s) s
    else s
  | none => s

/-! ### Selection (R120, R336, R337) -/

/-- Whether some launch of a queue still has placement commands to send (R120). -/
def isPlacing (h : Hub) (qid : Nat) : Bool :=
  h.launches.any fun l => l.2.qid == qid && (l.2.cores != 0 || !l.2.toSend.isEmpty)

/-- Whether a packet of a type can be acted on now. -/
def isReady (s : State) (q : Queue) (type : Nat) : Bool :=
  if isPlacing s.hub q.qid then false
  else match type with
    | 1 | 2 => q.tested == 0
    | 3 => !(s.hub.launches.any fun l => l.2.qid == q.qid)
    | 4 => q.seeds.isEmpty || (freeRecord s.hub).isSome
    | _ => true

/-- Whether a fault is served for a queue: one of its packet, or of the timeline update of a launch of its (R344). -/
def isStalledQueue (h : Hub) (q : Queue) : Bool := q.stalled || h.launches.any fun l => l.2.qid == q.qid && l.2.stalled

/-- The slots that have a packet and are not held up by a fault, by priority, and in each priority in round-robin order after
the slot that it served last (R120). -/
def queueOrder (h : Hub) : List Nat :=
  let slots (p : Nat) : List Nat := (List.range 256).map fun i => (Map.get 255 h.lastServed p + 1 + i) % 256
  let has (p i : Nat) : Bool := (Tbl.get? h.queues i).any fun q =>
    q.prio == p && q.read != q.write && !q.busy && !isStalledQueue h q
  (List.range 10).reverse.flatMap fun p => (slots p).filter (has p)

/-- The step that acts on a packet of a type. -/
def packetStep (type : Nat) : Instr :=
  match type with
  | 1 => .launch
  | 2 => .wait
  | 3 => .signal
  | _ => .seed

/-- The first ready queue among those listed is served; a bad packet or a fault is dealt with on the way, and a queue that
has to wait is looked at again. -/
def selectAmong : List Nat → State → State
  | [], s => s
  | slot :: rest, s =>
    match Tbl.get? s.hub.queues slot with
    | none => selectAmong rest s
    | some q =>
      if awaitsHead s q then (selectAmong rest s).post 1 .umpireQueueSelect []
      else if 2 ^ q.log2n < (q.write + 2 ^ 64 - q.read) % 2 ^ 64 then haltQueue slot 1 s
      else match readVirtual hubCluster q.space 64 q.packetAt s with
        | (_, some (r, va), s) => queueFault slot q r va s
        | (b, none, s) =>
          let type := field b 0 1
          if type = 0 ∨ 4 < type ∨ field b 0 8 / 2 ^ 9 ≠ 0 ∨ (type ≠ 1 ∧ bits (field b 0 8) 8 1 = 1) then haltQueue slot 1 s
          else if !isReady s q type then selectAmong rest s
          else if awaitsSlot s q b then (selectAmong rest s).post 1 .umpireQueueSelect []
          else (onQueue slot (fun q => { q with busy := true }) s).post 0 (packetStep type) [slot]

/-- UMPIRE_QUEUE_SELECT (R120): the Umpire, which acts on one packet at a time and on none before the device has booted,
takes the next; between two packets it takes up an update of the monitor (R432). -/
def execUmpireQueueSelect (s : State) : Result :=
  .next (if inReset s = true ∨ (s.hub.queues.any fun q => q.2.busy) = true then s
  else
    let s := admitNext (adoptUpdate 256 s)
    selectAmong (queueOrder s.hub) s)

/-! ### Timelines (R342) -/

/-- Threads in TWAIT re-test, and every WAIT is ready to be tested again (R340, R352). -/
def retestWaits (s : State) : State :=
  let waits (c : Ctx) : Bool := c.parkReason == 9 && c.wait.any fun w => w.key == twaitKey
  let again (c : Ctx) : Ctx := if waits c then unpark s.now c else c
  let s : State := { s with cores := s.cores.map fun (k, core) => (k, core.mapCtx fun _ => again) }
  (s.onHub (retest 2)).post 0 .umpireQueueSelect []

/-- A timeline word updated to a value (R342); the failure if its address cannot be accessed. -/
def updateTimeline (space : Nat) (addr v : Word) (msi : Bool) (msiAddr msiData : Nat) (s : State) :
    Option (Reason × Nat) × State :=
  match readVirtual hubCluster space 8 addr.toNat s with
  | (_, some f, s) => (some f, s)
  | (bs, none, s) =>
    let diff := v - word (natOfBytes bs)
    if diff = 0 ∨ diff.msb = true then (none, s)
    else match writeVirtual hubCluster space addr.toNat (addr.toNat + 8) (bytesOfNat 8 v.toNat) addr.toNat s with
      | (some f, s) => (some f, s)
      | (none, s) => (none, retestWaits (if msi then postMsi msiAddr msiData s else s))

/-! ### WAIT, SIGNAL and SEED (R340, R341) -/

/-- WAIT (R340): the word is tested; a fault on it evicts the queue (R344). -/
def execWait (s : State) : Result :=
  .next (withPacket (fun slot q b s =>
    let va := field b 8 8
    if field b 0 1 ≠ 2 then release slot s
    else if (b.drop 24).any (· != 0) ∨ va % 8 ≠ 0 ∨ 2 ^ 57 ≤ va then haltQueue slot 1 s
    else match readVirtual hubCluster q.space 8 va s with
      | (_, some (r, at_), s) =>
        if isStalling r then evictQueue slot (stallFault (.queue evictedSlot q.qid) q.space at_ 4 r s)
        else haltQueue slot 4 s
      | (bs, none, s) =>
        if timelineReached (word (natOfBytes bs)) (word (field b 16 8)) then passPacket slot s
        else defer slot 2 s) s)

/-- SIGNAL (R340): once every earlier launch of the queue has completed, its timeline is updated. -/
def execSignal (s : State) : Result :=
  .next (withPacket (fun slot q b s =>
    if field b 0 1 ≠ 3 ∨ isReady s q 3 = false then release slot s
    else if (b.drop 16).any (· != 0) then haltQueue slot 1 s
    else match updateTimeline q.space q.timeline (word (field b 8 8)) q.msi q.msiAddr q.msiData s with
      | (some (r, va), s) => queueFault slot q r va s
      | (none, s) => passPacket slot s) s)

/-- The words of an entry at byte `off`. -/
def wordsAt (b : List Byte) (off n : Nat) : List Word := (List.range n).map fun i => word (field b (off + 8 * i) 8)

/-- The entries of a seed array: record and footprint block, and whether the reserved bytes are 0. -/
def seedEntries (b : List Byte) (n : Nat) : List (List Word × List Word × Bool) :=
  (List.range n).map fun i => (wordsAt b (128 * i) 8, wordsAt b (128 * i + 64) 4,
    ((b.drop (128 * i + 96)).take 32).all (· == 0))

/-- Whether every entry passes the checks of TPOST with no poster (R341). The floor that later entries meet is the first
entry's timestamp where the partition has no uncommitted task. -/
def seedsOk (s : State) (part : Nat) (es : List (List Word × List Word × Bool)) : Bool :=
  let fine (e : List Word × List Word × Bool) : Bool := recordOk s e.1 && !e.2.1.any regionBad && e.2.2
  let floor := floorOf s part
  let first := recordTs ((es.head?.map (·.1)).getD [])
  let rest := if (oldestTask s.hub.tasks part).isSome then floor else first
  es.all fine && decide (floor < first) && (es.drop 1).all fun e => decide (rest < recordTs e.1)

/-- Entries posted in order while records are free; the queue waits for the rest, and halts if one has fallen to the floor
meanwhile. -/
def postSeeds (slot part : Nat) : List (List Word × List Word) → State → State
  | [], s => passPacket slot s
  | (r, f) :: rest, s =>
    match freeRecord s.hub with
    | none => release slot ((Tbl.get? s.hub.queues slot).elim s fun q =>
        markServed slot q (onQueue slot (fun q => { q with seeds := (r, f) :: rest }) s))
    | some e =>
      if recordTs r ≤ floorOf s part then haltQueue slot 3 s
      else postSeeds slot part rest (postTask e part r f none s).2

/-- SEED (R341). An ADDR that is no 64-byte-aligned address of the array, or a COUNT outside 1 to 256, halts the queue with code 1,
and a control queue's tasks go into its kernel's own space, as a TPOST of its control cores puts them: R341 and R343 say neither
(DESIGN CHOICE, log entry 64). -/
def execSeed (s : State) : Result :=
  .next (withPacket (fun slot q b s =>
    let va := field b 8 8
    let n := field b 16 4
    if field b 0 1 ≠ 4 then release slot s
    else if !q.seeds.isEmpty then postSeeds slot q.space q.seeds s
    else if (b.drop 20).any (· != 0) ∨ va % 64 ≠ 0 ∨ 2 ^ 57 < va + 128 * n ∨ n = 0 ∨ 256 < n then haltQueue slot 1 s
    else readFor slot q va (128 * n) (fun bs s =>
      let es := seedEntries bs n
      if seedsOk s q.space es then postSeeds slot q.space (es.map fun e => (e.1, e.2.1)) s else haltQueue slot 3 s) s) s)

/-! ### LAUNCH (R338, R339, R81) -/

/-- The cores that a queue's launches may use, in ascending order. -/
def queueCores (s : State) (q : Queue) : List Nat :=
  if q.control then ((List.range 8).map hubKey).filter fun k => s.kernelOf k == q.kernel
  else partCores (s.part q.part)

/-- Whether the fields of a kernel descriptor lie in their ranges, for a queue of this kind (R76, R81). An image that runs past the
virtual space is refused too, a case that R81 does not list (DESIGN CHOICE, log entry 54). -/
def descriptorOk (b : List Byte) (control : Bool) : Bool :=
  let flags := field b 6 2
  let lim := if control then 2 ^ 21 else 2 ^ 18
  let threads := field b 36 1
  field b 4 2 != 0 && decide (flags < 8) && field b 8 8 % 2 == 0 && decide (field b 8 8 < 2 ^ 57)
    && decide (field b 16 8 < 2 ^ 57) && decide (field b 16 8 + field b 24 4 ≤ 2 ^ 57)
    && decide (field b 24 4 ≤ field b 28 4) && field b 32 4 % 16 == 0 && decide (1 ≤ threads) && decide (threads ≤ 16)
    && decide (field b 37 1 ≤ field b 38 1) && decide (field b 38 1 ≤ 9) && decide (field b 39 1 ≤ 64)
    && (b.drop 50).all (· == 0)
    && decide (field b 28 4 + threads * field b 32 4 ≤ lim) && (bits flags 2 1 == 1) == control

/-- The incoming tenant that a partition's token mailbox names, none for an empty mailbox (R415). -/
def mailboxTenant (p : Part) : Option Nat := if p.mailbox.isEmpty then none else (p.mailbox[4]?).map (·.toNat)

/-- Whether the token gate of a partition is open (R16, R415). -/
def tokenOpen (p : Part) : Bool := mailboxTenant p == some p.tenant

/-- The lowest crew base with `n` unreserved slots above it, of the 4,096; R68 does not say which run a launch gets (DESIGN
CHOICE, log entry 55). -/
def freeCrews (h : Hub) (n : Nat) : Option Nat :=
  if n = 0 then some 0
  else
    let free (b : Nat) : Bool := decide (b + n ≤ 4096) &&
      h.launches.all fun l => l.2.crews == 0 || decide (b + n ≤ l.2.crewBase) || decide (l.2.crewBase + l.2.crews ≤ b)
    (0 :: h.launches.map fun l => l.2.crewBase + l.2.crews).foldl (fun best b =>
      if free b then some (match best with
        | some x => min x b
        | none => b)
      else best) none

/-- A launch refused (R81, R343). -/
def refuse (slot : Nat) (s : State) : State := haltQueue slot 2 s

/-- A checked launch accepted: its placing is due. -/
def acceptLaunch (slot : Nat) (q : Queue) (b d : List Byte) (base : Nat) (s : State) : State :=
  let id := s.hub.launchCount + 1
  let flags := field d 6 2
  let l : Launch := {
    queue := slot
    qid := q.qid
    part := q.part
    kernel := q.kernel
    control := q.control
    entry := word (field d 8 8)
    codeId := field d 4 2
    lsAddr := word (field d 16 8)
    lsSize := field d 24 4
    lsTotal := field d 28 4
    stack := field d 32 4
    threads := field d 36 1
    prio := field d 37 1
    ceil := field d 38 1
    crewBase := base
    crews := field d 39 1
    mask := word (field d 40 8)
    coresident := bits flags 0 1 == 1
    gate := bits flags 1 1 == 1 && !q.control
    tasks := bits (field b 0 8) 8 1 == 1
    args := wordsAt b 24 4
    done := word (field b 56 8)
    cores := field b 16 4
    toSend := []
    loading := []
    loaded := []
    lifted := false
    broken := false
    stalled := false
    timeline := q.timeline
    msi := q.msi
    msiAddr := q.msiAddr
    msiData := q.msiData }
  let s := s.onHub fun h => { h with launches := Tbl.put h.launches id l, launchCount := id }
  passPacket slot (s.post 0 .launchPlacement [id])

/-- A launch whose descriptor has been read: refused, made to wait for crew slots, or accepted. (DEDUCED, log entry 18.) A
launch of no core, or of more than its partition has, is refused with code 2, an outcome that R338 does not give (DESIGN
CHOICE, log entry 46). -/
def checkLaunch (slot : Nat) (q : Queue) (b d : List Byte) (s : State) : State :=
  let cores := queueCores s q
  let want := field b 16 4
  let gate := bits (field d 6 2) 1 1 == 1 && !q.control
  if !descriptorOk d q.control ∨ want = 0 ∨ cores.length < want ∨ cores.any (fun k => (s.core k).unmapped) then
    refuse slot s
  else if gate && !tokenOpen (s.part q.part) then
    notice q.kernel (causeCode .async .tokenMismatch) q.part 0 0 0 (refuse slot s)
  else match freeCrews s.hub (field d 39 1) with
    | some base => acceptLaunch slot q b d base s
    | none => defer slot 1 s

/-- LAUNCH (R338). A DESC that is no address of 64 bytes of the virtual space halts the queue with code 1, which R343 does not
say (DESIGN CHOICE, log entry 46). -/
def execLaunch (s : State) : Result :=
  .next (withPacket (fun slot q b s =>
    let desc := field b 8 8
    if field b 0 1 ≠ 1 ∨ isReady s q 1 = false then release slot s
    else if field b 20 4 ≠ 0 ∨ 2 ^ 57 < desc + 64 then haltQueue slot 1 s
    else readFor slot q desc 64 (fun d s => checkLaunch slot q b d s) s) s)

/-! ### Placing and loading (R121, R122, R81) -/

/-- Whether a core is idle and takes a new thread (R121, R184, R371); one that only waits for tasks is idle. -/
def isIdle (s : State) (k : Nat) : Bool :=
  let c := s.core k
  !c.isHeld && (c.launch.isNone || takesTasks s.hub k c) && !c.retired && !c.unmapped && !c.stopped && !inReset s
    && (s.partOf k).all fun p => (s.part p).switch.isNone && !(s.part p).barred

/-- The cores that a launch may use. -/
def launchCores (s : State) (l : Launch) : List Nat :=
  if l.control then ((List.range 8).map hubKey).filter fun k => s.kernelOf k == l.kernel
  else partCores (s.part l.part)

/-- What a launch fixes for its cores' threads. -/
def Launch.onCore (id : Nat) (l : Launch) : CoreLaunch where
  id := id
  kernel := l.kernel
  threads := l.threads
  stack := l.stack
  ceil := l.ceil
  coresident := l.coresident
  crewBase := l.crewBase
  crews := l.crews
  tasks := l.tasks

/-- Cores reserved for a launch: as they become idle, or all together for a co-resident launch (R121). Of several idle cores the
lowest come first, in ascending order of their keys, which for control cores R339 says and for compute cores nothing does (DESIGN
CHOICE, log entry 63). A core that the launch takes a second time runs no task until it has been loaded again (R354). -/
def reserveCores (id : Nat) (l : Launch) (s : State) : Launch × State :=
  let idle := (launchCores s l).filter (isIdle s)
  let now := if l.coresident && decide (idle.length < l.cores) then [] else idle.take l.cores
  let s := now.foldl (fun s k => s.onCore k fun c => { c with launch := some (l.onCore id) }) s
  ({ l with
    cores := l.cores - now.length
    toSend := l.toSend ++ now
    loaded := l.loaded.filter fun k => !now.contains k }, s)

/-- Placement commands sent while their clusters have one of 8 permits (R122). -/
def sendCommands (id : Nat) : List Nat → Launch → State → Launch × State
  | [], l, s => (l, s)
  | k :: ks, l, s =>
    let g := clusterOf k
    let c := s.cluster g
    if c.permits < 8 then
      let s := (s.setCluster g { c with permits := c.permits + 1 }).post 0 .placementCommand [id, k]
      sendCommands id ks { l with toSend := l.toSend.filter (· != k), loading := l.loading ++ [k] } s
    else sendCommands id ks l s

/-- LAUNCH_PLACEMENT (R121). -/
def execLaunchPlacement (s : State) : Result :=
  let id := s.arg 0
  .next (match Tbl.get? s.hub.launches id with
    | none => s
    | some l =>
      let wasPlacing := l.cores != 0 || !l.toSend.isEmpty
      let (l, s) := reserveCores id l s
      let (l, s) := sendCommands id l.toSend l s
      let s := s.onHub fun h => { h with launches := Tbl.put h.launches id l }
      if wasPlacing && l.cores == 0 && l.toSend.isEmpty then s.post 0 .umpireQueueSelect [] else s)

/-- Whether the contexts of a launch wait for its gate (R122). -/
def Launch.isGated (l : Launch) : Bool := (l.coresident || l.gate) && !l.lifted

/-- The context of thread `j` of a launch (R34, R81, R339), at the launch gate if there is one. -/
def launchContext (k j id : Nat) (l : Launch) (now : Nat) : Ctx :=
  let c := startContext k j (l.onCore id) l.entry l.args l.codeId l.prio 0 (if l.control then 1 else 0)
  let c := { c with place := .live j, readyAt := now + 1 }
  if l.isGated then { c with status := .parked, park := 11 } else c

/-- The counters of a mask set to 0 (R81). -/
def zeroCounters (mask : Word) (c : Core) : Core :=
  (List.range 64).foldl (fun c i =>
    if mask.getLsbD i then { c with kval := Map.set 0 c.kval i 0, kout := Map.set 0 c.kout i 0 } else c) c

/-- The contexts of a launch on a core. -/
def loadContexts (k id : Nat) (l : Launch) (s : State) : State :=
  (List.range l.threads).foldl (fun s j =>
    let (h, s) := assign k j s
    s.setCtx ⟨k, j⟩ { launchContext k j id l s.now with ctxid := BitVec.ofNat 32 h }) s

/-- A core loaded with its image, its counters and its contexts (R81, R182). -/
def loadCore (k id : Nat) (l : Launch) (image : List Byte) (s : State) : State :=
  let bytes := image ++ List.replicate (l.lsTotal - l.lsSize) 0
  let s := arriveFull k (wordsOf 0 l.lsTotal) (s.onCore k fun c => zeroCounters l.mask (c.lsPut 0 bytes))
  loadContexts k id l s

/-- A core that can take no launch any more, since its local store has been retired or it has been stopped after its
reservation: the launch takes another core in its place (R184; DEDUCED, log entry 18). -/
def yieldCore (id k : Nat) (l : Launch) (s : State) : State :=
  let s := s.onHub fun h => { h with launches := Tbl.put h.launches id { l with
    loading := l.loading.filter (· != k)
    cores := l.cores + 1 } }
  ((returnPermit k s).onCore k fun c => { c with launch := none }).post 0 .launchPlacement [id]

/-- PLACEMENT_COMMAND (R122, R81): the Cox loads the core and returns its permit. -/
def execPlacementCommand (s : State) : Result :=
  let id := s.arg 0
  let k := s.arg 1
  .next (match Tbl.get? s.hub.launches id with
    | none => s
    | some l =>
      let g := clusterOf k
      if !l.loading.contains k then s
      else if (s.core k).retired || (s.core k).stopped then yieldCore id k l s
      else if inReset s || awaitsMemory s g (s.spaceOf k) l.lsAddr.toNat l.lsSize then s.post 1 .placementCommand [id, k]
      else match readVirtual g (s.spaceOf k) l.lsSize l.lsAddr.toNat s with
        | (_, some (r, va), s) =>
          if isStalling r then stallFault (.placement id k) (s.spaceOf k) va 4 r s else abandonCore id k s
        | (image, none, s) =>
          let s := returnPermit k (loadCore k id l image s)
          let s := s.onHub fun h => { h with launches := Tbl.put h.launches id { l with
            loading := l.loading.filter (· != k)
            loaded := l.loaded ++ [k] } }
          let s := s.hub.launches.foldl (fun s x => if x.2.toSend.isEmpty then s else s.post 0 .launchPlacement [x.1]) s
          let s := match s.partOf k with
            | some p => s.post 0 .taskDispatch [p]
            | none => s
          s.post 0 .launchGateLift [id])

/-- Whether every condition of R16 holds for a launch. -/
def gateOpen (s : State) (l : Launch) : Bool :=
  (!l.coresident || (l.cores == 0 && l.toSend.isEmpty && l.loading.isEmpty && !l.broken))
    && (!l.gate || tokenOpen (s.part l.part))

/-- LAUNCH_GATE_LIFT (R122): one broadcast ends the park of every loaded context. -/
def execLaunchGateLift (s : State) : Result :=
  let id := s.arg 0
  .next (match Tbl.get? s.hub.launches id with
    | none => s
    | some l =>
      if l.isGated && gateOpen s l then
        let s := s.onHub fun h => { h with launches := Tbl.put h.launches id { l with lifted := true } }
        let s := l.loaded.foldl (fun s k => s.onCore k fun c => c.mapCtx fun _ x =>
          if x.parkReason = 11 then resume s.now x else x) s
        if l.tasks then s.post 0 .taskDispatch [l.part] else s
      else s)

/-! ### Completion (R123, R338) -/

/-- Whether a core, or the image of a saved one, holds threads of a launch. -/
def runsLaunch (id : Nat) (c : Core) : Bool := c.isHeld && c.launch.any fun l => l.id == id

/-- Whether a launch has completed (R338). One of a control queue belongs to no partition, so that TASKS = 1 makes it wait for no task
(DESIGN CHOICE, log entry 64). -/
def isComplete (s : State) (id : Nat) (l : Launch) : Bool :=
  l.cores == 0 && l.toSend.isEmpty && l.loading.isEmpty
    && s.cores.all (fun c => !runsLaunch id c.2)
    && s.hub.saved.all (fun v => v.cores.all fun c => !runsLaunch id c.image)
    && (!l.tasks || l.control || ((oldestTask s.hub.tasks l.part).isNone
      && s.hub.saved.all fun v => v.part != l.part || (oldestTask v.tasks l.part).isNone))

/-- A completed launch is over: its cores belong to no launch, and a LAUNCH that waits for crew slots is looked at again. -/
def endLaunch (id : Nat) (s : State) : State :=
  let left (c : Core) : Core := if c.launch.any fun l => l.id == id then { c with launch := none } else c
  let s : State := { s with cores := s.cores.map fun (k, c) => (k, left c) }
  (s.onHub fun h => retest 1 { h with launches := Tbl.del h.launches id }).post 0 .umpireQueueSelect []

/-- LAUNCH_COMPLETE (R338): the timeline reaches DONE and the launch is over. While a fault on its timeline word is served the
queue is not ready (R344). -/
def execLaunchComplete (s : State) : Result :=
  let id := s.arg 0
  .next (match Tbl.get? s.hub.launches id with
    | none => s
    | some l =>
      if !isComplete s id l then s
      else
        let space := if l.control then 64 + l.kernel else l.part
        if l.done = 0 then endLaunch id s
        else if l.stalled then s
        else if awaitsMemory s hubCluster space l.timeline.toNat 8 then s.post 1 .launchComplete [id]
        else match updateTimeline space l.timeline l.done l.msi l.msiAddr l.msiData s with
          | (some (r, va), s) =>
            if isStalling r then
              stallFault (.launch id) space va 4 r (s.onHub fun h =>
                { h with launches := Tbl.put h.launches id { l with stalled := true } })
            else failTimeline id s
          | (none, s) => endLaunch id s)

end Sys2Proof.Machine
end

