-- ==== Sys2Proof/Machine/Keccak.lean ====
section
/-! DEFINITION. Keccak-f[1600], SHAKE256 and KMAC256 under SP 800-185, which the token records and admission statements
use (R415, R417). -/

namespace Sys2Proof.Machine.Keccak

/-- The 25 lanes of the permutation's state; lane x + 5y. -/
abbrev Lanes := List Word

/-- A lane. -/
def lane (a : Lanes) (x y : Nat) : Word := a.getD (x % 5 + 5 * (y % 5)) 0

/-- The rotation of each lane, in lane order. -/
def offsets : List Nat :=
  [0, 1, 62, 28, 27, 36, 44, 6, 55, 20, 3, 10, 43, 25, 39, 41, 45, 15, 21, 8, 18, 2, 61, 56, 14]

/-- The constants of the 24 rounds. -/
def roundConstants : List Word :=
  [0x1, 0x8082, 0x800000000000808A, 0x8000000080008000, 0x808B, 0x80000001, 0x8000000080008081, 0x8000000000008009,
   0x8A, 0x88, 0x80008009, 0x8000000A, 0x8000808B, 0x800000000000008B, 0x8000000000008089, 0x8000000000008003,
   0x8000000000008002, 0x8000000000000080, 0x800A, 0x800000008000000A, 0x8000000080008081, 0x8000000000008080,
   0x80000001, 0x8000000080008008]

/-- A value for every lane, in lane order. -/
def forLanes (f : Nat → Nat → Word) : Lanes := (List.range 25).map fun i => f (i % 5) (i / 5)

/-- One round. -/
def round (a : Lanes) (rc : Word) : Lanes :=
  let c := (List.range 5).map fun x => (List.range 5).foldl (fun v y => v ^^^ lane a x y) 0
  let d := (List.range 5).map fun x => c.getD ((x + 4) % 5) 0 ^^^ (c.getD ((x + 1) % 5) 0).rotateLeft 1
  let a := forLanes fun x y => lane a x y ^^^ d.getD x 0
  let b := forLanes fun x y =>
    let i := (x + 3 * y) % 5
    (lane a i x).rotateLeft (offsets.getD (i + 5 * x) 0)
  forLanes fun x y =>
    (lane b x y ^^^ (~~~(lane b (x + 1) y) &&& lane b (x + 2) y)) ^^^ (if x = 0 ∧ y = 0 then rc else 0)

/-- The permutation. -/
def permute (a : Lanes) : Lanes := roundConstants.foldl round a

/-- The rate of the 512-bit capacity, in bytes. -/
def rate : Nat := 136

/-- A block absorbed. -/
def absorb (a : Lanes) (block : List Byte) : Lanes :=
  permute (forLanes fun x y =>
    let i := x + 5 * y
    lane a x y ^^^ word (natOfBytes ((block.drop (8 * i)).take 8)))

/-- The bytes of a message cut into blocks, `n` of them. -/
def blocks : Nat → List Byte → List (List Byte)
  | 0, _ => []
  | n + 1, m => m.take rate :: blocks n (m.drop rate)

/-- The padded message: the suffix byte, zeros, and the last bit. -/
def padded (m : List Byte) (suffix : Byte) : List Byte :=
  let n := rate - m.length % rate
  if n = 1 then m ++ [suffix ||| 0x80] else m ++ [suffix] ++ List.replicate (n - 2) 0 ++ [0x80]

/-- The first `n` bytes, at most a block, of the sponge over a message. -/
def sponge (m : List Byte) (suffix : Byte) (n : Nat) : List Byte :=
  let p := padded m suffix
  let a := (blocks (p.length / rate) p).foldl absorb (List.replicate 25 0)
  (a.flatMap fun w => bytesOfNat 8 w.toNat).take n

/-- SHAKE256 with an output of `n` bytes. -/
def shake256 (m : List Byte) (n : Nat) : List Byte := sponge m 0x1F n

/-- The big-endian bytes of a number, at least one. -/
def bigEndian : Nat → Nat → List Byte
  | 0, x => [BitVec.ofNat 8 x]
  | fuel + 1, x => if x < 256 then [BitVec.ofNat 8 x] else bigEndian fuel (x / 256) ++ [BitVec.ofNat 8 x]

/-- left_encode of SP 800-185. -/
def leftEncode (x : Nat) : List Byte := BitVec.ofNat 8 (bigEndian 8 x).length :: bigEndian 8 x
/-- right_encode of SP 800-185. -/
def rightEncode (x : Nat) : List Byte := bigEndian 8 x ++ [BitVec.ofNat 8 (bigEndian 8 x).length]
/-- encode_string of SP 800-185. -/
def encodeString (b : List Byte) : List Byte := leftEncode (8 * b.length) ++ b

/-- bytepad to the rate, of SP 800-185. -/
def bytepad (b : List Byte) : List Byte :=
  let x := leftEncode rate ++ b
  x ++ List.replicate ((rate - x.length % rate) % rate) 0

/-- A string's bytes. -/
def ascii (t : String) : List Byte := t.toList.map fun c => BitVec.ofNat 8 c.toNat

/-- KMAC256 with an output of `n` bytes. -/
def kmac256 (key m : List Byte) (n : Nat) (custom : String) : List Byte :=
  let x := bytepad (encodeString key) ++ m ++ rightEncode (8 * n)
  sponge (bytepad (encodeString (ascii "KMAC") ++ encodeString (ascii custom)) ++ x) 0x04 n

end Sys2Proof.Machine.Keccak
end

