-- ==== Sys2Proof/Machine/Xmss.lean ====
section
/-! DEFINITION. The stateful hash-based signatures of SP 800-208 with SHAKE256, n = 32 and w = 16: the check of an
XMSS-SHAKE256_20_256 signature (R427) and the making of an XMSSMT-SHAKE256_40/4_256 signature (R417, R431). The spec names the
two parameter sets and their standard; what the sets compute is taken from SP 800-208 and RFC 8391.
(PRESUMED, log entry 51.) -/

namespace Sys2Proof.Machine.Xmss

/-- The big-endian bytes of a number. -/
def toByte (x n : Nat) : List Byte := (bytesOfNat n x).reverse

/-- The bitwise exclusive or of two strings. -/
def mask (a b : List Byte) : List Byte := a.zipWith (· ^^^ ·) b

/-- The keyed hash functions by their number: F 0, H 1, H_msg 2, PRF 3, PRF_keygen 4. -/
def keyed (number : Nat) (key m : List Byte) : List Byte := Keccak.shake256 (toByte number 32 ++ key ++ m) 32

/-- The key, or the bit mask, that the public seed gives at an address. -/
def prf (seed adrs : List Byte) : List Byte := keyed 3 seed adrs

/-- A hash address: the layer, the tree, the type (0 one-time key, 1 L-tree, 2 hash tree), its three words, and the word that
tells keys and bit masks apart. -/
def address (layer tree type a b c part : Nat) : List Byte :=
  toByte layer 4 ++ toByte tree 8 ++ toByte type 4 ++ toByte a 4 ++ toByte b 4 ++ toByte c 4 ++ toByte part 4

/-- The chaining function: so many steps, from a place in the chain. -/
def chain (seed : List Byte) (adrs : Nat → Nat → List Byte) : Nat → Nat → List Byte → List Byte
  | 0, _, x => x
  | n + 1, i, x => chain seed adrs n (i + 1) (keyed 0 (prf seed (adrs i 0)) (mask x (prf seed (adrs i 1))))

/-- The randomised hash of two nodes. -/
def join (seed : List Byte) (adrs : Nat → List Byte) (l r : List Byte) : List Byte :=
  keyed 1 (prf seed (adrs 0)) (mask l (prf seed (adrs 1)) ++ mask r (prf seed (adrs 2)))

/-- The base-16 digits of a 32-byte digest, and those of its checksum. -/
def digits (m : List Byte) : List Nat :=
  let ds := m.flatMap fun b => [b.toNat / 16, b.toNat % 16]
  let sum := ds.foldl (fun n d => n + (15 - d)) 0
  ds ++ [sum / 256, sum / 16 % 16, sum % 16]

/-- The chain of a one-time key by its number, advanced so many steps from a place. -/
def chainOf (seed : List Byte) (layer tree leaf i place steps : Nat) (x : List Byte) : List Byte :=
  chain seed (address layer tree 0 leaf i) steps place x

/-- The nodes of a level of an L-tree joined in pairs; a last one without a partner rises as it is. -/
def joinPairs (seed : List Byte) (adrs : Nat → Nat → List Byte) : Nat → List (List Byte) → List (List Byte)
  | i, l :: r :: rest => join seed (adrs i) l r :: joinPairs seed adrs (i + 1) rest
  | _, xs => xs

/-- The root of an L-tree, from a level, of at most 2 ^ `n` nodes there. -/
def lTree (seed : List Byte) (adrs : Nat → Nat → Nat → List Byte) : Nat → Nat → List (List Byte) → List Byte
  | 0, _, xs => xs.headD []
  | n + 1, level, xs => lTree seed adrs n (level + 1) (joinPairs seed (adrs level) 0 xs)

/-- The leaf of a tree that a one-time public key gives. -/
def leafOf (seed : List Byte) (layer tree leaf : Nat) (pk : List (List Byte)) : List Byte :=
  lTree seed (address layer tree 1 leaf) 7 0 pk

/-- A chain's first value under a secret seed. -/
def secret (sk seed : List Byte) (layer tree leaf i : Nat) : List Byte :=
  keyed 4 sk (seed ++ address layer tree 0 leaf i 0 0)

/-- A node of a tree by its height and place. -/
def node (sk seed : List Byte) (layer tree : Nat) : Nat → Nat → List Byte
  | 0, leaf => leafOf seed layer tree leaf
      ((List.range 67).map fun i => chainOf seed layer tree leaf i 0 15 (secret sk seed layer tree leaf i))
  | h + 1, i => join seed (address layer tree 2 0 h i) (node sk seed layer tree h (2 * i)) (node sk seed layer tree h (2 * i + 1))

/-- The one-time signature of a digest at a leaf of a tree of a height, and the leaf's authentication path. -/
def treeSignature (sk seed m : List Byte) (layer tree height leaf : Nat) : List Byte :=
  ((digits m).zipIdx.flatMap fun e => chainOf seed layer tree leaf e.2 0 e.1 (secret sk seed layer tree leaf e.2))
    ++ (List.range height).flatMap fun k => node sk seed layer tree k (leaf / 2 ^ k ^^^ 1)

/-- The signatures of a digest through `n` layers of trees of height 10, from a layer upward. -/
def layered (sk seed : List Byte) : Nat → Nat → Nat → List Byte → List Byte
  | 0, _, _, _ => []
  | n + 1, layer, i, m =>
    treeSignature sk seed m layer (i / 2 ^ 10) 10 (i % 2 ^ 10)
      ++ layered sk seed n (layer + 1) (i / 2 ^ 10) (node sk seed layer (i / 2 ^ 10) 10 0)

/-- The XMSSMT-SHAKE256_40/4_256 public key of a secret and a public seed: the root, then the public seed. -/
def publicKey (sk seed : List Byte) : List Byte := node sk seed 3 0 10 0 ++ seed

/-- The digest of a message that is signed with an index. -/
def digest (r root : List Byte) (i : Nat) (m : List Byte) : List Byte := keyed 2 (r ++ root ++ toByte i 32) m

/-- The XMSSMT-SHAKE256_40/4_256 signature of a message, with an index: 9,893 bytes. -/
def sign (sk prfKey public_ : List Byte) (i : Nat) (m : List Byte) : List Byte :=
  let r := prf prfKey (toByte i 32)
  toByte i 5 ++ r ++ layered sk (public_.drop 32) 4 0 i (digest r (public_.take 32) i m)

/-- A string cut into pieces of 32 bytes. -/
def pieces (b : List Byte) (n : Nat) : List (List Byte) := (List.range n).map fun i => (b.drop (32 * i)).take 32

/-- The root that an authentication path leads to from a leaf. -/
def climb (seed : List Byte) (leaf : Nat) : Nat → List (List Byte) → List Byte → List Byte
  | _, [], x => x
  | k, a :: path, x =>
    let adrs := address 0 0 2 0 k (leaf / 2 ^ (k + 1))
    climb seed leaf (k + 1) path (if (leaf / 2 ^ k) % 2 = 0 then join seed adrs x a else join seed adrs a x)

/-- Whether a 2,820-byte XMSS-SHAKE256_20_256 signature of a message checks under a public key of 64 bytes. -/
def verifies (public_ m signature : List Byte) : Bool :=
  let root := public_.take 32
  let seed := public_.drop 32
  let i := natOfBytes (signature.take 4).reverse
  let d := digest ((signature.drop 4).take 32) root i m
  let pk := ((digits d).zip (pieces (signature.drop 36) 67)).zipIdx.map fun e => chainOf seed 0 0 i e.2 e.1.1 (15 - e.1.1) e.1.2
  signature.length == 2820 && decide (i < 2 ^ 20)
    && climb seed i 0 (pieces (signature.drop 2180) 20) (leafOf seed 0 0 i pk) == root

end Sys2Proof.Machine.Xmss
end

