-- ==== Sys2Proof/Machine/Heat.lean ====
section
/-! DEFINITION. Partitions, heats, the curtain and virtual interrupts (R410 to R418), with the save and restore of a
partition's cores (R389 to R391), and the remap of retired cores (R11). -/

namespace Sys2Proof.Machine

/-- The state with a partition changed. -/
def onPart (p : Nat) (f : Part → Part) (s : State) : State := s.setPart p (f (s.part p))

/-! ### Idle partitions, PSPLIT and PMERGE (R411) -/

/-- Whether a partition is idle (R411): a queue that waits for admission, or an evicted one, is not an admitted queue. -/
def isIdlePart (s : State) (p : Nat) : Bool :=
  let v := s.part p
  let mine (q : Queue) : Bool := !q.control && q.part == p
  ((partCores v).all fun k => (s.core k).threads.isEmpty)
    && !(s.hub.queues.any fun q => mine q.2)
    && !((allTasks s.hub).any fun t => t.2.part == p)
    && v.running.isNone && v.switch.isNone && v.tenant == 0

/-- The check of an operation's partition: below 64, in use, and held by the issuer (R411). -/
def checkPart (a : Word) (go : Nat → State → State) (s : State) : State :=
  let p := a.toNat
  if 64 ≤ p ∨ (s.part p).valid = false ∨ (s.part p).kernel ≠ issuerKernel s then trapE .partitionFence a s else go p s

/-- The status of PSPLIT, with the new partition's ID where it is 0 (R411). -/
def splitPart (p kernel : Nat) (s : State) : Nat × State :=
  let v := s.part p
  let free := (List.range 64).find? fun i => !(s.part i).valid
  if 256 ≤ v.node then (1, s)
  else if !isIdlePart s p then (2, s)
  else match free with
    | none => (3, s)
    | some i =>
      let s := dropTranslations (fun e => e.space == i) s
      let s := s.setPart p { v with node := 2 * v.node }
      (256 * i, s.setPart i { Part.unused with node := 2 * v.node + 1, kernel := kernel, valid := true })

/-- PSPLIT (R411). -/
def execPsplit (d a b q : Nat) (s : State) : Result :=
  .next (privileged (checkRegs (isPq q) (withOperands [a, b] [d] fun x s =>
    checkPart (x.getD 0 0) (fun p s =>
      let k := (x.getD 1 0).toNat
      if k = 0 ∨ 15 < k then trapOpen .immediateRange s
      else
        let (r, s) := splitPart p k (popReads [a, b] s)
        parkAnswered d q (word r) (r % 256 == 0) s) s)) s)

/-- The status of PMERGE (R411). -/
def mergePart (p : Nat) (s : State) : Nat × State :=
  let v := s.part p
  let sibling := if v.node % 2 = 0 then v.node + 1 else v.node - 1
  match (List.range 64).find? fun i => (s.part i).valid && (s.part i).node == sibling && (s.part i).kernel == v.kernel with
  | none => (1, s)
  | some o =>
    if v.node = 1 then (1, s)
    else if !isIdlePart s p || !isIdlePart s o then (2, s)
    else
      let (keep, gone) := if v.node < sibling then (p, o) else (o, p)
      let s := dropTranslations (fun e => e.space == gone) s
      let s := s.onHub fun h => { h with saved := h.saved.filter fun x => x.part != gone }
      (0, (s.setPart gone Part.unused).setPart keep { s.part keep with node := v.node / 2 })

/-- PMERGE (R411). -/
def execPmerge (d a q : Nat) (s : State) : Result :=
  .next (privileged (checkRegs (isPq q) (withOperands [a] [d] fun x s =>
    checkPart (x.getD 0 0) (fun p s =>
      let (r, s) := mergePart p (popReads [a] s)
      parkAnswered d q (word r) (r == 0) s) s)) s)

/-! ### The heat sheet (R412) -/

/-- A heat record's 64 bytes, as fields. -/
def heatOf (b : List Byte) (since : Nat) : HeatRec where
  start := field b 0 8
  end_ := field b 8 8
  period := field b 16 8
  root := field b 24 8
  save := field b 32 8
  linkSlots := word (field b 40 8)
  msiAddr := field b 48 8
  msiData := field b 56 4
  part := field b 60 1
  gate := bits (field b 61 1) 1 1 == 1
  tenant := field b 62 1
  saveLog2 := field b 63 1
  since := since

/-- Whether every field of a record lies in its range (R412). -/
def heatFieldsOk (b : List Byte) : Bool :=
  let h := heatOf b 0
  decide (h.start < h.end_) && (h.period == 0 || decide (h.end_ - h.start ≤ h.period))
    && h.start % 512 == 0 && h.end_ % 512 == 0 && h.period % 512 == 0
    && h.root % 4096 == 0 && decide (h.root < 2 ^ 48) && h.save % 524288 == 0 && decide (h.save < 2 ^ 57)
    && decide (h.part < 64) && decide (field b 61 1 < 4) && decide (1 ≤ h.tenant)
    && decide (19 ≤ h.saveLog2) && decide (h.saveLog2 ≤ 40)

/-- Whether an occurrence of one record overlaps an occurrence of another (R412). The starts differ by D + j p2 − i p1
with i and j not negative, and two occurrences overlap when that difference lies between −L2 and L1. -/
def heatsOverlap (x y : HeatRec) : Bool :=
  let d : Int := (y.start : Int) - x.start
  let lo : Int := -((y.end_ - y.start : Nat) : Int)
  let hi : Int := ((x.end_ - x.start : Nat) : Int)
  let g := Nat.gcd x.period y.period
  if g = 0 then decide (lo < d) && decide (d < hi)
  else
    let v := lo + 1 + (d - lo - 1) % g
    if y.period = 0 then decide (v < hi) && decide (v ≤ d)
    else if x.period = 0 then decide ((if lo < d then d else v) < hi)
    else decide (v < hi)

/-- The status of a HEATSET with VALID 1 (R412). -/
def heatStatus (s : State) (i : Nat) (b : List Byte) : Nat :=
  let h := heatOf b s.time
  let others := (s.hub.sheet.filter fun e => e.1 != i && e.2.part == h.part).map (·.2)
  let foreign := match Tbl.get? s.hub.sheet i with
    | some o => (s.part o.part).kernel != issuerKernel s
    | none => false
  if !heatFieldsOk b then 1
  else if others.any (heatsOverlap h) then 2
  else if others.any fun o => o.period != h.period then 3
  else if (s.part h.part).valid = false ∨ (s.part h.part).kernel ≠ issuerKernel s ∨ foreign = true then 4
  else 0

/-- HEATSET (R412). -/
def execHeatset (d a b q : Nat) (s : State) : Result :=
  .next (privileged (checkRegs (isPq q) (withOperands [a, b] [d] fun v s =>
    let x := (v.getD 0 0).toNat
    let i := (v.getD 1 0).toNat
    if 255 < i then trapOpen .immediateRange s
    else checkLs x 64 64 (lsMisaligned x) (checkWatch [(x, 64)] true false (awaitPrints [run x 64] [] (checkEcc x 64 fun s =>
        let bs := getBytes s.here.ls x 64
        let s := popReads [a, b] (correctSingles s.actor.core x 64 s)
        if bits (field bs 61 1) 0 1 = 0 then
          parkAnswered d q 0 true (s.onHub fun h => { h with sheet := Tbl.del h.sheet i })
        else
          let r := heatStatus s i bs
          let s := if r = 0 then s.onHub fun h => { h with sheet := Tbl.put h.sheet i (heatOf bs s.time) } else s
          parkAnswered d q (word r) (r == 0) s))) s)) s)

/-! ### The curtain (R415) -/

/-- The groups of the curtain that lie in a core; the generations of its thread numbers begin again (R124). (DEDUCED, log
entry 31.) (DEDUCED, log entry 31). -/
def curtainCore (map : Nat) (c : Core) : Core :=
  let on (i : Nat) : Bool := map.testBit i
  let c := if on 0 then { c with
      threads := []
      gens := []
      launch := none
      children := 0
      reaps := []
      forwards := []
      divFree := 0 } else c
  let c := if on 1 then { c with ls := [], lsState := [], lsBad := [], lsSingle := [], lsHealed := [] } else c
  let c := if on 2 then { c with eng := Engine.reset } else c
  let c := if on 4 then { c.mapCtx fun _ x => { x with fetch := none } with icache := [] } else c
  let c := if on 5 then { c with kval := [], kout := [] } else c
  let c := if on 6 then { c with stage := none, threads := c.threads.filter fun t => t.2.isLive } else c
  let c := if on 8 then { c with queue := c.queue.filter fun e => decide (e.state ≠ .heldPut) } else c
  if on 7 then { c with inbox := [], chans := [], credits := [], watch := [] } else c

/-- The groups of the curtain that the hub and the clusters hold. -/
def curtainShared (p map : Nat) (cores : List Nat) (s : State) : State :=
  let on (i : Nat) : Bool := map.testBit i
  let s := if on 0 then s.onHub fun h => { h with
      crews := h.crews.filterMap fun e =>
        let left (a : Actor) : Bool := !cores.contains a.core
        let c := { e.2 with members := e.2.members.filter fun m => left m.1, arrived := e.2.arrived.filter left }
        if c.members.isEmpty then none else some (e.1, c) } else s
  let s := if on 3 then
      let s := dropTranslations (fun e => e.space == p) s
      { s with walks := s.walks.filter fun w => w.2.space != p }
    else s
  let s := if on 4 then
      { s with clusters := s.clusters.map fun c =>
        (c.1, if cores.any fun k => clusterOf k == c.1 then { c.2 with icache := [] } else c.2) }
    else s
  let s := if on 8 then onPart p (fun v => { v with floor := 0 })
      (s.onHub fun h => { h with tasks := h.tasks.filter fun t => t.2.part != p }) else s
  if on 9 then s.onHub fun h => { h with
      bindings := h.bindings.filter fun b => b.part != p
      objects := h.objects.filter fun o => o.part != p } else s

/-- The message of a token record (R415). -/
def tokenMessage (s : State) (p out in_ map : Nat) : List Byte :=
  bytesOfNat 2 s.plat.devid ++ bytesOfNat 1 p ++ bytesOfNat 1 out ++ bytesOfNat 1 in_ ++ bytesOfNat 3 0
    ++ bytesOfNat 4 map ++ bytesOfNat 4 0 ++ bytesOfNat 8 (s.part p).heatSeq ++ bytesOfNat 8 s.time

/-- The curtain with its token in the mailbox (R415); launches with the token gate look again. -/
def curtain (p map out in_ : Nat) (s : State) : State :=
  let cores := partCores (s.part p)
  let s := cores.foldl (fun s k => if (Tbl.get? s.cores k).isSome then s.onCore k (curtainCore map) else s) s
  let s := curtainShared p map cores s
  let m := tokenMessage s p out in_ map
  let key := if in_ = 0 then 0 else Map.get 0 s.hub.tenantKeys in_
  let s := onPart p (fun v => { v with mailbox := m ++ Keccak.kmac256 (bytesOfNat 32 key) m 32 "Fytin curtain" }) s
  (s.hub.launches.filter fun l => l.2.part == p && !l.2.control).foldl (fun s l =>
    ((s.post 0 .launchGateLift [l.1]).post 0 .launchPlacement [l.1]).post 0 .launchComplete [l.1]) s

/-- CURTAIN (R416). -/
def execCurtain (d a b q : Nat) (s : State) : Result :=
  .next (privileged (checkRegs (isPq q) (withOperands [a, b] [d] fun x s =>
    checkPart (x.getD 0 0) (fun p s =>
      let map := (x.getD 1 0).toNat
      if 1024 ≤ map then trapOpen .immediateRange s
      else
        let s := popReads [a, b] s
        if !isIdlePart s p then parkAnswered d q 1 false s
        else
          let t := (s.part p).tenant
          parkAnswered d q 0 true (curtain p map t t s)) s)) s)

/-! ### TOKEN (R417) -/

/-- The statement of an admission (R417). -/
def statement (s : State) (tenant : Nat) (key nonce : List Byte) : List Byte :=
  bytesOfNat 2 s.plat.devid ++ bytesOfNat 1 tenant ++ bytesOfNat 5 0 ++ bytesOfNat 8 s.hub.admissions
    ++ Keccak.shake256 key 32 ++ nonce.take 16

/-- An admission: the key unwrapped and stored, the statement and its signature written (R417, R431). -/
def admitTenant (x tenant : Nat) (s : State) : State :=
  let core := s.here
  let w := getBytes core.ls x 32
  let nonce := getBytes core.ls (x + 32) 32
  let pad := Keccak.kmac256 (bytesOfNat 32 s.hub.admissionKey) nonce 32 "Fytin admit"
  let key := w.zipWith (· ^^^ ·) pad
  let i := s.hub.signIndex
  let s := s.onHub fun h => { h with
    tenantKeys := Map.set 0 h.tenantKeys tenant (natOfBytes key)
    admissions := h.admissions + 1
    signIndex := i + 1 }
  let m := statement s tenant key nonce
  let signature := Xmss.sign (bytesOfNat 32 s.plat.signKey.toNat) (bytesOfNat 32 s.plat.signPrf.toNat) s.plat.publicKey i m
  s.setHere (s.here.lsPut (x + 64) (m ++ signature))

/-- TOKEN (R417). -/
def execToken (d a b q : Nat) (s : State) : Result :=
  .next (privileged (checkRegs (isPq q) (withOperands [a, b] [d] fun v s =>
    let x := (v.getD 0 0).toNat
    let w := (v.getD 1 0).toNat
    let op := bits w 0 1
    let part := bits w 8 6
    let tenant := bits w 16 8
    let n := if op = 0 then 64 else 10021
    if w ≠ op + 2 ^ 8 * part + 2 ^ 16 * tenant then trapOpen .immediateRange s
    else if op = 0 ∧ ((s.part part).valid = false ∨ (s.part part).kernel ≠ issuerKernel s) then
      trapOpen .partitionFence s
    else if x % 64 ≠ 0 then lsMisaligned x s
    else if lsLimit s.actor.core < x + n then trapA .lsRange (word x) s
    else checkWatch [(x, n)] (op == 1) true (awaitPrints [run x n] [run x n] (checkEcc x n fun s =>
      let s := popReads [a, b] (correctSingles s.actor.core x n s)
      if op = 0 then
        let box := (s.part part).mailbox
        parkAnswered d q 0 true
          (s.setHere (s.here.lsPut x (if box.isEmpty then List.replicate 64 0 else box)))
      else if tenant = 0 then parkAnswered d q 1 false s
      else if s.hub.sheet.any fun h => h.2.tenant == tenant then parkAnswered d q 2 false s
      else if s.plat.lifeCycle = 0 ∨ s.plat.lifeCycle = 3 ∨ 2 ^ 40 ≤ s.hub.signIndex then parkAnswered d q 3 false s
      else parkAnswered d q 0 true (admitTenant x tenant s))) s)) s)

/-! ### The core record (R389) -/

/-- A plane state's code (R263). -/
def planeCode : PlaneState → Nat
  | .empty => 0
  | .loaded => 1
  | .damaged _ => 2
  | .badmeta _ _ => 3

/-- A plane's tag in 16 bits: format, scaled, sparsity (R263, R389). (DESIGN CHOICE, log entry 14.) -/
def planeTag (p : WPlane) : Nat := p.format + (if p.scaled then 2 ^ 8 else 0) + 2 ^ 9 * p.sparsity

/-- Bytes filled with zeros up to a length. -/
def padTo (n : Nat) (b : List Byte) : List Byte := b.take n ++ List.replicate (n - b.length) 0

/-- A plane's values, scales and index store. -/
def planeBytes (p : WPlane) : List Byte := padTo 2048 p.values ++ padTo 128 p.scales ++ padTo 1024 p.index

/-- Up to `n` entries of `size` bytes each, the rest zero. -/
def tableBytes {α : Type} (n size : Nat) (f : α → List Byte) (xs : List α) : List Byte :=
  padTo (n * size) ((xs.take n).flatMap f)

/-- The resident mask. -/
def residentMask (c : Core) : Nat := c.threads.foldl (fun m t => m ||| 2 ^ t.1) 0

/-- The pending slots of a stage as words: for each key its number of records, then each record's header and payload. The spec
gives no layout (DESIGN CHOICE, log entry 14). -/
def pendingWords (slots : Tbl (List Record)) : List Nat :=
  slots.flatMap fun e => (e.1 + 2 ^ 32 * e.2.length + 2 ^ 63) :: e.2.flatMap fun r => r.header.toNat :: r.payload.map (·.toNat)

/-- The words that the record has room for; what does not fit stays with the hub (DESIGN CHOICE, log entry 14). -/
def pendingRoom : Nat := 1532

/-- The records that words spell, `n` of them, and the words that follow. -/
def recordsOf : Nat → List Nat → List Record × List Nat
  | 0, ws => ([], ws)
  | _ + 1, [] => ([], [])
  | n + 1, h :: ws =>
    let len := bits h 24 3
    let (rs, rest) := recordsOf n (ws.drop len)
    (⟨word h, (ws.take len).map word⟩ :: rs, rest)

/-- The pending slots that words spell, of at most `fuel` keys. -/
def pendingOf : Nat → List Nat → Tbl (List Record)
  | 0, _ => []
  | _ + 1, [] => []
  | fuel + 1, w :: ws =>
    if !w.testBit 63 then []
    else
      let (rs, rest) := recordsOf (bits w 32 8) ws
      Tbl.put (pendingOf fuel rest) (bits w 0 24) rs

/-- The stage's part of a core record: the descriptor copy, the pending slots, the spill index (R389). -/
def stageBytes (st : Stage) : List Byte :=
  let spill (x : Spill) : List Byte := bytesOfNat 8 (x.key + 2 ^ 24 * x.slot + 2 ^ 40 * x.finale + 2 ^ 63) ++ bytesOfNat 8 x.deadline
  tableBytes 4 8 (fun (x : Word) => bytesOfNat 8 x.toNat) st.desc
    ++ tableBytes pendingRoom 8 (bytesOfNat 8) (pendingWords st.slots) ++ tableBytes 256 16 spill st.spills

/-- A stage restored from its part of a core record, over what the hub kept of it. -/
def restoreStage (im : List Byte) (kept : Stage) : Stage := { kept with
  desc := (List.range 4).map fun i => word (imageNat im (0x3000 + 8 * i) 8)
  slots := if (pendingWords kept.slots).length ≤ pendingRoom then
      pendingOf 304 ((List.range pendingRoom).map fun i => imageNat im (0x3020 + 8 * i) 8)
    else kept.slots
  spills := ((List.range 256).filter fun i => (imageNat im (0x6000 + 16 * i) 8).testBit 63).map fun i =>
    let x := imageNat im (0x6000 + 16 * i) 8
    let was := kept.spills.find? fun p => p.key == bits x 0 24
    { key := bits x 0 24
      slot := bits x 24 8
      deadline := imageNat im (0x6008 + 16 * i) 8
      fetching := false
      finale := bits x 40 2
      owner := (was.map (·.owner)).getD 0
      arrived := was.bind (·.arrived) } }

/-- The fields of a core record but the commit word, by offset, ascending (R389). -/
def coreRecord (k : Nat) (c : Core) : List (Nat × List Byte) :=
  let e := c.eng
  let p0 := e.plane 0
  let p1 := e.plane 1
  let planes := e.active + 2 ^ 2 * planeCode p0.state + 2 ^ 4 * planeCode p1.state + 2 ^ 8 * planeTag p0 + 2 ^ 24 * planeTag p1
  let poison := e.poison.foldl (fun m i => m ||| 2 ^ i) 0
  let states := (List.range 16384).map fun i =>
    BitVec.ofNat 8 ((List.range 4).foldl (fun m j => m + 4 ^ j * (c.wordState (4 * i + j)).toNat) 0)
  [(0x8, bytesOfNat 8 (2 ^ 6 * (k % 1024) + 2 ^ 16 * (k / 1024))),
   (0x10, bytesOfNat 8 (residentMask c)),
   (0x18, bytesOfNat 8 planes),
   (0x20, bytesOfNat 32 poison),
   (0x40, tableBytes 16 8 (fun (w : Watch) => bytesOfNat 8 (w.handle + 2 ^ 32 * w.addr + 2 ^ 63)) c.watch),
   (0xC0, (List.range 4).flatMap fun i => bytesOfNat 8 (chanStatus (c.chan i)) ++ bytesOfNat 8 (c.creditsLeft i)),
   (0x100, bytesOfNat 8 (c.children + 2 ^ 8 * c.reaps.length)),
   (0x108, tableBytes 8 8 (fun (f : Forward) => bytesOfNat 8 (f.old + 2 ^ 32 * f.new + 2 ^ 63)) c.forwards),
   (0x200, tableBytes 64 16 (fun (r : Nat × Word) => bytesOfNat 8 r.1 ++ bytesOfNat 8 r.2.toNat) c.reaps),
   (0x1000, (List.range 64).flatMap fun i => bytesOfNat 8 (counterWord c i)),
   (0x1200, tableBytes 64 32 (fun (m : Message) =>
      bytesOfNat 8 m.m0.toNat ++ bytesOfNat 8 m.m1.toNat ++ bytesOfNat 8 m.sender.toNat ++ bytesOfNat 8 (2 ^ 63)) c.inbox),
   (0x2000, (List.range 4).flatMap fun i => tableBytes 64 8 (fun (x : Word) => bytesOfNat 8 x.toNat) (c.chan i).values),
   (0x3000, padTo 16384 ((c.stage.map stageBytes).getD [])),
   (0x8000, planeBytes p0 ++ planeBytes p1),
   (0x9A00, states)]
  ++ c.threads.map (fun t => (0x10000 + 1024 * t.1, imageOf t.2))
  ++ [(0x20000, (List.range 8192).flatMap fun i => bytesOfNat 4 (Map.get 0 e.acc i).toNat),
      (0x40000, getBytes c.ls 0 262144)]

/-- Segments of a record written at its base, ascending: the failing address, if any. -/
def writeSegments (k base : Nat) : List (Nat × List Byte) → State → Option Nat × State
  | [], s => (none, s)
  | (off, bs) :: rest, s =>
    match writeVirtual (clusterOf k) (s.spaceOf k) (base + off) (base + off + bs.length) bs (base + off) s with
    | (some f, s) => (some f.2, s)
    | (none, s) => writeSegments k base rest s

/-- The records of cores written one after another; what fails, and where (R390). -/
def writeRecords (save size : Nat) : Nat → List Nat → State → Option (Reason × Nat) × State
  | _, [], s => (none, s)
  | i, k :: ks, s =>
    let base := save + 524288 * i
    if size < 524288 * (i + 1) then (some (.saveAreaExhausted, base), s)
    else match writeSegments k base (coreRecord k (s.core k)) s with
      | (some va, s) => (some (.saveAreaFault, va), s)
      | (none, s) => writeRecords save size (i + 1) ks s

/-- A value written in the commit word of every record: the failing address, if any. -/
def writeCommits (save value : Nat) : Nat → List Nat → State → Option Nat × State
  | _, [], s => (none, s)
  | i, k :: ks, s =>
    match writeSegments k (save + 524288 * i) [(0, bytesOfNat 8 value)] s with
    | (some va, s) => (some va, s)
    | (none, s) => writeCommits save value (i + 1) ks s

/-- A pair of 8-byte entry fields, present while bit 63 is set. -/
def tableEntries (im : List Byte) (off n : Nat) : List Nat :=
  ((List.range n).map fun i => imageNat im (off + 8 * i) 8).filter fun x => x.testBit 63

/-- A restored thread: the whole image over what the hub kept of the thread (R384, R391). -/
def restoreCtx (core : Core) (kept : Option Ctx) (t now : Nat) (im : List Byte) : Ctx :=
  let c := loadImage core im (kept.getD { Ctx.fresh with
    place := if bits (imageNat im 0x3A0 4) 4 1 = 1 then .wings now else .live (t % 16)
    status := if bits (imageNat im 0x3A0 4) 0 4 = 0 then .running else .parked })
  let r (off : Nat) : W32 := BitVec.ofNat 32 (imageNat im off 4)
  let park := imageNat im 0x3A0 4
  { c with
    xstat := r 0x37C
    prio := r 0x384
    ctxid := r 0x388
    rank := r 0x38C
    gsize := r 0x390
    crewsz := r 0x394
    crewSlot := BitVec.ofNat 16 (imageNat im 0x39C 2)
    park := BitVec.ofNat 32 (park - 16 * bits park 4 2)
    bindU := bits (imageNat im 0x3A4 1) 0 3
    bindV := bits (imageNat im 0x3A4 1) 3 3
    held28 := word (imageNat im 0x3A8 8)
    held29 := word (imageNat im 0x3B0 8)
    readyAt := now + 1
    fetch := none
    fetching := false }

/-- A restored weight plane. -/
def restorePlane (im : List Byte) (off code tag : Nat) (kept : WPlane) : WPlane where
  values := (im.drop off).take (min kept.values.length 2048)
  scales := (im.drop (off + 2048)).take kept.scales.length
  index := (im.drop (off + 2176)).take kept.index.length
  state := if code = planeCode kept.state then kept.state else if code = 1 then .loaded else .empty
  format := bits tag 0 8
  scaled := tag.testBit 8
  sparsity := bits tag 9 7

/-- A core restored from its record, over what the hub kept of it (R391). A word that could not be read when it was saved is
still uncorrectable (DESIGN CHOICE, log entry 14). -/
def restoreCore (im : List Byte) (kept : Core) (now : Nat) (c : Core) : Core :=
  let w := imageNat im 0x18 8
  let mask := imageNat im 0x10 8
  let chan (i : Nat) : Channel :=
    let st := imageNat im (0xC0 + 16 * i) 8
    { kept.chan i with
      values := (List.range (bits st 0 7)).map fun j => word (imageNat im (0x2000 + 512 * i + 8 * j) 8)
      lo := bits st 8 7
      hi := bits st 16 7
      throttle := st.testBit 23 }
  let poison := imageNat im 0x20 32
  let reap := imageNat im 0x100 8
  { c with
    threads := ((List.range 64).filter mask.testBit).map fun t =>
      (t, restoreCtx kept (Tbl.get? kept.threads t) t now ((im.drop (0x10000 + 1024 * t)).take 1024))
    gens := kept.gens
    launch := kept.launch
    children := bits reap 0 7
    reaps := (List.range (bits reap 8 7)).map fun i => (imageNat im (0x200 + 16 * i) 8, word (imageNat im (0x208 + 16 * i) 8))
    forwards := (tableEntries im 0x108 8).map fun x => ⟨bits x 0 27, bits x 32 27⟩
    watch := (tableEntries im 0x40 16).map fun x => ⟨bits x 32 18, bits x 0 27⟩
    kval := (List.range 64).foldl (fun m i => Map.set 0 m i (BitVec.ofNat 32 (imageNat im (0x1000 + 8 * i) 4))) []
    kout := (List.range 64).foldl (fun m i => Map.set 0 m i (BitVec.ofNat 16 (imageNat im (0x1004 + 8 * i) 4))) []
    inbox := ((List.range 64).filter fun i => (imageNat im (0x1218 + 32 * i) 8).testBit 63).map fun i =>
      ⟨word (imageNat im (0x1200 + 32 * i) 8), word (imageNat im (0x1208 + 32 * i) 8), word (imageNat im (0x1210 + 32 * i) 8)⟩
    chans := (List.range 4).map fun i => (i, chan i)
    credits := (List.range 4).foldl (fun m i => Map.set 0 m i (64 - imageNat im (0xC8 + 16 * i) 8)) []
    stage := kept.stage.map (restoreStage im)
    queue := kept.queue
    lsBad := kept.lsBad
    eng := { Engine.reset with
      active := bits w 0 1
      planes := [restorePlane im 0x8000 (bits w 2 2) (bits w 8 16) (kept.eng.plane 0),
                 restorePlane im 0x8C80 (bits w 4 2) (bits w 24 16) (kept.eng.plane 1)]
      acc := (List.range 8192).foldl (fun m i => Map.set 0 m i (BitVec.ofNat 32 (imageNat im (0x20000 + 4 * i) 4))) []
      poison := (List.range 256).filter poison.testBit }
    ls := putBytes [] 0 ((im.drop 0x40000).take 262144)
    lsState := (List.range 65536).foldl (fun m i =>
      Map.set 1 m i (BitVec.ofNat 2 (imageNat im (0x9A00 + i / 4) 1 / 4 ^ (i % 4)))) [] }

/-! ### The boundary (R413) -/

/-- The first start of an occurrence after a TIME. (DEDUCED, log entry 30.) -/
def nextStart (h : HeatRec) (t : Nat) : Option Nat :=
  if t < h.start then some h.start
  else if h.period = 0 then none
  else some (h.start + ((t - h.start) / h.period + 1) * h.period)

/-- The entries of the sheet for a partition, with the start of each one's next occurrence. An entry changed while its
occurrence runs takes effect from its next one (R412). -/
def nextStarts (s : State) (p : Nat) : List (Nat × HeatRec × Nat) :=
  let v := s.part p
  (s.hub.sheet.filter fun e => e.2.part == p).filterMap fun e =>
    let from_ := max v.lastBoundary e.2.since
    let from_ := match v.running with
      | some r => if r.entry = e.1 then max from_ (r.until_ - 1) else from_
      | none => from_
    (nextStart e.2 from_).map fun b => (e.1, e.2, b)

/-- The partition's next boundary: a START, or the END of the occurrence in progress (R413). -/
def nextBoundary (s : State) (p : Nat) : Option Nat :=
  let v := s.part p
  ((nextStarts s p).map (·.2.2) ++ (v.running.map (·.until_)).toList).foldl (fun m b => some (match m with
    | some x => min x b
    | none => b)) none

/-- Whether a boundary of the partition is due. -/
def boundaryDue (s : State) (p : Nat) : Bool := (nextBoundary s p).any fun b => decide (b ≤ s.time)

/-- Every gang of a partition's cores breaks with reason 2 (R155, R413). -/
def breakGangs (cores : List Nat) (s : State) : State :=
  cores.foldl (fun s k => (s.core k).threads.foldl (fun s t => breakGang ⟨k, t.1⟩ 2 s) s) s

/-- Whether a thread moves through the wings port. -/
def Ctx.isMoving (c : Ctx) : Bool := match c.place with
  | .moving _ _ => true
  | _ => false

/-- Whether a thread has stopped for a heat switch (R389): it has reached an instruction boundary, and does not drain or move
through the wings port. A parked thread stops at once, but for one whose remote atomic or message is to be answered (R247,
R317). -/
def hasStopped (s : State) (a : Actor) (c : Ctx) : Bool :=
  c.ending.isNone && !c.isMoving && !c.isDraining && hasReached s a c

/-- The TIME noted at which each live thread of a partition has stopped (R378). -/
def markStops (p : Nat) (s : State) : State :=
  (partCores (s.part p)).foldl (fun s k => s.onCore k fun core => core.mapCtx fun t c =>
    if c.isLive ∧ c.stopped.isNone ∧ hasStopped s ⟨k, t⟩ c = true then { c with stopped := some s.time } else c) s

/-- The live threads of a partition run on where they stopped, after a save that failed (R390). -/
def unmarkStops (p : Nat) (s : State) : State :=
  (partCores (s.part p)).foldl (fun s k => s.onCore k fun core => core.mapCtx fun _ c =>
    if c.isLive then { c with stopped := none } else c) s

/-- The instant of a boundary: the sequence rises, the MSI is sent, and where the tenant changes the steps begin.
(DEDUCED, log entry 30.) -/
def crossBoundary (p b : Nat) (s : State) : State :=
  let v := s.part p
  let incoming := ((nextStarts s p).find? fun e => e.2.2 == b).map fun e =>
    (⟨e.1, e.2.1, b + (e.2.1.end_ - e.2.1.start)⟩ : Run)
  let missed := match v.running with
    | some r => if v.started then [] else [r.entry]
    | none => []
  let s := missed.foldl (fun s e => s.post 0 .heatExpired [e]) s
  let s := match incoming.or v.running with
    | some r => if r.heat.msiAddr = 0 then s else postMsi r.heat.msiAddr r.heat.msiData s
    | none => s
  let t := (incoming.map (·.heat.tenant)).getD 0
  let same := t == v.tenant
  let s := s.setPart p { v with
    lastBoundary := b
    heatSeq := v.heatSeq + 1
    running := incoming
    started := same
    expired := v.expired ++ missed
    switch := if same then none else some ⟨incoming, false⟩ }
  if same then s else markStops p (breakGangs (partCores v) s)

/-- Whether a core's threads, engines, entries and roles have come to rest (R389, R286, R305, R327). -/
def atRest (s : State) (k : Nat) : Bool :=
  let c := s.core k
  (c.threads.all fun t => hasStopped s ⟨k, t.1⟩ t.2 && t.2.unacked.isEmpty)
    && (c.queue.all fun e => decide (e.state = .heldPut)) && c.prints.isEmpty
    && c.eng.queue.isEmpty && c.eng.rows.isEmpty && c.eng.outs.isEmpty && c.eng.loads.isEmpty
    && c.stage.all fun st => st.spilling.isEmpty && st.spills.all fun x => !x.fetching

/-- The step that receives a reply which a switched-out core's image keeps (R389). -/
def Payload.replyStep : Payload → Option Instr
  | .status .. | .plain .. => some .hubAnswer
  | .spawnReply .. => some .spawnReply
  | .killReply .. => some .killReply
  | .migrateReply .. => some .migrateReply
  | _ => none

/-- Whether a partition has come to rest: its cores, what they have sent, and its launches. Replies that are on their way are
kept with the saved images. -/
def isQuiet (s : State) (p : Nat) : Bool :=
  let cores := partCores (s.part p)
  (cores.all (atRest s))
    && (s.net.all fun f => !cores.contains f.src && (!cores.contains f.dst || f.payload.replyStep.isSome || match f.cls with
      | .message | .counter | .data => true
      | _ => false))
    && s.hub.launches.all fun l => l.2.control || l.2.part != p || (l.2.toSend.isEmpty && l.2.loading.isEmpty)

/-- Whether an operation in flight is a reply to a core. -/
def repliesTo (k : Nat) (f : Flight) : Bool := f.dst == k && f.payload.replyStep.isSome

/-- A core's image as the hub keeps it: a thread without a noted TIME has stopped now (R378). -/
def keptImage (time : Nat) (c : Core) : Core :=
  c.mapCtx fun _ x => { x with stopped := some (x.stopped.getD time), fetch := none, fetching := false }

/-- The partition's save as the hub keeps it: the images, tasks, bindings, objects and crews (R242, R366, R389). -/
def savedOf (s : State) (p : Nat) (cores : List Nat) : Saved where
  part := p
  tenant := (s.part p).tenant
  seq := (s.part p).heatSeq
  cores := cores.map fun k => ⟨k, keptImage s.time (s.core k), [], [], s.net.filter (repliesTo k)⟩
  tasks := s.hub.tasks.filter fun t => t.2.part == p
  bindings := s.hub.bindings.filter fun b => b.part == p
  objects := s.hub.objects.filter fun o => o.part == p
  crews := s.hub.crews.filter fun c => c.2.members.any fun m => cores.contains m.1.core

/-- The save of the outgoing tenant (R389, R390): the reason and address of a failure. Its reads of the local stores correct
their single-bit errors (R183). -/
def saveTenant (p : Nat) (h : HeatRec) (s : State) : Option (Reason × Nat) × State :=
  let v := s.part p
  let cores := partCores v
  let s := cores.foldl (fun s k => correctWords k (s.core k).lsSingle s) s
  match writeRecords h.save (2 ^ h.saveLog2) 0 cores s with
  | (some f, s) => (some f, s)
  | (none, s) => match writeCommits h.save (2 ^ 63 + v.heatSeq % 2 ^ 32) 0 cores s with
    | (some va, s) => (some (.saveAreaFault, va), s)
    | (none, s) =>
      let kept := savedOf s p cores
      let s : State := { s with net := s.net.filter fun f => !cores.any (repliesTo · f) }
      (none, s.onHub fun x => { x with
        saved := (x.saved.filter fun o => !(o.part == p && o.tenant == v.tenant)) ++ [kept] })

/-! ### Restore (R391) -/

/-- A core record read whole; none where an address of it fails. -/
def readRecord (k base : Nat) (s : State) : Option (List Byte) × State :=
  match readVirtual (clusterOf k) (s.spaceOf k) 524288 base s with
  | (im, none, s) => (some im, s)
  | (_, some _, s) => (none, s)

/-- Whether a record restores: its commit word, and every image of its resident threads (R391). -/
def recordOkFor (seq : Nat) (im : List Byte) : Bool :=
  let commit := imageNat im 0 8
  let mask := imageNat im 0x10 8
  commit.testBit 63 && bits commit 0 32 == seq % 2 ^ 32
    && ((List.range 64).filter mask.testBit).all fun t =>
      (checkImage ((im.drop (0x10000 + 1024 * t)).take 1024) 0).isNone

/-- The records of cores, each checked: the base of the first that does not restore, or all of them. -/
def readRecords (save seq : Nat) : Nat → List Nat → State → Except Nat (List (Nat × List Byte)) × State
  | _, [], s => (.ok [], s)
  | i, k :: ks, s =>
    let base := save + 524288 * i
    match readRecord k base s with
    | (none, s) => (.error base, s)
    | (some im, s) =>
      if !recordOkFor seq im then (.error base, s)
      else match readRecords save seq (i + 1) ks s with
        | (.error b, s) => (.error b, s)
        | (.ok rs, s) => (.ok ((k, im) :: rs), s)

/-- A wait after a restore: no wake is counted, and the re-test is due in the order of the first attempts (R190, R198,
R310). -/
def WaitState.again (w : WaitState) : WaitState := { w with retest := true, wakes := 0, byWake := false, limited := false }

/-- A restored thread's park: an instruction that stands at the PC executes again (R198, R245, R352, R445), and an ACQ re-tests
its grant slot (R239). -/
def restart (now : Nat) (core : Core) (c : Ctx) : Ctx :=
  match c.parkReason with
  | 0 => { c with wait := c.wait.map WaitState.again }
  | 1 | 4 => { resume now c with wait := c.wait.map WaitState.again }
  | 2 | 3 | 7 | 8 => unpark now c
  | 6 => if holdsGrant core c then resume now c else c
  | 9 => if c.wait.isSome then unpark now c else c
  | _ => c

/-- A restored thread goes on, with its PREEMPT (R378); one that a failing reply has ended meanwhile ends as KILL ends it
(R374). -/
def resumeRestored (a : Actor) (s : State) : State :=
  if (s.ctx a).ending.isSome then killThread a (s.onCtx a fun c => { c with ending := none })
  else returned a (s.onCtx a (restart s.now (s.core a.core)))

/-- A kept reply on its way again. -/
def sendReply (f : Flight) (s : State) : State :=
  match f.payload.replyStep with
  | some step => s.sendAt f.eff f.cls f.src f.dst f.handle f.payload step
  | none => s

/-- What arrived for a core while its partition was switched out (R212, R317, R389). -/
def applyArrivals (x : SavedCore) (s : State) : State :=
  let s := x.replies.foldl (fun s f => sendReply f s) s
  let s := x.increments.foldl (fun s e => addCounter x.core e.1 e.2 s) s
  let s := s.onCore x.core fun c => { c with inbox := c.inbox ++ x.messages }
  if x.messages.isEmpty then s else wakeWhere x.core (fun c => c.parkReason == 3) s

/-- A kept save brought back (R242, R366, R391). The floor is what the boundary's curtain has left, 0 (R346, R366). -/
def restoreSaved (p now : Nat) (v : Saved) (rs : List (Nat × List Byte)) (s : State) : State :=
  let s := rs.foldl (fun s r =>
    let kept := ((v.cores.find? fun c => c.core == r.1).map (·.image)).getD Core.reset
    s.onCore r.1 (restoreCore r.2 kept now)) s
  let s := s.onHub fun h => { h with
    saved := h.saved.filter fun o => !(o.part == p && o.tenant == v.tenant)
    tasks := v.tasks.foldl (fun m t => Tbl.put m t.1 t.2) h.tasks
    bindings := h.bindings ++ v.bindings
    objects := h.objects ++ v.objects
    crews := v.crews.foldl (fun m c => Tbl.put m c.1 c.2) h.crews }
  let s := v.cores.foldl (fun s x => applyArrivals x s) s
  let s := rs.foldl (fun s r => (s.core r.1).threads.foldl (fun s t => resumeRestored ⟨r.1, t.1⟩ s) s) s
  let s := v.crews.foldl (fun s c => s.post 0 .crewPhaseComplete [c.1]) s
  let s := rs.foldl (fun s r => if (s.core r.1).stage.isSome then s.post 0 .recordDispatch [r.1] else s) s
  (s.post 0 .taskDispatch [p]).post 0 .taskCommit [p]

/-! ### Virtual interrupts (R418) -/

/-- A VIRTUAL_INTERRUPT record to the kernel of a partition. -/
def virtualInterrupt (p identity : Nat) (s : State) : State :=
  notice (s.part p).kernel (causeCode .async .virtualInterrupt) p 0 (word identity) 0 s

/-- The partition in whose heat a tenant runs. -/
def runningPart (s : State) (tenant : Nat) : Option Nat :=
  if tenant = 0 then none
  else (s.hub.parts.find? fun e => e.2.valid && e.2.tenant == tenant && e.2.switch.isNone).map (·.1)

/-- Whether the interrupt file of a tenant lies in a stack that accepts no command (R437). (DEDUCED, log entry 34.) -/
def filesShut (s : State) (tenant : Nat) : Bool :=
  let file := (Map.get 0 s.hub.vifbase tenant).toNat
  file != 0 && hitsShut s file 520

/-- VIPOST (R418): the pending bit is set in the tenant's file, or the post is discarded; the reserved bits of the write are
ignored (R9), and it waits at a stack that accepts no command (R437; DEDUCED, log entry 34). (DEDUCED, log entry 31.) -/
def execVipost (s : State) : Result :=
  let x := s.arg 0
  let identity := bits x 0 11
  let tenant := bits x 16 8
  let file := (Map.get 0 s.hub.vifbase tenant).toNat
  .next (if identity = 0 then s
  else if filesShut s tenant then s.post 1 .vipost s.args
  else if file = 0 ∨ inRanges (frameOf file) = false ∨ bits x 32 32 ≠ s.physRead file 8 then s.onHub fun h => { h with vidrop := h.vidrop + 1 }
  else
    let at_ := file + 8 + identity / 8
    let bit := 2 ^ (identity % 8)
    let s := s.physPut at_ (bytesOfNat 1 (s.physRead at_ 1 ||| bit))
    match runningPart s tenant with
    | some p => if (s.physRead (file + 264 + identity / 8) 1).testBit (identity % 8) then virtualInterrupt p identity s else s
    | none => s)

/-- One record for each pending, enabled identity of a tenant whose heat starts (R418). -/
def pendingInterrupts (p tenant : Nat) (s : State) : State :=
  let file := (Map.get 0 s.hub.vifbase tenant).toNat
  if file = 0 ∨ inRanges (frameOf file) = false then s
  else
    let hit := s.physRead (file + 8) 256 &&& s.physRead (file + 264) 256
    ((List.range 2047).map (· + 1)).foldl (fun s i => if hit.testBit i then virtualInterrupt p i s else s) s

/-! ### Remapping retired cores (R11) -/

/-- A retired core is mapped to the lowest free understudy of its die, and the supervisor is told (DEDUCED, log entry 31); where
none is free it stays unmapped, and nobody is told (DESIGN CHOICE, log entry 53). -/
def remapCore (k : Nat) (s : State) : State :=
  let core := s.core k
  if !core.retired || core.unmapped then s
  else
    let d := s.die (dieOf k)
    match d.understudies with
    | [] => s.setCore k { core with unmapped := true }
    | u :: rest =>
      let s := s.setDie (dieOf k) { d with understudies := rest, remaps := Tbl.put d.remaps k u }
      let s := s.setCore k { core with
        retired := false
        ls := []
        lsState := []
        lsBad := []
        lsSingle := []
        lsHealed := [] }
      notice (s.kernelOf k) (causeCode .async .coreRetired) (s.recordPart k) 0 0 (dieOf k) s

/-- CORE_REMAP (R11): at the first moment at which the partition is idle; a heat boundary may come first. -/
def execCoreRemap (s : State) : Result :=
  let k := s.arg 0
  .next (match s.partOf k with
    | some p =>
      if (s.core k).retired = false ∨ (s.core k).unmapped = true then s
      else if isIdlePart s p then remapCore k s
      else s.post 1 .coreRemap [k]
    | none => s)

/-! ### HEAT_BOUNDARY and HEAT_EXPIRED -/

/-- Whether the records of cores lie where their tenant's link slots, or a stack that accepts no command, keep them from being
read or written (R414, R437). -/
def awaitsRecords (s : State) (p save : Nat) : Bool :=
  ((partCores (s.part p)).zipIdx).any fun e => (List.range 8).any fun j =>
    awaitsMemory s (clusterOf e.1) p (save + 524288 * e.2 + 65536 * j) 65536

/-- The end of a boundary's steps: the tenant's interrupts, and the launches look again. -/
def openHeat (p : Nat) (s : State) : State :=
  let v := s.part p
  let s := if v.tenant = 0 then s else pendingInterrupts p v.tenant s
  s.hub.launches.foldl (fun s l => s.post 0 .launchPlacement [l.1]) s

/-- The restore of the incoming tenant (R391), once the link slots and the stacks allow it. -/
def restoreHeat (p : Nat) (s : State) : State :=
  let v := s.part p
  let cores := partCores v
  if v.tenant != 0 && filesShut s v.tenant then s
  else match v.heat, s.hub.saved.find? fun o => o.part == p && o.tenant == v.tenant with
  | some h, some kept =>
    if awaitsRecords s p h.save then s
    else match readRecords h.save kept.seq 0 cores (onPart p (fun v => { v with switch := none }) s) with
      | (.error base, s) =>
        openHeat p (notice v.kernel (causeCode .async .restoreInvalid) p 0 (word base) 0
          (onPart p (fun v => { v with barred := true }) s))
      | (.ok rs, s) => openHeat p (writeCommits h.save 0 0 cores (restoreSaved p s.now kept rs s)).2
  | _, _ => openHeat p (onPart p (fun v => { v with switch := none }) s)

/-- The incoming side of a boundary, after the save: remap, curtain, token, and the restore or an empty start (R413). -/
def enterHeat (p : Nat) (incoming : Option Run) (s : State) : State :=
  let v := s.part p
  let cores := partCores v
  let s := cores.foldl (fun s k => remapCore k s) s
  let refused := cores.any fun k => (s.core k).unmapped
  let run := incoming.filter fun r => !refused && decide (s.time < r.until_)
  let t := (run.map (·.heat.tenant)).getD 0
  let s := curtain p 0x3FF v.tenant t s
  restoreHeat p (onPart p (fun v => { v with
    tenant := t
    heat := run.map (·.heat)
    started := run.isSome
    switch := some ⟨incoming, true⟩
    barred := false }) s)

/-- HEAT_BOUNDARY (R413): the instant of a boundary, then, once the partition has come to rest, its steps. -/
def execHeatBoundary (s : State) : Result :=
  let p := s.arg 0
  let v := s.part p
  .next (match v.switch with
    | some w =>
      if w.restoring then (restoreHeat p s).post 1 .heatBoundary [p]
      else if !isQuiet s p then (markStops p s).post 1 .heatBoundary [p]
      else
        match v.heat with
        | some h =>
          if v.barred then (enterHeat p w.incoming s).post 0 .heatBoundary [p]
          else if awaitsRecords s p h.save then s.post 1 .heatBoundary [p]
          else match saveTenant p h s with
            | (some (r, va), s) =>
              notice v.kernel (causeCode .async r) p 0 (word va) 0
                ((unmarkStops p (onPart p (fun v => { v with switch := none }) s)).post 0 .heatBoundary [p])
            | (none, s) => (enterHeat p w.incoming s).post 0 .heatBoundary [p]
        | none => (enterHeat p w.incoming s).post 0 .heatBoundary [p]
    | none => match nextBoundary s p with
      | some b =>
        if v.valid = true ∧ b ≤ s.time then (crossBoundary p b s).post 0 .heatBoundary [p] else s
      | none => s)

/-- HEAT_EXPIRED (R413): an occurrence of a sheet entry has passed without starting. -/
def execHeatExpired (s : State) : Result :=
  let i := s.arg 0
  .next (match s.hub.parts.find? fun e => e.2.expired.contains i with
    | some (p, v) =>
      notice v.kernel (causeCode .async .heatExpired) p 0 0 0 (s.setPart p { v with expired := v.expired.erase i })
    | none => s)

/-! ### Link slots (R414) -/

/-- The link slot that is open at a TIME. -/
def slotAt (time : Nat) : Nat := time % 32768 / 512

/-- LINK_SLOT_OPEN (R414): what waits for its slot is looked at again each cycle. -/
def execLinkSlotOpen (s : State) : Result :=
  .next (if slotAt s.time = s.arg 0 then s.onHub fun h => { h with linkOpen := s.arg 0 } else s)

end Sys2Proof.Machine
end

