-- ==== Sys2Proof/Machine/Platform.lean ====
section
/-! DEFINITION. The platform (chapter 23), the debugger's and the snapshot's steps (R392 to R395): boot and life cycle,
monitor calls, management ownership, snapshots, temperature and power. -/

namespace Sys2Proof.Machine

/-- The state with the platform changed. -/
def onPlat (f : Platform → Platform) (s : State) : State := { s with plat := f s.plat }

/-! ### The debugger (R392, R393) -/

/-- DBGHALT (R393): HALT bits halt their threads, cleared bits resume them. -/
def execDbghalt (s : State) : Result :=
  let k := s.arg 1
  let v := s.arg 2
  .next (if !mayDebug s (s.arg 0) then s
  else s.onCore k fun c =>
    { c.mapCtx fun t x => { x with halted := x.halted && v.testBit t } with dbgHalt := word v })

/-- The copy and tier entries of a core that wait for their service are due again. -/
def kickEntries (k : Nat) (s : State) : State :=
  (s.core k).queue.foldl (fun s e => if e.state = .waiting then s.post 0 .copyEntryService [k, e.id] else s) s

/-- DBGCTL (R393): FREEZE stops the core's engines at boundaries; cleared, it lets them run on. -/
def execDbgctl (s : State) : Result :=
  let k := s.arg 1
  let v := s.arg 2
  .next (if !mayDebug s (s.arg 0) then s
  else
    let s := s.onCore k fun c => { c with dbgCtl := word (v % 4) }
    if v % 2 = 0 then kickEntries k (kickEngine k s) else s)

/-! ### Snapshots (R394, R435, R436) -/

/-- A core's block: DBGQ, then four words per slot. -/
def coreBlock (head : List Word) (c : Core) : List Word :=
  let slotWords (i : Nat) : List Word := match c.threads.find? fun e => e.2.place == .live i with
    | some e => [word e.2.handle, e.2.pc, word e.2.parkWord, e.2.xcause.setWidth 64]
    | none => [0, 0, 0, 0]
  head ++ [word (dbgq c)] ++ List.replicate 5 0 ++ (List.range 16).flatMap slotWords

/-- Every block of the snapshot window that holds more than its head, and every block's head (R436). -/
def snapshotBlocks (s : State) (tag cause : Nat) : Tbl (List Word) :=
  let head : List Word := [word s.time, word (tag % 2 ^ 16 + 2 ^ 16 * (if cause = 512 then 0 else cause))]
  let core (k : Nat) : List Word := match Tbl.get? s.cores k with
    | some c => coreBlock head c
    | none => head
  let cluster (g : Nat) : List Word :=
    head ++ ((List.range 16).map fun i => word (dbgq (s.core (16 * g + i)))) ++ [word (s.die (g / 64)).keys.length]
  let umpire : List Word :=
    head ++ ((List.range 256).map fun i => word (((Tbl.get? s.hub.queues i).map (·.read)).getD 0))
      ++ (List.range 16).map fun w => word ((List.range 16).foldl (fun x i => x + 16 ^ i * (s.cluster (16 * w + i)).permits) 0)
  let hub : List Word :=
    head ++ ((List.range 64).map fun p => word (floorOf s p)) ++ [0] ++ (List.range 15).map fun n => (s.faultQueue (n + 1)).tail
  let stack (i : Nat) : List Word :=
    head ++ ((List.range 16).map fun l => word (Map.get 0 s.plat.temps (16 * i + l))) ++ [word (Map.get 0 s.plat.stackState i)]
  ((List.range 4105).map fun k => (k, core k)) ++ ((List.range 256).map fun g => (4112 + g, cluster g))
    ++ [(4368, umpire), (4369, hub)] ++ (List.range 12).map fun i => (4370 + i, stack i)

/-- A firing latches every block; one within 65,536 cycles of the previous is ignored (R394). `notify` sends the
records. -/
def fireSnapshot (tag cause : Nat) (notify : State → State) (s : State) : State :=
  if s.plat.lastFiring.any fun t => decide (s.now < t + 65536) then s
  else
    let blocks := snapshotBlocks s tag cause
    notify (onPlat (fun p => { p with snapshot := blocks, lastFiring := some s.now }) s)

/-- A SNAPSHOT_TAKEN record. -/
def snapshotTaken (kernel part tag : Nat) (s : State) : State :=
  notice kernel (causeCode .async .snapshotTaken) part 0 (word tag) 0 s

/-- SNAPSHOT_FIRING (R394): the record goes to the kernel of the space where the trigger arose; the Umpire's has none. -/
def execSnapshotFiring (s : State) : Result :=
  let tag := s.arg 0
  let space := s.arg 2
  .next (fireSnapshot tag (s.arg 1) (fun s =>
    if space < 64 then snapshotTaken (s.part space).kernel space tag s
    else if 64 < space ∧ space < 80 then snapshotTaken (space - 64) 0xFF tag s
    else s) s)

/-- The kernels with a fault queue: one that is absent under R375 is none. -/
def queuedKernels (s : State) : List Nat :=
  ((List.range 15).map (· + 1)).filter fun k => ringPresent s k (s.faultQueue k).base

/-- SNAPSHOT_PIN (R394): an edge while PEN is 1 fires with tag 0, and every kernel with a fault queue is told. -/
def execSnapshotPin (s : State) : Result :=
  .next (if s.plat.snapctl.getLsbD 10 then
    fireSnapshot 0 512 (fun s => (queuedKernels s).foldl (fun s k => snapshotTaken k 0xFF 0 s) s) s
  else s)

/-- Whether a core's threads may issue at all: the device has booted and its wipe has ended (R427, R430), the core has not
been stopped or retired, and its partition neither crosses a boundary nor is kept from issuing by a failed restore (R184, R373,
R391, R413). -/
def mayIssue (s : State) (k : Nat) : Bool :=
  !inReset s && !(s.core k).stopped && !(s.core k).retired && match s.partOf k with
    | some p => (s.part p).switch.isNone && !(s.part p).barred
    | none => true

/-- Whether a gang reduction that a thread has joined has its result, so that its turn completes it (R169). -/
def Ctx.isCombined (c : Ctx) : Bool := decide (c.status = .waiting) && c.reduction.any (·.result.isSome)

/-- Whether a thread is ready (R17): it runs in a live slot past its occupancy, waits for no fill and nothing holds it. A
thread that the engine holds runs its instruction to the end first (R268), and so does one whose gang reduction has its result
(R169). -/
def isReadyThread (s : State) (k t : Nat) (c : Ctx) : Bool :=
  let core := s.core k
  c.isLive && decide (c.readyAt ≤ s.now) &&
    ((c.isCombined && !core.stopped && !inReset s) ||
      (decide (c.status = .running) && !c.fetching &&
        (core.holds t || (!core.halts t c && !c.suspended && c.ending.isNone && mayIssue s k))))

/-- The ready threads of a core with their contexts. -/
def readyThreads (s : State) (k : Nat) : List (Nat × Ctx) :=
  (s.core k).threads.filter fun e => isReadyThread s k e.1 e.2

/-- The threads of a core that are ready to issue; a context that the engine holds is not ready (R268). -/
def waitingThreads (s : State) (k : Nat) : List (Nat × Ctx) := (readyThreads s k).filter fun e => !(s.core k).holds e.1

/-- Whether a core has held a ready context and issued nothing for 2^24 cycles (R395). -/
def isIdleTooLong (s : State) (k : Nat) : Bool :=
  !(waitingThreads s k).isEmpty && decide (max (s.core k).nextIssue ((s.core k).readySince + 1) + 2 ^ 24 ≤ s.now + 1)

/-- WATCHDOG (R395): the record names the lowest ready thread; the count begins again. -/
def execWatchdog (s : State) : Result :=
  let k := s.arg 0
  let c := s.core k
  .next (match (waitingThreads s k).head? with
    | some e =>
      if isIdleTooLong s k then
        notice (s.kernelOf k) (causeCode .async .watchdog) (s.recordPart k) e.2.handle 0 (dieOf k)
          (s.setCore k { c with nextIssue := s.now + 1 })
      else s
    | none => s)

/-! ### Management ownership and DEVID (R434, R440) -/

/-- A claim by the master with an ID: taken if there is no owner, or if HANDTO names the claimer (R434). -/
def claimBy (id : Nat) (s : State) : State :=
  if s.plat.owner = 0 ∨ s.plat.handTo = id then onPlat (fun p => { p with owner := id, handTo := 0 }) s else s

/-- A master's write of MGMTOWN without its claim (R434): the owner's RELEASE, or its HANDTO. A write with RELEASE does only
the release (DESIGN CHOICE, log entry 33). -/
def ownerWrite (m value : Nat) (s : State) : State :=
  if !isOwner s m then s
  else if bits value 11 1 = 1 then onPlat (fun p => { p with owner := 0, handTo := 0 }) s
  else onPlat (fun p => { p with handTo := bits value 8 3 }) s

/-- MGMT_CLAIM (R434): a write with a claim; one that names another master's ID is ignored. -/
def execMgmtClaim (s : State) : Result :=
  let m := s.arg 0
  let id := ownerCode m
  .next (if id = 0 ∨ bits (s.arg 1) 4 3 ≠ id then s
  else if isOwner s m = true ∧ bits (s.arg 1) 11 1 = 1 then ownerWrite m (s.arg 1) s
  else claimBy id (ownerWrite m (s.arg 1) s))

/-- MGMT_RELEASE (R434): a write without a claim. -/
def execMgmtRelease (s : State) : Result := .next (ownerWrite (s.arg 0) (s.arg 1) s)

/-- DEVID_WRITE (R440). -/
def execDevidWrite (s : State) : Result :=
  .next (if isOwner s (s.arg 0) ∧ s.plat.devidWritten = false then
    onPlat (fun p => { p with devid := bits (s.arg 1) 0 14, devidWritten := true }) s
  else s)

/-- LINK_TRAINING (R441): TIME is the domain's count, or starts at the end of this reset where no port has trained. It
ends before any core issues. (DESIGN CHOICE, log entry 4.) -/
def execLinkTraining (s : State) : Result :=
  .next (if s.plat.trained then s
  else { onPlat (fun p => { p with trained := true }) s with time := if s.arg 0 = 1 then s.arg 1 else 0 })

/-! ### Boot (R426 to R429) -/

/-- A byte of the boot flash. -/
def Platform.flashByte (p : Platform) (a : Nat) : Byte := (Tbl.get? p.flash a).getD (Config.factoryFlash a)

/-- Bytes of the boot flash. -/
def Platform.flashBytes (p : Platform) (a : Nat) : Nat → List Byte
  | 0 => []
  | n + 1 => p.flashByte a :: p.flashBytes (a + 1) n

/-- Bytes written into the boot flash. -/
def Platform.flashPut (p : Platform) (a : Nat) : List Byte → Platform
  | [] => p
  | b :: bs => ({ p with flash := Tbl.put p.flash a b }).flashPut (a + 1) bs

/-- One bit of the CRC-32 register. -/
def crcStep (c : Nat) : Nat := if c % 2 = 1 then (c / 2) ^^^ 0xEDB88320 else c / 2

/-- CRC-32 with the IEEE 802.3 polynomial. -/
def crc32 (bs : List Byte) : Nat :=
  (bs.foldl (fun c b => (List.range 8).foldl (fun c _ => crcStep c) (c ^^^ b.toNat)) 0xFFFFFFFF) ^^^ 0xFFFFFFFF

/-- A marker copy's address. -/
def markerAt (i : Nat) : Nat := 0x1000 * i
/-- A boot slot's address. -/
def slotBase (slot : Nat) : Nat := if slot = 0 then 0x1000000 else 0x5000000

/-- The contents of a marker copy: magic, slot, sequence, CRC (R426). -/
def markerBytes (slot seq : Nat) : List Byte :=
  let head := [0x46, 0x59, 0x4D, 0x4B].map (BitVec.ofNat 8) ++ bytesOfNat 1 slot ++ bytesOfNat 3 0 ++ bytesOfNat 8 seq
  head ++ bytesOfNat 4 (crc32 head) ++ bytesOfNat 12 0

/-- The slot and sequence of a valid marker copy (R426). -/
def readMarker (p : Platform) (i : Nat) : Option (Nat × Nat) :=
  let b := p.flashBytes (markerAt i) 32
  let slot := field b 4 1
  let seq := field b 8 8
  if slot ≤ 1 ∧ b = markerBytes slot seq then some (slot, seq) else none

/-- The fields of an image header that is well formed: the image's size, its SVN and version, and the place of the signature in
its slot, whose flash offset the header gives. Image and signature lie in the 64 MiB of the slot (R426, R427). -/
def imageHeader (base : Nat) (b : List Byte) : Option (Nat × Nat × Nat × Nat) :=
  match Config.bootHeader b with
  | some (size, svn, version, at_) =>
    if 64 + size ≤ 2 ^ 26 ∧ base ≤ at_ ∧ at_ + 2820 ≤ base + 2 ^ 26 then some (size, svn % 2 ^ 16, version, at_ - base) else none
  | none => none

/-- The SVN and version of an image whose header and signature check under the key of the fused hash, given the flash offset of
its slot and its bytes by their place in it (R427). (DESIGN CHOICE, log entry 9.) -/
def checkedImage (keyHash : W256) (base : Nat) (read : Nat → Nat → List Byte) : Option (Nat × Nat) :=
  match imageHeader base (read 0 64) with
  | some (size, svn, version, at_) =>
    let key := (List.range 64).map Config.bootKeyByte
    if Keccak.shake256 key 32 = bytesOfNat 32 keyHash.toNat ∧ Xmss.verifies key (read 0 (64 + size)) (read at_ 2820) = true then
      some (svn, version)
    else none
  | none => none

/-- The bytes of a boot slot by their place in it. -/
def slotBytes (p : Platform) (slot o n : Nat) : List Byte := p.flashBytes (slotBase slot + o) n

/-- The SVN and version of a slot that verifies (R427). -/
def verifiedSlot (p : Platform) (slot : Nat) : Option (Nat × Nat) :=
  (checkedImage p.keyHash (slotBase slot) (slotBytes p slot)).filter fun v => decide (p.minSvn ≤ v.1)

/-- The valid marker copies by their number, in descending order of sequence. -/
def markers (p : Platform) : List (Nat × Nat × Nat) :=
  let ms := [0, 1].filterMap fun i => (readMarker p i).map fun m => (i, m.1, m.2)
  match ms with
  | [a, b] => if a.2.2 < b.2.2 then [b, a] else [a, b]
  | ms => ms

/-- What the boot ROM boots: the slot, its SVN and version (R427). -/
def bootChoice (p : Platform) : Option (Nat × Nat × Nat) :=
  (markers p).findSome? fun m => (verifiedSlot p m.2.1).map fun v => (m.2.1, v.1, v.2)

/-- The wipe of R430: memory, local stores, the wings, the planes, caches and fetch buffers, the commit buffer, the inboxes and
the channels, of saved images too. The deed table takes its reset values. -/
def wipe (s : State) : State :=
  let unheld (c : Core) : Core := { c with queue := c.queue.filter fun e => decide (e.state ≠ .heldPut) }
  let unput (ts : Tbl Task) : Tbl Task := ts.map fun t => (t.1, { t.2 with puts := [] })
  let clear (c : Core) : Core := { c with
    ls := []
    lsState := []
    lsBad := []
    lsSingle := []
    lsHealed := []
    threads := (c.threads.filter fun t => t.2.isLive).map fun t => (t.1, { t.2 with fetch := none })
    eng := Engine.reset
    icache := []
    queue := (unheld c).queue
    inbox := []
    chans := []
    credits := [] }
  let s := { s with
    dram := []
    dramBad := []
    cores := s.cores.map fun (c : Nat × Core) => (c.1, clear c.2)
    clusters := s.clusters.map fun (c : Nat × Cluster) => (c.1, { c.2 with icache := [], tlb := [] }) }
  let s := s.onHub fun h => { h with
    deeds := []
    lines := []
    transits := []
    tasks := unput h.tasks
    saved := h.saved.map fun v => { v with
      tasks := unput v.tasks
      cores := v.cores.map fun c => { c with image := unheld c.image } } }
  (onPlat (fun p => { p with wiping := true }) s).post 0 .wipeComplete []

/-! ### Hot stacks (R437) -/

/-- A notice to every kernel. (DESIGN CHOICE, log entry 33.) -/
def noticeAll (r : Reason) (s : State) : State :=
  ((List.range 15).map (· + 1)).foldl (fun s k => notice k (causeCode .async r) 0xFF 0 0 0 s) s

/-- A temperature as the sensors report it, signed. -/
def degrees (t : Nat) : Int := signedNat 16 t

/-- A threshold's bit with its hysteresis of 5 °C (R437). -/
def threshold (limit : Int) (hot : Int) (was : Bool) : Bool := decide (limit ≤ hot) || (was && decide (limit - 5 < hot))

/-- A stack acts on its hottest layer (R437). (DEDUCED, log entry 34.) -/
def actStack (i : Nat) (s : State) : State :=
  let hot := (List.range 16).foldl (fun m l => max m (degrees (Map.get 0 s.plat.temps (16 * i + l)))) (-32768)
  let old := Map.get 0 s.plat.stackState i
  let pending := threshold 105 hot (old.testBit 2)
  let new := (if threshold 85 hot (old.testBit 0) then 1 else 0) + (if threshold 95 hot (old.testBit 1) then 2 else 0)
    + (if pending then 4 else 0)
  let s := onPlat (fun p => { p with stackState := Map.set 0 p.stackState i new }) s
  if pending && !old.testBit 2 then
    noticeAll .thermalShutdownPending
      (onPlat (fun p => { p with shutdownAt := some (p.shutdownAt.getD (s.time + 100000)) }) s)
  else s

/-- What a reset keeps: fuses, flash, the engine's keys, the sensors and what the stacks do of their heat (DEDUCED, log entry 34), the
fabric, and the machine's own counts. -/
def afterReset (s : State) : State :=
  let r := State.reset
  { r with
    now := s.now
    resetAt := s.now
    ids := s.ids
    fresh := s.fresh
    tape := s.tape
    fabric := s.fabric
    msis := s.msis
    agenda := r.agenda.map fun d => { d with at_ := s.now }
    hub := { r.hub with
      ctlKernel := s.hub.ctlKernel
      admissionKey := s.hub.admissionKey
      admissions := s.hub.admissions
      signIndex := s.hub.signIndex }
    plat := { r.plat with
      lifeCycle := s.plat.lifeCycle
      minSvn := s.plat.minSvn
      svnRises := s.plat.svnRises
      flash := s.plat.flash
      keyHash := s.plat.keyHash
      signKey := s.plat.signKey
      signPrf := s.plat.signPrf
      publicKey := s.plat.publicKey
      temps := s.plat.temps
      stackState := s.plat.stackState
      shutdownAt := s.plat.shutdownAt.map fun t => r.time + (t - s.time)
      power := s.plat.power } }

/-- RESET (R427, R430): the boot ROM's choice, and the wipe begins; a stack whose layers are hot acts at once (R437). -/
def execReset (s : State) : Result :=
  let s := (List.range 12).foldl (fun s i => actStack i s) (afterReset s)
  .next (match bootChoice s.plat with
    | some (slot, svn, version) =>
      onPlat (fun p => { p with bootSlot := some slot, runSvn := svn, version := version }) s
    | none => onPlat (fun p => { p with bootSlot := none, bootFail := true }) s)

/-- The Umpire takes up its work as the device leaves its reset: queues and launches are looked at. -/
def leaveReset (s : State) : State :=
  (s.hub.launches.foldl (fun s l => s.post 0 .launchPlacement [l.1]) s).post 0 .umpireQueueSelect []

/-- WIPE_COMPLETE (R430): every frame outside the reserved ones is OWNED by kernel 0. No memory is zeroed in a stack that accepts no
command (R437). -/
def execWipeComplete (s : State) : Result :=
  .next (if s.anyShut then s.post 1 .wipeComplete [] else leaveReset (onPlat (fun p => { p with wiping := false }) s))

/-- RECOVERY_IMAGE (R427): a device that has failed to boot takes an image from the management owner through the mailbox.
The argument spells the image's bytes, header first, as they would stand in boot slot 0 (DESIGN CHOICE, log entry 33). -/
def execRecoveryImage (s : State) : Result :=
  let x := s.arg 1
  .next (if s.plat.bootFail = false ∨ isOwner s (s.arg 0) = false then s
  else match (checkedImage s.plat.keyHash (slotBase 0) fun o n => bytesOfNat n (x / 256 ^ o)).filter fun v =>
      decide (s.plat.minSvn ≤ v.1) with
    | some v => leaveReset (onPlat (fun p => { p with bootFail := false, runSvn := v.1, version := v.2 }) s)
    | none => s)

/-- RAISESVN (R428): what counts is the SVN in the headers of the slots that the marker copies name. -/
def execRaisesvn (s : State) : Result :=
  let p := s.plat
  let named (i : Nat) : Bool := match readMarker p i with
    | some m => (imageHeader (slotBase m.1) (slotBytes p m.1 0 64)).any fun h => decide (p.runSvn ≤ h.2.1)
    | none => false
  .next (if isOwner s (s.arg 0) ∧ named 0 = true ∧ named 1 = true ∧ p.minSvn < p.runSvn ∧ p.svnRises < 64 then
    onPlat (fun p => { p with minSvn := p.runSvn, svnRises := p.svnRises + 1 }) s
  else s)

/-- Bytes drawn from on-die entropy, free values (R431). -/
def entropy (n : Nat) (s : State) : List Byte × State :=
  ((List.range n).map fun i => Config.entropyByte (s.fresh + i), { s with fresh := s.fresh + n })

/-- A key of 32 bytes. -/
def key256 (b : List Byte) : W256 := BitVec.ofNat 256 (natOfBytes b)

/-- LIFE_CYCLE_TRANSITION (R430, R431): the owner moves to the next state; the device wipes, and the keys are made or
zeroised. (DESIGN CHOICE, log entry 33.) -/
def execLifeCycleTransition (s : State) : Result :=
  let t := s.arg 1
  .next (if isOwner s (s.arg 0) = false ∨ t ≠ s.plat.lifeCycle + 1 ∨ 3 < t then s
  else
    let s := wipe (onPlat (fun p => { p with lifeCycle := t }) s)
    if t = 1 then
      let (key, s) := entropy 32 s
      let (sign, s) := entropy 32 s
      let (prf, s) := entropy 32 s
      let (seed, s) := entropy 32 s
      onPlat (fun p => { p with signKey := key256 sign, signPrf := key256 prf, publicKey := Xmss.publicKey sign seed })
        (s.onHub fun h => { h with admissionKey := natOfBytes key, signIndex := 0 })
    else if t = 3 then
      onPlat (fun p => { p with signKey := 0, signPrf := 0 }) (s.onHub fun h => { h with admissionKey := 0, signIndex := 2 ^ 40 })
    else s)

/-! ### Monitor calls (R432, R433) -/

/-- Whether a thread waits for the answer to a monitor call that `p` takes. -/
def Ctx.callsFor (p : Nat → Bool) (c : Ctx) : Bool := decide (c.status = .waiting) && c.calling.any p

/-- A monitor call answers in g4 and the thread goes on; no other call of the thread is answered. -/
def monitorAnswer (p : Nat → Bool) (x : Word) (s : State) : State :=
  s.onCtx ⟨s.arg 0, s.arg 1⟩ fun c => if c.callsFor p then { resume s.now (c.wg 4 x) with calling := none } else c

/-- Whether the monitor call is still to be answered. -/
def isCalling (p : Nat → Bool) (s : State) : Bool := (s.ctx? ⟨s.arg 0, s.arg 1⟩).any (·.callsFor p)

/-- MONITOR_VERSION (R433). -/
def execMonitorVersion (s : State) : Result :=
  .next (monitorAnswer (· == 0) (word (s.plat.version % 2 ^ 32 + 2 ^ 32 * (s.plat.runSvn % 2 ^ 16))) s)

/-- A signed image at a physical address in frames that a kernel holds: its bytes by offset. -/
def physImage (s : State) (kernel pa : Nat) (o n : Nat) : List Byte :=
  if (framesOf (pa + o) n).all fun f => (s.deedCheck kernel f).isNone then s.physBytes (pa + o) n else []

/-- How many bytes a signed image has, by its header as it would stand in a slot: up to the end of the monitor, or of its
signature. -/
def bootImageSize (s : State) (slot kernel pa : Nat) : Nat :=
  match imageHeader (slotBase slot) (physImage s kernel pa 0 64) with
  | some h => max (64 + h.1) (h.2.2.2 + 2820)
  | none => 0

/-- Whether a caller's image lies in a stack that accepts no command (R437). (DEDUCED, log entry 34.) -/
def imageShut (s : State) (slot pa : Nat) : Bool :=
  hitsShut s pa 64 || hitsShut s pa (bootImageSize s slot (s.kernelOf (s.arg 0)) pa)

/-- The SVN and version of a signed image in memory that the caller holds, as it would stand in a slot.
(DESIGN CHOICE, log entry 33.) -/
def callerImage (s : State) (slot pa : Nat) : Option (Nat × Nat) :=
  let kernel := s.kernelOf (s.arg 0)
  let held (n : Nat) : Bool := (framesOf pa n).all fun f => (s.deedCheck kernel f).isNone
  if !held 64 || !held (bootImageSize s slot kernel pa) then none
  else checkedImage s.plat.keyHash (slotBase slot) (physImage s kernel pa)

/-- Whether a thread of a tenant is resident. -/
def tenantResident (s : State) (t : Nat) : Bool :=
  s.hub.parts.any fun e => e.2.valid && e.2.tenant == t && (partCores e.2).any fun k => !(s.core k).threads.isEmpty

/-- POLICYLOAD (R433): an image of a version is held once however many tenants pin it, eight in all (R432). -/
def execPolicyload (s : State) : Result :=
  let c := s.ctx ⟨s.arg 0, s.arg 1⟩
  let tenant := (c.rg 6).toNat
  let answer := monitorAnswer (· == 1)
  .next (if !isCalling (· == 1) s then s
  else if imageShut s 0 (c.rg 5).toNat then s.post 1 .policyload s.args
  else match callerImage s 0 (c.rg 5).toNat with
    | none => answer 1 s
    | some (_, version) =>
      let others := s.plat.policies.filter fun p => p.tenant != tenant
      if tenantResident s tenant then answer 2 s
      else if !(others.any fun p => p.image == version) ∧ 8 ≤ ((others.map (·.image)).eraseDups).length then answer 3 s
      else answer 0 (onPlat (fun p => { p with policies := others ++ [⟨tenant, version⟩] }) s))

/-- Where an update goes (R429): the slot that no valid copy with the highest sequence names, and the marker copy that is
rewritten first, the one with the lower sequence. -/
def updatePlace (p : Platform) : Nat × Nat :=
  match markers p with
  | [a, b] => (1 - a.2.1, b.1)
  | [a] => (1 - a.2.1, 1 - a.1)
  | _ => (0, 0)

/-- The range of the flash that an update writes in its present step, and what it writes there (R429). -/
def writtenNow (u : Update) : Nat × List Byte :=
  match u.phase with
  | 1 => (slotBase u.slot, u.image)
  | 2 => (markerAt u.first, markerBytes u.slot u.seq)
  | _ => (markerAt (1 - u.first), markerBytes u.slot u.seq)

/-- A step of an update, for the call that has asked for it: its write, then the next step, or the answer. An image that does
not verify in its slot leaves the markers alone; after the last step each unit takes the update up in its own time (R432). -/
def updateStep (u : Update) (s : State) : State :=
  let w := writtenNow u
  let s := onPlat (fun p => p.flashPut w.1 w.2) s
  let answer := monitorAnswer (· == 2)
  if u.phase = 1 ∧ (verifiedSlot s.plat u.slot).isNone then answer 1 (onPlat (fun p => { p with updating := none }) s)
  else if u.phase < 3 then
    (onPlat (fun p => { p with updating := some { u with phase := u.phase + 1 } }) s).post 1 .monstage s.args
  else
    let s := answer 0 (onPlat (fun p => { p with updating := none, staged := some (u.version + 2 ^ 32 * u.svn) }) s)
    (List.range 257).foldl (fun s u => adoptUpdate u s) s

/-- MONSTAGE (R433): the image is verified, then written and flipped in the three steps of R429; a second call waits until the
update under way has ended (DESIGN CHOICE, log entry 33). -/
def execMonstage (s : State) : Result :=
  let a : Actor := ⟨s.arg 0, s.arg 1⟩
  let c := s.ctx a
  let pa := (c.rg 5).toNat
  let place := updatePlace s.plat
  .next (match s.plat.updating with
    | some u => if u.caller = a then updateStep u s else if isCalling (· == 2) s then s.post 1 .monstage s.args else s
    | none =>
      if !isCalling (· == 2) s then s
      else if imageShut s place.1 pa then s.post 1 .monstage s.args
      else match (callerImage s place.1 pa).filter fun v => decide (s.plat.minSvn ≤ v.1) with
        | none => monitorAnswer (· == 2) 1 s
        | some v =>
          let u : Update := {
            caller := a
            slot := place.1
            seq := (((markers s.plat).head?).map (·.2.2)).getD 0 + 1
            first := place.2
            image := physImage s (s.kernelOf a.core) pa 0 (bootImageSize s place.1 (s.kernelOf a.core) pa)
            version := v.2
            svn := v.1
            phase := 1 }
          (onPlat (fun p => { p with updating := some u }) s).post 1 .monstage s.args)

/-- MONITOR_UPDATE_APPLY (R432): on a Cox at the first instant without an outstanding command, on the Umpire between two
packets. The Umpire's version is the device's. -/
def execMonitorUpdateApply (s : State) : Result := .next (if s.arg 0 ≤ 256 then adoptUpdate (s.arg 0) s else s)

/-- The hottest HBM layer. -/
def hottest (p : Platform) : Nat :=
  (List.range 192).foldl (fun m i => if degrees m < degrees (Map.get 0 p.temps i) then Map.get 0 p.temps i else m)
    (Map.get 0 p.temps 0)

/-- THERMAL (R433). -/
def execThermal (s : State) : Result :=
  .next (monitorAnswer (· == 3) (word (s.plat.clockMhz % 2 ^ 16 + 2 ^ 16 * (hottest s.plat % 2 ^ 16) + 2 ^ 32 * (s.plat.power % 2 ^ 16))) s)

/-- MONITOR_UNKNOWN_CALL (R433). -/
def execMonitorUnknownCall (s : State) : Result := .next (monitorAnswer (3 < ·) (BitVec.allOnes 64) s)

/-! ### Temperature, power and errors (R429, R437, R438, R442) -/

/-- THERMAL_THROTTLE (R438): the clock moves by one step of 100 MHz between 1.8 GHz and 3.6 GHz. The event carries the reading of
the module's power, in W (DESIGN CHOICE, log entry 3). -/
def execThermalThrottle (s : State) : Result :=
  let f := s.arg 0
  let s := onPlat (fun p => { p with power := s.arg 1 }) s
  .next (if 1800 ≤ f ∧ f ≤ 3600 ∧ (f = s.plat.clockMhz + 100 ∨ f + 100 = s.plat.clockMhz) then
    noticeAll .thermalThrottle (onPlat (fun p => { p with clockMhz := f }) s)
  else s)

/-- HBM_TEMPERATURE_THRESHOLD (R437): a layer reports, and its stack acts. (DEDUCED, log entry 34.) -/
def execHbmTemperatureThreshold (s : State) : Result :=
  let i := s.arg 0
  .next (if 12 ≤ i ∨ 16 ≤ s.arg 1 then s
  else actStack i (onPlat (fun p => { p with temps := Map.set 0 p.temps (16 * i + s.arg 1) (s.arg 2 % 2 ^ 16) }) s))

/-- The device without power: its state is lost, but what it keeps without power (R429, R437). -/
def powerOff (s : State) : State :=
  let r := afterReset s
  { r with powered := false, agenda := [], plat := { r.plat with stackState := [], shutdownAt := none } }

/-- CATASTROPHIC_SHUTDOWN (R437): 100 µs after the notice the device's state is lost, whatever the stack reports meanwhile.
(DEDUCED, log entry 34.) -/
def execCatastrophicShutdown (s : State) : Result :=
  .next (if (s.plat.shutdownAt.any fun t => decide (t ≤ s.time)) = true then powerOff s else s)

/-- Bytes of the flash torn by a loss of power, free values (R429). -/
def tear (a n : Nat) (s : State) : State :=
  { onPlat (fun p => p.flashPut a ((List.range n).map fun i => Config.tornByte (s.fresh + i))) s with fresh := s.fresh + n }

/-- Whether a range lies in what an update writes in its present step: only that can be torn (R429). -/
def tearable (p : Platform) (a n : Nat) : Bool :=
  p.updating.any fun u =>
    let w := writtenNow u
    decide (w.1 ≤ a) && decide (a + n ≤ w.1 + w.2.length)

/-- POWER_LOSS (R429). -/
def execPowerLoss (s : State) : Result :=
  .next (powerOff (if tearable s.plat (s.arg 0) (s.arg 1) then tear (s.arg 0) (s.arg 1) s else s))

/-- DRAM_ECC_ERROR (R442). -/
def execDramEccError (s : State) : Result :=
  .next { s with dramBad := (s.arg 0 / 8 :: s.dramBad).eraseDups }

end Sys2Proof.Machine
end

