-- ==== Sys2Proof/Machine/Fetch.lean ====
section
/-! DEFINITION. Instruction fetch (R45 to R51): the context fetch buffer, the core and cluster instruction caches, and the
die's fetch agent; the word at a PC (R20, R21, R115). -/

namespace Sys2Proof.Machine

/-! ### The caches (R46) -/

/-- The address of the fetch block that holds an instruction address (R21). -/
def blockOf (pc : Word) : Word := word (pc.toNat / 64 * 64)

/-- Whether a block has a code ID and an address (R45). -/
def IBlock.is (b : IBlock) (code : Nat) (at_ : Word) : Bool := b.code == code && b.addr == at_

/-- A block installed as the most recently used of its set; the set keeps `ways` blocks (R46). (DEDUCED, log entry 15.) -/
def installBlock (sets ways : Nat) (b : IBlock) (cache : List IBlock) : List IBlock :=
  let setOf (x : IBlock) : Nat := x.addr.toNat / 64 % sets
  let rest := cache.filter fun x => !x.is b.code b.addr
  b :: (rest.filter fun x => setOf x == setOf b).take (ways - 1) ++ rest.filter fun x => setOf x != setOf b

/-- A block installed in a core's instruction cache: 4 ways of 32 sets. -/
def installCore (k : Nat) (b : IBlock) (s : State) : State := s.onCore k fun c => { c with icache := installBlock 32 4 b c.icache }

/-- A block installed in a cluster's instruction cache: 8 ways of 256 sets. -/
def installCluster (g : Nat) (b : IBlock) (s : State) : State :=
  s.setCluster g { s.cluster g with icache := installBlock 256 8 b (s.cluster g).icache }

/-- The fetch agent that serves a core: its die's, or the hub's. (DEDUCED, log entry 15.) -/
def agentOf (k : Nat) : Nat := if isHub k then 4 else dieOf k

/-! ### The fetch of a block -/

/-- A block of `code` at `at_` delivered (R47): to every cluster of the agent that holds a live or winged context with the
code ID, and to every context that waits for it. -/
def deliverBlock (agent : Nat) (b : IBlock) (s : State) : State :=
  let served (k : Nat) : Bool := agentOf k == agent
  let holders := (s.cores.filter fun e => served e.1 && e.2.threads.any fun t => t.2.codeId.toNat == b.code).map (clusterOf ·.1)
  let s := holders.eraseDups.foldl (fun s g => installCluster g b s) s
  let waits (c : Ctx) : Bool := c.fetching && b.is c.codeId.toNat (blockOf c.pc)
  s.cores.foldl (fun s e =>
    if served e.1 && e.2.threads.any fun t => waits t.2 then
      (installCore e.1 b s).onCore e.1 fun core => core.mapCtx fun _ c =>
        if waits c then { c with fetch := some b, fetching := false, readyAt := max c.readyAt (s.now + 1) } else c
    else s) s

/-- A fetch that fails (R48): a record with access 3 that awaits no reply, then FETCH_FAULT at the PC. -/
def failFetch (a : Actor) (r : Reason) (s : State) : State :=
  let c := s.ctx a
  let at_ := blockOf c.pc
  let s := sendRecord (s.kernelOf a.core)
    { plainRecord (causeCode (memoryOrigin r) r) (s.recordPart a.core) 3 c.handle at_ (dieOf a.core) with
      frame := deedFrame s (s.spaceOf a.core) at_.toNat r } s
  takeCause a (causeCode .access .fetchFault) at_ c.pc (s.onCtx a fun c => { c with fetching := false })

/-- The bytes of a range within one page, `n` of them, read through its translation. -/
def readPage (e : TlbEntry) (pa : Nat) : Nat → State → List Byte × Option Reason × State
  | 0, s => ([], none, s)
  | n + 1, s => match readThrough s e pa with
    | (.error r, s) => ([], some r, s)
    | (.ok b, s) =>
      let (bs, r, s) := readPage e (pa + 1) n s
      (b :: bs, r, s)

/-- FETCH_FILL (R47, R48): the agent's read of the block that a context waits for. -/
def execFetchFill (s : State) : Result :=
  let a : Actor := ⟨s.arg 0, s.arg 1⟩
  .next (match s.ctx? a with
    | none => s
    | some c =>
      if !c.fetching then s
      else
        let at_ := (blockOf c.pc).toNat
        let space := s.spaceOf a.core
        if awaitsMemory s (clusterOf a.core) space at_ 64 then s.post 1 .fetchFill s.args
        else match translateNow s (clusterOf a.core) space at_ 4 with
        | (.error r, s) => failFetch a r s
        | (.ok (pa, e), s) =>
          match readPage e pa 64 s with
          | (_, some r, s) => failFetch a r s
          | (bytes, none, s) => deliverBlock (agentOf a.core) ⟨c.codeId.toNat, blockOf c.pc, bytes⟩ s)

/-! ### The word at the PC -/

/-- The block that holds a thread's PC, or the state in which it is on its way (R46): from its fetch
buffer; from the core's cache with no delay; from the cluster's after 12 cycles; else the agent is asked. -/
def fetchBlock (a : Actor) (s : State) : IBlock ⊕ State :=
  let c := s.ctx a
  let code := c.codeId.toNat
  let at_ := blockOf c.pc
  match c.fetch.filter (·.is code at_) with
  | some b => .inl b
  | none =>
    match (s.core a.core).icache.find? (·.is code at_) with
    | some b => .inr ((installCore a.core b s).onCtx a fun c => { c with fetch := some b })
    | none =>
      let g := clusterOf a.core
      match (s.cluster g).icache.find? (·.is code at_) with
      | some b =>
        .inr ((installCore a.core b (installCluster g b s)).onCtx a fun c =>
          { c with fetch := some b, readyAt := s.now + 12 })
      | none => .inr ((s.onCtx a fun c => { c with fetching := true }).post 1 .fetchFill [a.core, a.thread])

/-- The word at offset `off` of a block: its length in bytes and its value; none for a 32-bit word that would straddle the
block's end (R20, R21). -/
def wordAt (b : IBlock) (off : Nat) : Option (Nat × Nat) :=
  let lo := natOfBytes ((b.bytes.drop off).take 2)
  if lo % 2 = 0 then some (2, lo)
  else if off = 62 then none
  else some (4, natOfBytes ((b.bytes.drop off).take 4))

end Sys2Proof.Machine
end

