-- ==== Sys2Proof/Machine/Scalar.lean ====
section
/-! DEFINITION. The scalar class (chapter 05): integer arithmetic, immediates, branches and jumps, the 16-bit forms of
these, and EXTI and EXTR (R37). -/

namespace Sys2Proof.Machine

/-! ### Shared forms -/

/-- A register form with two read fields (R109). -/
def binary (len occ a b d : Nat) (f : Word → Word → Word) (s : State) : State :=
  compute len occ [a, b] d (fun x => f (x.getD 0 0) (x.getD 1 0)) s

/-- A form with one read field. -/
def unary (len occ a d : Nat) (f : Word → Word) (s : State) : State :=
  compute len occ [a] d (fun x => f (x.getD 0 0)) s

/-- A shift count B[5:0] (R109). -/
def shiftOf (b : Word) : Nat := bits b.toNat 0 6

/-- SRA: the signed value divided by a power of two, rounded toward −∞. -/
def sraBy (a : Word) (n : Nat) : Word := BitVec.ofInt 64 (a.toInt / 2 ^ n)

/-- ROL: rotated left by `n` places, `n` below 64. -/
def rolBy (a : Word) (n : Nat) : Word := word (a.toNat * 2 ^ n + a.toNat * 2 ^ n / 2 ^ 64)

/-- The smaller signed value. -/
def minSigned (a b : Word) : Word := if a.toInt < b.toInt then a else b
/-- The larger signed value. -/
def maxSigned (a b : Word) : Word := if a.toInt < b.toInt then b else a
/-- The smaller natural value. -/
def minNat (a b : Word) : Word := if a.toNat < b.toNat then a else b
/-- The larger natural value. -/
def maxNat (a b : Word) : Word := if a.toNat < b.toNat then b else a
/-- 1 or 0. -/
def boolWord (b : Bool) : Word := if b then 1 else 0
/-- Bits [127:64] of the signed product. -/
def mulHigh (a b : Word) : Word := BitVec.ofInt 64 (a.toInt * b.toInt / 2 ^ 64)
/-- Bits [127:64] of the natural product. -/
def mulHighNat (a b : Word) : Word := word (a.toNat * b.toNat / 2 ^ 64)

/-- The count of leading zero bits among the low `n` bits. -/
def leadingZeros (x : Nat) : Nat → Nat
  | 0 => 0
  | n + 1 => if x.testBit n then 0 else 1 + leadingZeros x n

/-- The count of trailing zero bits among `n` bits. -/
def trailingZeros (x : Nat) : Nat → Nat
  | 0 => 0
  | n + 1 => if x % 2 = 1 then 0 else 1 + trailingZeros (x / 2) n

/-- The count of one bits among `n` bits. -/
def oneBits (x : Nat) : Nat → Nat
  | 0 => 0
  | n + 1 => x % 2 + oneBits (x / 2) n

/-- The eight bytes in reverse order. -/
def swapBytes (x : Word) : Word := word (natOfBytes (bytesOfNat 8 x.toNat).reverse)

/-- The quotient of R110, toward zero; an overflow wraps. -/
def quotSigned (a b : Word) : Word := BitVec.ofInt 64 (Int.tdiv a.toInt b.toInt)
/-- The remainder of R110, with the sign of the dividend. -/
def remSigned (a b : Word) : Word := BitVec.ofInt 64 (Int.tmod a.toInt b.toInt)
/-- The natural quotient of R110. -/
def quotNat (a b : Word) : Word := word (a.toNat / b.toNat)
/-- The natural remainder of R110. -/
def remNat (a b : Word) : Word := word (a.toNat % b.toNat)

/-- The divides (R104, R110): not ready while the unit is occupied; a zero divisor occupies it too, and its cause is
delivered at the end of the instruction's occupancy. -/
def divide (a b d : Nat) (f : Word → Word → Word) (s : State) : State :=
  if s.now < s.here.divFree then stall s
  else
    withOperands [a, b] [d] (fun x s =>
      let busy := s.setHere { s.here with divFree := s.now + 32 }
      if x.getD 1 0 = 0 then
        (busy.issued.onMe fun c =>
          { c with status := .divWait, readyAt := s.now + 36 }).post 36
          .divideByZeroDelivery [s.actor.core, s.actor.thread, (x.getD 0 0).toNat]
      else retire 4 36 (writeReg d (f (x.getD 0 0) (x.getD 1 0)) (popReads [a, b] busy))) s

/-- DIVIDE_BY_ZERO_DELIVERY (R110): the cause of a divide whose occupancy has passed. -/
def deliverDivide (s : State) : State :=
  let a : Actor := ⟨s.arg 0, s.arg 1⟩
  match s.ctx? a with
  | some c =>
    if c.status = .divWait then
      takeCause a (causeCode .execute .divideByZero) (word (s.arg 2)) c.pc (s.setCtx a { c with status := .running })
    else s
  | none => s

/-- The checks of a computed target, then the link and the jump (R22, R114). -/
def jumpTo (tgt : Word) (link : State → State) (s : State) : State :=
  if bits tgt.toNat 57 7 ≠ 0 then trapE .addressNoncanonical tgt s
  else if tgt.getLsbD 0 then trapE .fetchMisaligned tgt s
  else goTo tgt 4 (link s)

/-- A branch of `len` bytes with an `n`-bit signed halfword offset (R24, R114). -/
def branch (len a b n off : Nat) (cond : Word → Word → Bool) (s : State) : State :=
  withOperands [a, b] [] (fun x s =>
    let pc := s.me.pc
    let tgt := if cond (x.getD 0 0) (x.getD 1 0) then pc + 2 * sext64 n off else pc + word len
    jumpTo tgt (popReads [a, b]) s) s

/-- JALR and C.JR (R114): the base is read before the link is written. -/
def jumpReg (len d a : Nat) (imm : Word) (s : State) : State :=
  withOperands [a] [d] (fun x s =>
    let link := s.me.pc + word len
    jumpTo (x.getD 0 0 + imm) (fun s => writeReg d link (popReads [a] s)) s) s

/-! ### Register-register operations (R109, R110) -/

/-- ADD (R109). -/
def execAdd (d a b : Nat) (s : State) : Result := .next (binary 4 4 a b d (· + ·) s)

/-- SUB (R109). -/
def execSub (d a b : Nat) (s : State) : Result := .next (binary 4 4 a b d (· - ·) s)

/-- AND (R109). -/
def execAnd (d a b : Nat) (s : State) : Result := .next (binary 4 4 a b d (· &&& ·) s)

/-- OR (R109). -/
def execOr (d a b : Nat) (s : State) : Result := .next (binary 4 4 a b d (· ||| ·) s)

/-- XOR (R109). -/
def execXor (d a b : Nat) (s : State) : Result := .next (binary 4 4 a b d (· ^^^ ·) s)

/-- ANDN (R109). -/
def execAndn (d a b : Nat) (s : State) : Result := .next (binary 4 4 a b d (fun a b => a &&& ~~~b) s)

/-- SLL (R109). -/
def execSll (d a b : Nat) (s : State) : Result := .next (binary 4 4 a b d (fun a b => a <<< shiftOf b) s)

/-- SRL (R109). -/
def execSrl (d a b : Nat) (s : State) : Result := .next (binary 4 4 a b d (fun a b => a >>> shiftOf b) s)

/-- SRA (R109). -/
def execSra (d a b : Nat) (s : State) : Result := .next (binary 4 4 a b d (fun a b => sraBy a (shiftOf b)) s)

/-- ROL (R109). -/
def execRol (d a b : Nat) (s : State) : Result := .next (binary 4 4 a b d (fun a b => rolBy a (shiftOf b)) s)

/-- MIN (R109). -/
def execMin (d a b : Nat) (s : State) : Result := .next (binary 4 4 a b d minSigned s)

/-- MAX (R109). -/
def execMax (d a b : Nat) (s : State) : Result := .next (binary 4 4 a b d maxSigned s)

/-- MINN (R109). -/
def execMinn (d a b : Nat) (s : State) : Result := .next (binary 4 4 a b d minNat s)

/-- MAXN (R109). -/
def execMaxn (d a b : Nat) (s : State) : Result := .next (binary 4 4 a b d maxNat s)

/-- SLT (R109). -/
def execSlt (d a b : Nat) (s : State) : Result := .next (binary 4 4 a b d (fun a b => boolWord (decide (a.toInt < b.toInt))) s)

/-- SLTN (R109). -/
def execSltn (d a b : Nat) (s : State) : Result := .next (binary 4 4 a b d (fun a b => boolWord (decide (a.toNat < b.toNat))) s)

/-- SEL: the old g[d] is the condition (R109). -/
def execSel (d a b : Nat) (s : State) : Result := .next (compute 4 4 [a, b, d] d (fun x => if x.getD 2 0 ≠ 0 then x.getD 0 0 else x.getD 1 0) s)

/-- ADDSH (R109). -/
def execAddsh (d a b sh : Nat) (s : State) : Result := .next (binary 4 4 a b d (fun a b => a + b <<< sh) s)

/-- MUL (R109). -/
def execMul (d a b : Nat) (s : State) : Result := .next (binary 4 8 a b d (· * ·) s)

/-- MULH (R109). -/
def execMulh (d a b : Nat) (s : State) : Result := .next (binary 4 8 a b d mulHigh s)

/-- MULHN (R109). -/
def execMulhn (d a b : Nat) (s : State) : Result := .next (binary 4 8 a b d mulHighNat s)

/-- DIV (R110). -/
def execDiv (d a b : Nat) (s : State) : Result := .next (divide a b d quotSigned s)

/-- DIVN (R110). -/
def execDivn (d a b : Nat) (s : State) : Result := .next (divide a b d quotNat s)

/-- REM (R110). -/
def execRem (d a b : Nat) (s : State) : Result := .next (divide a b d remSigned s)

/-- REMN (R110). -/
def execRemn (d a b : Nat) (s : State) : Result := .next (divide a b d remNat s)

/-- CLZ (R109). -/
def execClz (d a : Nat) (s : State) : Result := .next (unary 4 4 a d (fun a => word (leadingZeros a.toNat 64)) s)

/-- CTZ (R109). -/
def execCtz (d a : Nat) (s : State) : Result := .next (unary 4 4 a d (fun a => word (trailingZeros a.toNat 64)) s)

/-- POPC (R109). -/
def execPopc (d a : Nat) (s : State) : Result := .next (unary 4 4 a d (fun a => word (oneBits a.toNat 64)) s)

/-- BSWAP (R109). -/
def execBswap (d a : Nat) (s : State) : Result := .next (unary 4 4 a d swapBytes s)

/-! ### Shifts by immediate and immediates (R111 to R113) -/

/-- SLLI: the count is sh[5] : sh[4:0] (R111). -/
def execSlli (d a lo hi : Nat) (s : State) : Result := .next (unary 4 4 a d (fun x => x <<< (lo + 32 * hi)) s)

/-- SRLI: the count is sh[5] : sh[4:0] (R111). -/
def execSrli (d a lo hi : Nat) (s : State) : Result := .next (unary 4 4 a d (fun x => x >>> (lo + 32 * hi)) s)

/-- SRAI: the count is sh[5] : sh[4:0] (R111). -/
def execSrai (d a lo hi : Nat) (s : State) : Result := .next (unary 4 4 a d (fun x => sraBy x (lo + 32 * hi)) s)

/-- ROLI: the count is sh[5] : sh[4:0] (R111). -/
def execRoli (d a lo hi : Nat) (s : State) : Result := .next (unary 4 4 a d (fun x => rolBy x (lo + 32 * hi)) s)

/-- ADDI (R112). -/
def execAddi (d a i : Nat) (s : State) : Result := .next (unary 4 4 a d (· + sext64 16 i) s)

/-- ANDI, zero-extended (R112). -/
def execAndi (d a i : Nat) (s : State) : Result := .next (unary 4 4 a d (· &&& word i) s)

/-- ORI, zero-extended (R112). -/
def execOri (d a i : Nat) (s : State) : Result := .next (unary 4 4 a d (· ||| word i) s)

/-- XORI, zero-extended (R112). -/
def execXori (d a i : Nat) (s : State) : Result := .next (unary 4 4 a d (· ^^^ word i) s)

/-- SLTI (R112). -/
def execSlti (d a i : Nat) (s : State) : Result := .next (unary 4 4 a d (fun x => boolWord (decide (x.toInt < signedNat 16 i))) s)

/-- LUI (R24, R113). -/
def execLui (d i : Nat) (s : State) : Result := .next (compute 4 4 [] d (fun _ => sext64 37 (i * 65536)) s)

/-- ADDPC (R113). -/
def execAddpc (d i : Nat) (s : State) : Result := .next (compute 4 4 [] d (fun _ => s.me.pc + 65536 * sext64 21 i) s)

/-! ### Branches and jumps (R26, R114) -/

/-- BEQ (R26). -/
def execBeq (a b o : Nat) (s : State) : Result := .next (branch 4 a b 13 o (fun a b => a == b) s)

/-- BNE (R26). -/
def execBne (a b o : Nat) (s : State) : Result := .next (branch 4 a b 13 o (fun a b => a != b) s)

/-- BLT (R26). -/
def execBlt (a b o : Nat) (s : State) : Result := .next (branch 4 a b 13 o (fun a b => decide (a.toInt < b.toInt)) s)

/-- BGE (R26). -/
def execBge (a b o : Nat) (s : State) : Result := .next (branch 4 a b 13 o (fun a b => decide (b.toInt ≤ a.toInt)) s)

/-- BLTN (R26). -/
def execBltn (a b o : Nat) (s : State) : Result := .next (branch 4 a b 13 o (fun a b => decide (a.toNat < b.toNat)) s)

/-- BGEN (R26). -/
def execBgen (a b o : Nat) (s : State) : Result := .next (branch 4 a b 13 o (fun a b => decide (b.toNat ≤ a.toNat)) s)

/-- BANY (R26). -/
def execBany (a b o : Nat) (s : State) : Result := .next (branch 4 a b 13 o (fun a b => a &&& b != 0) s)

/-- BNONE (R26). -/
def execBnone (a b o : Nat) (s : State) : Result := .next (branch 4 a b 13 o (fun a b => a &&& b == 0) s)

/-- J (R114). -/
def execJ (o : Nat) (s : State) : Result := .next (jumpTo (s.me.pc + 2 * sext64 26 o) id s)

/-- JAL, which links to g1 (R114). -/
def execJal (o : Nat) (s : State) : Result := .next (jumpTo (s.me.pc + 2 * sext64 26 o) (fun s => s.onMe (·.wg 1 (s.me.pc + 4))) s)

/-- JALR (R114). -/
def execJalr (d a i : Nat) (s : State) : Result := .next (jumpReg 4 d a (sext64 16 i) s)

/-! ### The 16-bit forms (R27, R117) -/

/-- C.MV: ADD gd, gs, g0. -/
def execCMv (d src : Nat) (s : State) : Result := .next (binary 2 4 src 0 d (· + ·) s)

/-- C.ADD. -/
def execCAdd (d src : Nat) (s : State) : Result := .next (binary 2 4 d src d (· + ·) s)

/-- C.SUB. -/
def execCSub (d src : Nat) (s : State) : Result := .next (binary 2 4 d src d (· - ·) s)

/-- C.AND. -/
def execCAnd (d src : Nat) (s : State) : Result := .next (binary 2 4 d src d (· &&& ·) s)

/-- C.OR. -/
def execCOr (d src : Nat) (s : State) : Result := .next (binary 2 4 d src d (· ||| ·) s)

/-- C.ADDI. -/
def execCAddi (d i : Nat) (s : State) : Result := .next (unary 2 4 d d (· + sext64 5 i) s)

/-- C.LI: ADDI gd, g0, imm. -/
def execCLi (d i : Nat) (s : State) : Result := .next (unary 2 4 0 d (· + sext64 5 i) s)

/-- C.SLLI. -/
def execCSlli (d sh : Nat) (s : State) : Result := .next (unary 2 4 d d (fun x => x <<< sh) s)

/-- C.SRLI. -/
def execCSrli (d sh : Nat) (s : State) : Result := .next (unary 2 4 d d (fun x => x >>> sh) s)

/-- C.SRAI. -/
def execCSrai (d sh : Nat) (s : State) : Result := .next (unary 2 4 d d (fun x => sraBy x sh) s)

/-- C.BEQZ. -/
def execCBeqz (d o : Nat) (s : State) : Result := .next (branch 2 d 0 5 o (fun a b => a == b) s)

/-- C.BNEZ. -/
def execCBnez (d o : Nat) (s : State) : Result := .next (branch 2 d 0 5 o (fun a b => a != b) s)

/-- C.JR: the link goes to g0. -/
def execCJr (src : Nat) (s : State) : Result := .next (jumpReg 2 0 src 0 s)

/-- C.NOP. -/
def execCNop (s : State) : Result := .next (retire 2 4 s)

/-! ### Operand-extension registers (R37) -/

/-- EXTI: one 16-bit slice of e[n]. -/
def execExti (n sl i : Nat) (s : State) : Result := .next (retire 4 4 (s.onMe fun c => c.we n (word (setBits (c.re n).toNat (16 * sl) 16 i))))

/-- EXTR. -/
def execExtr (n a : Nat) (s : State) : Result := .next (withOperands [a] [] (fun x s => retire 4 4 ((popReads [a] s).onMe (·.we n (x.getD 0 0)))) s)

/-- DIVIDE_BY_ZERO_DELIVERY (R110). -/
def execDivideByZeroDelivery (s : State) : Result := .next (deliverDivide s)

end Sys2Proof.Machine
end

