-- ==== Sys2Proof/Machine/Transform.lean ====
section
/-! DEFINITION. The transform class (chapter 14): the complex layout, twiddles, the arithmetic of butterfly mode, and its
five instructions in the engine queue. -/

namespace Sys2Proof.Machine

/-! ### The control word (R295) -/

/-- M: log2 of the points. -/
def xfM (w : Word) : Nat := bits w.toNat 0 4
/-- S: log2 of the span combined so far. -/
def xfS (w : Word) : Nat := bits w.toNat 4 4
/-- RAD: whether the pass is of radix 4. -/
def xfRad4 (w : Word) : Bool := w.getLsbD 8
/-- SC: the pass scale. -/
def xfSc (w : Word) : Nat := bits w.toNat 9 2
/-- INV. -/
def xfInv (w : Word) : Bool := w.getLsbD 11
/-- MT: log2 of the twiddle period. -/
def xfMt (w : Word) : Nat := bits w.toNat 16 5
/-- E0, or the multiplier C. -/
def xfE0 (w : Word) : Nat := bits w.toNat 32 16
/-- STEP. -/
def xfStep (w : Word) : Nat := bits w.toNat 48 16

/-- The planes of a layout of 2^m points (R290). -/
def layoutPlanes (m : Nat) : Nat := max 1 (2 ^ m / 512)
/-- The rows that a layout of 2^m points occupies in each of its planes (R290). -/
def layoutRows (m : Nat) : Nat := min 32 ((2 ^ m + 15) / 16)
/-- The planes of a layout at base plane `d`. -/
def layoutAt (d m : Nat) : List Nat := (List.range (layoutPlanes m)).map (d + ·)

/-- The operations, in the order of their fn values: 0 FBREV, 1 FPASS, 2 FTWG, 3 FTWM, 4 FCMUL. The control words that
R296 refuses for each. -/
def xfBadSize (fn : Nat) (w : Word) : Bool :=
  bits w.toNat 12 4 != 0 || bits w.toNat 21 11 != 0 || decide (xfM w < 2) || decide (12 < xfM w)
    || (fn == 1 && (xfSc w == 3 || decide (xfM w < xfS w + (if xfRad4 w then 2 else 1))))
    || ((fn == 2 || fn == 3) && (xfMt w == 0 || decide (16 < xfMt w)))

/-! ### Complex arithmetic (R291 to R293) -/

/-- A complex value as two FP32 codes. -/
abbrev Cx := Nat × Nat

/-- The twiddle W(k, 2^e), or its conjugate (R291). (DEDUCED, log entry 13.) -/
def twiddle (inv : Bool) (k e : Nat) : Cx :=
  let k := k % 2 ^ e
  let c := sinPiRat ((2 ^ (e - 1) : Int) - 2 * k) e false
  let s := sinPiRat (if inv then (2 * k : Int) else -(2 * k : Int)) e false
  (roundRne 9 c, roundRne 9 s)

/-- A rounded sum of two codes. -/
def addCode (x y : Nat) : Nat := roundRne 9 (addNum .rne (decodeFloat 9 x) (decodeFloat 9 y))
/-- A rounded difference. -/
def subCode (x y : Nat) : Nat := roundRne 9 (addNum .rne (decodeFloat 9 x) (negNum (decodeFloat 9 y)))
/-- A code moved exactly: a NaN becomes canonical. -/
def moveCode (x : Nat) : Nat := roundRne 9 (decodeFloat 9 x)
/-- A code moved exactly with its sign changed. -/
def flipCode (x : Nat) : Nat := roundRne 9 (negNum (decodeFloat 9 x))
/-- Add. -/
def addCx (x y : Cx) : Cx := (addCode x.1 y.1, addCode x.2 y.2)
/-- Sub. -/
def subCx (x y : Cx) : Cx := (subCode x.1 y.1, subCode x.2 y.2)
/-- The exact negation of a complex value. -/
def flipCx (x : Cx) : Cx := (flipCode x.1, flipCode x.2)
/-- NegI. -/
def negI (inv : Bool) (u : Cx) : Cx :=
  if inv then (flipCode u.2, moveCode u.1) else (moveCode u.2, flipCode u.1)

/-- The fused complex product of R293 and R302. -/
def mulCx (x y : Cx) : Cx :=
  let n := decodeFloat 9
  let p (a b c d : Num) (minus : Bool) : Nat :=
    let q := mulNum c d
    roundRne 9 (addNum .rne (mulNum a b) (if minus then negNum q else q))
  (p (n x.1) (n y.1) (n x.2) (n y.2) true, p (n x.1) (n y.2) (n x.2) (n y.1) false)

/-- Mul: `x` times W(k, 2^e) (R293); for e = 1 every twiddle is 1 or −1 (R301). -/
def mulTw (inv : Bool) (k e : Nat) (x : Cx) : Cx :=
  if 4 * k % 2 ^ e = 0 then
    match 4 * k / 2 ^ e % 4 with
    | 0 => (moveCode x.1, moveCode x.2)
    | 1 => negI inv x
    | 2 => flipCx x
    | _ => flipCx (negI inv x)
  else mulCx (twiddle inv k e) x

/-- Sc: the scale 2^−sc, rounded. -/
def scaleCode (sc x : Nat) : Nat := roundRne 9 (mulNum (decodeFloat 9 x) (.fin false 1 (-(sc : Int)) false))
/-- Sc of a complex value. -/
def scaleCx (sc : Nat) (x : Cx) : Cx := (scaleCode sc x.1, scaleCode sc x.2)

/-! ### The layout in the planes (R290) -/

/-- The plane, row and column of element `j` of the layout at `d`. -/
def elemPlace (d j : Nat) : Nat × Nat × Nat := (d + j / 512, j % 512 / 16, 2 * (j % 16))

/-- Element `j` of the layout at `d`. -/
def Engine.point (e : Engine) (d j : Nat) : Cx :=
  let (p, r, c) := elemPlace d j
  (e.word p r c, e.word p r (c + 1))

/-- The engine with element `j` of the layout at `d` replaced. -/
def Engine.setPoint (e : Engine) (d j : Nat) (x : Cx) : Engine :=
  let (p, r, c) := elemPlace d j
  (e.setWord p r c x.1).setWord p r (c + 1) x.2

/-- Every element of a layout replaced, all read before any is written. -/
def Engine.mapPoints (e : Engine) (d m : Nat) (f : Nat → Cx) : Engine :=
  ((List.range (2 ^ m)).map fun j => (j, f j)).foldl (fun x y => x.setPoint d y.1 y.2) e

/-- BitRev: the low `m` bits of `j` in reverse order (R297). -/
def bitRev : Nat → Nat → Nat
  | 0, _ => 0
  | m + 1, j => j % 2 * 2 ^ m + bitRev m (j / 2)

/-- One pass of radix 2 (R298): the new element `j` from the old ones. -/
def radix2 (w : Word) (x : Nat → Cx) (j : Nat) : Cx :=
  let h := 2 ^ xfS w
  let t := j % h
  let g := j - j % (2 * h)
  let a := x (g + t)
  let b := mulTw (xfInv w) t (xfS w + 1) (x (g + t + h))
  scaleCx (xfSc w) (if j % (2 * h) < h then addCx a b else subCx a b)

/-- One pass of radix 4 (R298). -/
def radix4 (w : Word) (x : Nat → Cx) (j : Nat) : Cx :=
  let q := 2 ^ xfS w
  let n := xfS w + 2
  let inv := xfInv w
  let t := j % q
  let g := j - j % (4 * q)
  let x0 := x (g + t)
  let t1 := mulTw inv t n (x (g + t + 2 * q))
  let t2 := mulTw inv (2 * t) n (x (g + t + q))
  let t3 := mulTw inv (3 * t) n (x (g + t + 3 * q))
  scaleCx (xfSc w) (match j % (4 * q) / q with
    | 0 => addCx (addCx x0 t2) (addCx t1 t3)
    | 1 => addCx (subCx x0 t2) (negI inv (subCx t1 t3))
    | 2 => subCx (addCx x0 t2) (addCx t1 t3)
    | _ => subCx (subCx x0 t2) (negI inv (subCx t1 t3)))

/-- The rows of a layout that FTWG writes in all 32 columns (R300). -/
def fullRows (m : Nat) : List Nat := if 4 ≤ m then List.range (layoutRows m) else []

/-- A transform performed on the planes (R297 to R302). -/
def transform (fn d a : Nat) (w : Word) (e : Engine) : Engine :=
  let m := xfM w
  let x := e.point d
  match fn with
  | 0 => e.mapPoints d m fun j => x (bitRev m j)
  | 1 => e.mapPoints d m (if xfRad4 w then radix4 w x else radix2 w x)
  | 2 => (e.mapPoints d m fun j => twiddle (xfInv w) ((xfE0 w + j * xfStep w) % 2 ^ xfMt w) (xfMt w)).setPoison
      (layoutAt d m) (fullRows m) false
  | 3 => e.mapPoints d m fun j => mulTw (xfInv w) (xfE0 w * j) (xfMt w) (x j)
  | _ => e.mapPoints d m fun j =>
      let y := e.point a j
      mulCx (x j) (if xfInv w then (y.1, flipCode y.2) else y)

/-! ### The instructions -/

/-- The checks of R296, then the instruction. Where both planes of an FCMUL are misaligned D is reported, which R296 leaves open
(DESIGN CHOICE, log entry 58). -/
def checkTransform (fn d a : Nat) (w : Word) (go : State → State) (s : State) : State :=
  let np := layoutPlanes (xfM w)
  if xfBadSize fn w then trapE .transformSize w s
  else if d % np ≠ 0 then trapE .transformLayout (word d) s
  else if fn = 4 ∧ a % np ≠ 0 then trapE .transformLayout (word a) s
  else go s

/-- The planes of an instruction's layouts. -/
def xfPlanes (fn d a m : Nat) : List Nat := layoutAt d m ++ if fn = 4 then layoutAt a m else []

/-- The lowest poisoned row of the lowest plane of an instruction's layouts (R296); that it is the lowest plane is the model's
choice (DESIGN CHOICE, log entry 58). -/
def xfPoisoned (e : Engine) (planes : List Nat) (rows : Nat) : Option (Nat × Nat) :=
  ((List.range 8).filter fun p => planes.contains p).findSome? fun p =>
    ((List.range rows).find? fun r => e.isPoisoned p r).map fun r => (p, r)

/-- The check phase at the head of the queue: the poison test, then the work left to the engine (R296). -/
def transformPhase (fn d a : Nat) (w : Word) (pops : List Nat) (id : Nat) (s : State) : State :=
  match xfPoisoned s.here.eng (xfPlanes fn d a (xfM w)) (layoutRows (xfM w)) with
  | some (p, r) => failHold id pops (trapPart .accPoisoned 0xFF (word (p + 2 ^ 3 * r))) s
  | none => endHold id 4 pops (some (.xform fn d a w)) s

/-- FBREV, FPASS, FTWM and FCMUL, whose operand g[b] is reserved while they hold (R268, R296). -/
def holdTransform (fn d a b : Nat) (s : State) : State :=
  coreOnly (withOperands [b] [] fun x s =>
    let w := x.getD 0 0
    let m := xfM w
    checkTransform fn d a w (engineHold [] [] [b] (xfPlanes fn d a m) 0 (layoutRows m) (transformPhase fn d a w [b])) s) s

/-- FBREV (R297). -/
def execFbrev (d b : Nat) (s : State) : Result := .next (holdTransform 0 d 0 b s)
/-- FPASS (R298). -/
def execFpass (d b : Nat) (s : State) : Result := .next (holdTransform 1 d 0 b s)
/-- FTWG (R300): accepted at once. -/
def execFtwg (d b : Nat) (s : State) : Result :=
  .next (coreOnly (withOperands [b] [] fun x s =>
    let w := x.getD 0 0
    checkTransform 2 d 0 w (enqueueEngine (fun _ => .xform 2 d 0 w) [b]) s) s)
/-- FTWM (R301). -/
def execFtwm (d b : Nat) (s : State) : Result := .next (holdTransform 3 d 0 b s)
/-- FCMUL (R302). -/
def execFcmul (d a b : Nat) (s : State) : Result := .next (holdTransform 4 d a b s)

/-- TRANSFORM_EXECUTE (R303): an accepted transform at the head of the queue, once the rows sent toward its layouts have
been written (R267). -/
def execTransformExecute (s : State) : Result :=
  let k := s.arg 0
  let core := s.core k
  match core.eng.queue with
  | ⟨_, _, .xform fn d a w⟩ :: rest =>
    if core.frozen || core.eng.rowsToward (xfPlanes fn d a (xfM w)) 0 (layoutRows (xfM w)) then .next s
    else .next (onEngine k (fun e => { transform fn d a w e with queue := rest }) s)
  | _ => .next s

end Sys2Proof.Machine
end

