-- ==== Sys2Proof/Machine/Dispatch.lean ====
section
/-! DEFINITION. The one dispatch of the machine: each row of the opcode table to its meaning. -/

namespace Sys2Proof.Machine

/-- What an instruction or a device step does in a state: one direct call of its meaning. -/
def exec (i : Instr) (s : State) : Host.Outcome State Fault Refusal :=
  match i with
  | .add d a b => Sys2Proof.Machine.execAdd d a b s
  | .sub d a b => Sys2Proof.Machine.execSub d a b s
  | .and d a b => Sys2Proof.Machine.execAnd d a b s
  | .or d a b => Sys2Proof.Machine.execOr d a b s
  | .xor d a b => Sys2Proof.Machine.execXor d a b s
  | .andn d a b => Sys2Proof.Machine.execAndn d a b s
  | .sll d a b => Sys2Proof.Machine.execSll d a b s
  | .srl d a b => Sys2Proof.Machine.execSrl d a b s
  | .sra d a b => Sys2Proof.Machine.execSra d a b s
  | .rol d a b => Sys2Proof.Machine.execRol d a b s
  | .min d a b => Sys2Proof.Machine.execMin d a b s
  | .max d a b => Sys2Proof.Machine.execMax d a b s
  | .minn d a b => Sys2Proof.Machine.execMinn d a b s
  | .maxn d a b => Sys2Proof.Machine.execMaxn d a b s
  | .slt d a b => Sys2Proof.Machine.execSlt d a b s
  | .sltn d a b => Sys2Proof.Machine.execSltn d a b s
  | .sel d a b => Sys2Proof.Machine.execSel d a b s
  | .addsh d a b z => Sys2Proof.Machine.execAddsh d a b z s
  | .mul d a b => Sys2Proof.Machine.execMul d a b s
  | .mulh d a b => Sys2Proof.Machine.execMulh d a b s
  | .mulhn d a b => Sys2Proof.Machine.execMulhn d a b s
  | .div d a b => Sys2Proof.Machine.execDiv d a b s
  | .divn d a b => Sys2Proof.Machine.execDivn d a b s
  | .rem d a b => Sys2Proof.Machine.execRem d a b s
  | .remn d a b => Sys2Proof.Machine.execRemn d a b s
  | .clz d a => Sys2Proof.Machine.execClz d a s
  | .ctz d a => Sys2Proof.Machine.execCtz d a s
  | .popc d a => Sys2Proof.Machine.execPopc d a s
  | .bswap d a => Sys2Proof.Machine.execBswap d a s
  | .slli d a z h => Sys2Proof.Machine.execSlli d a z h s
  | .srli d a z h => Sys2Proof.Machine.execSrli d a z h s
  | .srai d a z h => Sys2Proof.Machine.execSrai d a z h s
  | .roli d a z h => Sys2Proof.Machine.execRoli d a z h s
  | .addi d a imm => Sys2Proof.Machine.execAddi d a imm s
  | .andi d a imm => Sys2Proof.Machine.execAndi d a imm s
  | .ori d a imm => Sys2Proof.Machine.execOri d a imm s
  | .xori d a imm => Sys2Proof.Machine.execXori d a imm s
  | .slti d a imm => Sys2Proof.Machine.execSlti d a imm s
  | .lui d imm => Sys2Proof.Machine.execLui d imm s
  | .addpc d imm => Sys2Proof.Machine.execAddpc d imm s
  | .beq a b o => Sys2Proof.Machine.execBeq a b o s
  | .bne a b o => Sys2Proof.Machine.execBne a b o s
  | .blt a b o => Sys2Proof.Machine.execBlt a b o s
  | .bge a b o => Sys2Proof.Machine.execBge a b o s
  | .bltn a b o => Sys2Proof.Machine.execBltn a b o s
  | .bgen a b o => Sys2Proof.Machine.execBgen a b o s
  | .bany a b o => Sys2Proof.Machine.execBany a b o s
  | .bnone a b o => Sys2Proof.Machine.execBnone a b o s
  | .j o => Sys2Proof.Machine.execJ o s
  | .jal o => Sys2Proof.Machine.execJal o s
  | .jalr d a imm => Sys2Proof.Machine.execJalr d a imm s
  | .ld d a w o => Sys2Proof.Machine.execLd d a w o s
  | .st d a w o => Sys2Proof.Machine.execSt d a w o s
  | .cMv d z => Sys2Proof.Machine.execCMv d z s
  | .cAdd d z => Sys2Proof.Machine.execCAdd d z s
  | .cSub d z => Sys2Proof.Machine.execCSub d z s
  | .cAnd d z => Sys2Proof.Machine.execCAnd d z s
  | .cOr d z => Sys2Proof.Machine.execCOr d z s
  | .cAddi d imm => Sys2Proof.Machine.execCAddi d imm s
  | .cLi d imm => Sys2Proof.Machine.execCLi d imm s
  | .cSlli d z => Sys2Proof.Machine.execCSlli d z s
  | .cSrli d z => Sys2Proof.Machine.execCSrli d z s
  | .cSrai d z => Sys2Proof.Machine.execCSrai d z s
  | .cLw d z => Sys2Proof.Machine.execCLw d z s
  | .cSw d z => Sys2Proof.Machine.execCSw d z s
  | .cBeqz d o => Sys2Proof.Machine.execCBeqz d o s
  | .cBnez d o => Sys2Proof.Machine.execCBnez d o s
  | .cJr z => Sys2Proof.Machine.execCJr z s
  | .exti n z imm => Sys2Proof.Machine.execExti n z imm s
  | .extr n a => Sys2Proof.Machine.execExtr n a s
  | .ldfe d a q => Sys2Proof.Machine.execLdfe d a q s
  | .ldf d a q => Sys2Proof.Machine.execLdf d a q s
  | .stfe d a q => Sys2Proof.Machine.execStfe d a q s
  | .stf d a q => Sys2Proof.Machine.execStf d a q s
  | .feset a z q => Sys2Proof.Machine.execFeset a z q s
  | .feq d a => Sys2Proof.Machine.execFeq d a s
  | .feqTake d a => Sys2Proof.Machine.execFeqTake d a s
  | .cas d a b q => Sys2Proof.Machine.execCas d a b q s
  | .amoAdd d a b q => Sys2Proof.Machine.execAmoAdd d a b q s
  | .amoAnd d a b q => Sys2Proof.Machine.execAmoAnd d a b q s
  | .amoOr d a b q => Sys2Proof.Machine.execAmoOr d a b q s
  | .amoXor d a b q => Sys2Proof.Machine.execAmoXor d a b q s
  | .amoMin d a b q => Sys2Proof.Machine.execAmoMin d a b q s
  | .amoMax d a b q => Sys2Proof.Machine.execAmoMax d a b q s
  | .amoMinn d a b q => Sys2Proof.Machine.execAmoMinn d a b q s
  | .amoMaxn d a b q => Sys2Proof.Machine.execAmoMaxn d a b q s
  | .amoSwap d a b q => Sys2Proof.Machine.execAmoSwap d a b q s
  | .vintVadd d a b t q => Sys2Proof.Machine.execVintVadd d a b t q s
  | .vintVsub d a b t q => Sys2Proof.Machine.execVintVsub d a b t q s
  | .vintVmul d a b t q => Sys2Proof.Machine.execVintVmul d a b t q s
  | .vintVmin d a b t q => Sys2Proof.Machine.execVintVmin d a b t q s
  | .vintVmax d a b t q => Sys2Proof.Machine.execVintVmax d a b t q s
  | .vintVabs d a t q => Sys2Proof.Machine.execVintVabs d a t q s
  | .vintVneg d a t q => Sys2Proof.Machine.execVintVneg d a t q s
  | .vintVand d a b t q => Sys2Proof.Machine.execVintVand d a b t q s
  | .vintVor d a b t q => Sys2Proof.Machine.execVintVor d a b t q s
  | .vintVxor d a b t q => Sys2Proof.Machine.execVintVxor d a b t q s
  | .vintVshl d a b t q => Sys2Proof.Machine.execVintVshl d a b t q s
  | .vintVshr d a b t q => Sys2Proof.Machine.execVintVshr d a b t q s
  | .vintVcmp c p a b t q => Sys2Proof.Machine.execVintVcmp c p a b t q s
  | .vintVred d a k t q => Sys2Proof.Machine.execVintVred d a k t q s
  | .vdot4 d a b t q => Sys2Proof.Machine.execVdot4 d a b t q s
  | .vfltVadd d a b t q => Sys2Proof.Machine.execVfltVadd d a b t q s
  | .vfltVsub d a b t q => Sys2Proof.Machine.execVfltVsub d a b t q s
  | .vfltVmul d a b t q => Sys2Proof.Machine.execVfltVmul d a b t q s
  | .vfltVmin d a b t q => Sys2Proof.Machine.execVfltVmin d a b t q s
  | .vfltVmax d a b t q => Sys2Proof.Machine.execVfltVmax d a b t q s
  | .vfltVabs d a t q => Sys2Proof.Machine.execVfltVabs d a t q s
  | .vfltVneg d a t q => Sys2Proof.Machine.execVfltVneg d a t q s
  | .vfma d a b t q => Sys2Proof.Machine.execVfma d a b t q s
  | .vfnma d a b t q => Sys2Proof.Machine.execVfnma d a b t q s
  | .vminnum d a b t q => Sys2Proof.Machine.execVminnum d a b t q s
  | .vmaxnum d a b t q => Sys2Proof.Machine.execVmaxnum d a b t q s
  | .vfltVcmp c p a b t q => Sys2Proof.Machine.execVfltVcmp c p a b t q s
  | .vfltVred d a k t q => Sys2Proof.Machine.execVfltVred d a k t q s
  | .vsel d a b t q => Sys2Proof.Machine.execVsel d a b t q s
  | .vsplat d a t q => Sys2Proof.Machine.execVsplat d a t q s
  | .vperm d a b t q => Sys2Proof.Machine.execVperm d a b t q s
  | .vpack d a b t => Sys2Proof.Machine.execVpack d a b t s
  | .vunpack d a h t => Sys2Proof.Machine.execVunpack d a h t s
  | .vcvt d a u t q => Sys2Proof.Machine.execVcvt d a u t q s
  | .vrcp d a t q => Sys2Proof.Machine.execVrcp d a t q s
  | .vrsqrt d a t q => Sys2Proof.Machine.execVrsqrt d a t q s
  | .vsqrt d a t q => Sys2Proof.Machine.execVsqrt d a t q s
  | .vexp2 d a t q => Sys2Proof.Machine.execVexp2 d a t q s
  | .vlog2 d a t q => Sys2Proof.Machine.execVlog2 d a t q s
  | .vsinpi d a t q => Sys2Proof.Machine.execVsinpi d a t q s
  | .vcospi d a t q => Sys2Proof.Machine.execVcospi d a t q s
  | .vld d a b t q => Sys2Proof.Machine.execVld d a b t q s
  | .vst d a b t q => Sys2Proof.Machine.execVst d a b t q s
  | .vlds d a b t q => Sys2Proof.Machine.execVlds d a b t q s
  | .vldx d a b t q => Sys2Proof.Machine.execVldx d a b t q s
  | .vstx d a b t q => Sys2Proof.Machine.execVstx d a b t q s
  | .spawn d a b q => Sys2Proof.Machine.execSpawn d a b q s
  | .quit a => Sys2Proof.Machine.execQuit a s
  | .reap d b q => Sys2Proof.Machine.execReap d b q s
  | .kill a q => Sys2Proof.Machine.execKill a q s
  | .pri d a => Sys2Proof.Machine.execPri d a s
  | .migrate a q => Sys2Proof.Machine.execMigrate a q s
  | .wake a q => Sys2Proof.Machine.execWake a q s
  | .join a => Sys2Proof.Machine.execJoin a s
  | .bartry q => Sys2Proof.Machine.execBartry q s
  | .gang a n q => Sys2Proof.Machine.execGang a n q s
  | .part d a b q => Sys2Proof.Machine.execPart d a b q s
  | .get k m b q => Sys2Proof.Machine.execGet k m b q s
  | .put k m b q => Sys2Proof.Machine.execPut k m b q s
  | .gets k m p jj z => Sys2Proof.Machine.execGets k m p jj z s
  | .puts k m p jj z => Sys2Proof.Machine.execPuts k m p jj z s
  | .rput k m b q => Sys2Proof.Machine.execRput k m b q s
  | .gamoAdd k m t w q => Sys2Proof.Machine.execGamoAdd k m t w q s
  | .gamoAnd k m t w q => Sys2Proof.Machine.execGamoAnd k m t w q s
  | .gamoOr k m t w q => Sys2Proof.Machine.execGamoOr k m t w q s
  | .gamoXor k m t w q => Sys2Proof.Machine.execGamoXor k m t w q s
  | .gamoMin k m t w q => Sys2Proof.Machine.execGamoMin k m t w q s
  | .gamoMax k m t w q => Sys2Proof.Machine.execGamoMax k m t w q s
  | .gamoMinn k m t w q => Sys2Proof.Machine.execGamoMinn k m t w q s
  | .gamoMaxn k m t w q => Sys2Proof.Machine.execGamoMaxn k m t w q s
  | .gamoSwap k m t w q => Sys2Proof.Machine.execGamoSwap k m t w q s
  | .kadd a b q => Sys2Proof.Machine.execKadd a b q s
  | .kset k r => Sys2Proof.Machine.execKset k r s
  | .kread k r => Sys2Proof.Machine.execKread k r s
  | .tierpf k m r q => Sys2Proof.Machine.execTierpf k m r q s
  | .qstat d => Sys2Proof.Machine.execQstat d s
  | .bind d a b q => Sys2Proof.Machine.execBind d a b q s
  | .unbind d a b q => Sys2Proof.Machine.execUnbind d a b q s
  | .acqX a b => Sys2Proof.Machine.execAcqX a b s
  | .acqS a b => Sys2Proof.Machine.execAcqS a b s
  | .rel a => Sys2Proof.Machine.execRel a s
  | .waitn a => Sys2Proof.Machine.execWaitn a s
  | .waitc k r => Sys2Proof.Machine.execWaitc k r s
  | .rcas d a b q => Sys2Proof.Machine.execRcas d a b q s
  | .ramoAdd d a b q => Sys2Proof.Machine.execRamoAdd d a b q s
  | .ramoAnd d a b q => Sys2Proof.Machine.execRamoAnd d a b q s
  | .ramoOr d a b q => Sys2Proof.Machine.execRamoOr d a b q s
  | .ramoXor d a b q => Sys2Proof.Machine.execRamoXor d a b q s
  | .ramoMin d a b q => Sys2Proof.Machine.execRamoMin d a b q s
  | .ramoMax d a b q => Sys2Proof.Machine.execRamoMax d a b q s
  | .ramoMinn d a b q => Sys2Proof.Machine.execRamoMinn d a b q s
  | .ramoMaxn d a b q => Sys2Proof.Machine.execRamoMaxn d a b q s
  | .ramoSwap d a b q => Sys2Proof.Machine.execRamoSwap d a b q s
  | .iflush k a z q => Sys2Proof.Machine.execIflush k a z q s
  | .mldw a q => Sys2Proof.Machine.execMldw a q s
  | .mstream d a b q => Sys2Proof.Machine.execMstream d a b q s
  | .mstreams d a b q => Sys2Proof.Machine.execMstreams d a b q s
  | .mstreamd d a b q => Sys2Proof.Machine.execMstreamd d a b q s
  | .mcomp a b q => Sys2Proof.Machine.execMcomp a b q s
  | .azero d => Sys2Proof.Machine.execAzero d s
  | .aldr d a b => Sys2Proof.Machine.execAldr d a b s
  | .astr d a b => Sys2Proof.Machine.execAstr d a b s
  | .amove d a => Sys2Proof.Machine.execAmove d a s
  | .aout d a b => Sys2Proof.Machine.execAout d a b s
  | .fbrev d b => Sys2Proof.Machine.execFbrev d b s
  | .fpass d b => Sys2Proof.Machine.execFpass d b s
  | .ftwg d b => Sys2Proof.Machine.execFtwg d b s
  | .ftwm d b => Sys2Proof.Machine.execFtwm d b s
  | .fcmul d a b => Sys2Proof.Machine.execFcmul d a b s
  | .chbind u v => Sys2Proof.Machine.execChbind u v s
  | .enq a q => Sys2Proof.Machine.execEnq a q s
  | .deq d q => Sys2Proof.Machine.execDeq d q s
  | .chwm d a c => Sys2Proof.Machine.execChwm d a c s
  | .send a b q => Sys2Proof.Machine.execSend a b q s
  | .recv d b q => Sys2Proof.Machine.execRecv d b q s
  | .stagedef a b q => Sys2Proof.Machine.execStagedef a b q s
  | .krecv q => Sys2Proof.Machine.execKrecv q s
  | .klook d a => Sys2Proof.Machine.execKlook d a s
  | .tpost d a q => Sys2Proof.Machine.execTpost d a q s
  | .tfoot a n q => Sys2Proof.Machine.execTfoot a n q s
  | .tstat d a => Sys2Proof.Machine.execTstat d a s
  | .twait a b => Sys2Proof.Machine.execTwait a b s
  | .trap a => Sys2Proof.Machine.execTrap a s
  | .csrr d n m => Sys2Proof.Machine.execCsrr d n m s
  | .csrw d a n m => Sys2Proof.Machine.execCsrw d a n m s
  | .csrs d a n m => Sys2Proof.Machine.execCsrs d a n m s
  | .csrc d a n m => Sys2Proof.Machine.execCsrc d a n m s
  | .snap a => Sys2Proof.Machine.execSnap a s
  | .ctxsave a b q => Sys2Proof.Machine.execCtxsave a b q s
  | .ctxload a b q => Sys2Proof.Machine.execCtxload a b q s
  | .tlbinv a b => Sys2Proof.Machine.execTlbinv a b s
  | .doffer d a b q => Sys2Proof.Machine.execDoffer d a b q s
  | .daccept d a q => Sys2Proof.Machine.execDaccept d a q s
  | .dreject d a q => Sys2Proof.Machine.execDreject d a q s
  | .dlend d a b q => Sys2Proof.Machine.execDlend d a b q s
  | .drecall d a q => Sys2Proof.Machine.execDrecall d a q s
  | .drelease d a q => Sys2Proof.Machine.execDrelease d a q s
  | .dquery d a => Sys2Proof.Machine.execDquery d a s
  | .psplit d a b q => Sys2Proof.Machine.execPsplit d a b q s
  | .pmerge d a q => Sys2Proof.Machine.execPmerge d a q s
  | .heatset d a b q => Sys2Proof.Machine.execHeatset d a b q s
  | .curtain d a b q => Sys2Proof.Machine.execCurtain d a b q s
  | .token d a b q => Sys2Proof.Machine.execToken d a b q s
  | .cNop => Sys2Proof.Machine.execCNop s
  | .yield => Sys2Proof.Machine.execYield s
  | .leave => Sys2Proof.Machine.execLeave s
  | .bar => Sys2Proof.Machine.execBar s
  | .ungang => Sys2Proof.Machine.execUngang s
  | .waitm => Sys2Proof.Machine.execWaitm s
  | .fenceCore => Sys2Proof.Machine.execFenceCore s
  | .fenceClus => Sys2Proof.Machine.execFenceClus s
  | .fenceDev => Sys2Proof.Machine.execFenceDev s
  | .fenceDom => Sys2Proof.Machine.execFenceDom s
  | .mswap => Sys2Proof.Machine.execMswap s
  | .kyield => Sys2Proof.Machine.execKyield s
  | .kretire => Sys2Proof.Machine.execKretire s
  | .tdone => Sys2Proof.Machine.execTdone s
  | .ecall => Sys2Proof.Machine.execEcall s
  | .ebreak => Sys2Proof.Machine.execEbreak s
  | .xret => Sys2Proof.Machine.execXret s
  | .illegalEncodingDecode => Sys2Proof.Machine.execIllegalEncodingDecode s
  | .fetchFill => Sys2Proof.Machine.execFetchFill s
  | .iflushComplete => Sys2Proof.Machine.execIflushComplete s
  | .causeTaken => Sys2Proof.Machine.execCauseTaken s
  | .monitorCompletion => Sys2Proof.Machine.execMonitorCompletion s
  | .divideByZeroDelivery => Sys2Proof.Machine.execDivideByZeroDelivery s
  | .lsCorrectedWriteback => Sys2Proof.Machine.execLsCorrectedWriteback s
  | .coreRemap => Sys2Proof.Machine.execCoreRemap s
  | .wingsSwapOut => Sys2Proof.Machine.execWingsSwapOut s
  | .wingsSlotGrant => Sys2Proof.Machine.execWingsSlotGrant s
  | .wingsMoveDone => Sys2Proof.Machine.execWingsMoveDone s
  | .spawnRequest => Sys2Proof.Machine.execSpawnRequest s
  | .spawnReply => Sys2Proof.Machine.execSpawnReply s
  | .killRequest => Sys2Proof.Machine.execKillRequest s
  | .killReply => Sys2Proof.Machine.execKillReply s
  | .migrateRequest => Sys2Proof.Machine.execMigrateRequest s
  | .migrateReply => Sys2Proof.Machine.execMigrateReply s
  | .quitDrainEnd => Sys2Proof.Machine.execQuitDrainEnd s
  | .reapRecord => Sys2Proof.Machine.execReapRecord s
  | .crewPhaseComplete => Sys2Proof.Machine.execCrewPhaseComplete s
  | .gangBufferExecute => Sys2Proof.Machine.execGangBufferExecute s
  | .gangVredCombine => Sys2Proof.Machine.execGangVredCombine s
  | .umpireQueueSelect => Sys2Proof.Machine.execUmpireQueueSelect s
  | .launch => Sys2Proof.Machine.execLaunch s
  | .launchPlacement => Sys2Proof.Machine.execLaunchPlacement s
  | .placementCommand => Sys2Proof.Machine.execPlacementCommand s
  | .launchGateLift => Sys2Proof.Machine.execLaunchGateLift s
  | .launchComplete => Sys2Proof.Machine.execLaunchComplete s
  | .wait => Sys2Proof.Machine.execWait s
  | .signal => Sys2Proof.Machine.execSignal s
  | .seed => Sys2Proof.Machine.execSeed s
  | .qadmit => Sys2Proof.Machine.execQadmit s
  | .doorbell => Sys2Proof.Machine.execDoorbell s
  | .copyEntryService => Sys2Proof.Machine.execCopyEntryService s
  | .copyEntryComplete => Sys2Proof.Machine.execCopyEntryComplete s
  | .copyEntryFail => Sys2Proof.Machine.execCopyEntryFail s
  | .translationWalk => Sys2Proof.Machine.execTranslationWalk s
  | .translationFaultStall => Sys2Proof.Machine.execTranslationFaultStall s
  | .faultRecordWrite => Sys2Proof.Machine.execFaultRecordWrite s
  | .faultReplyReplay => Sys2Proof.Machine.execFaultReplyReplay s
  | .faultReplyFail => Sys2Proof.Machine.execFaultReplyFail s
  | .tierMigratePage => Sys2Proof.Machine.execTierMigratePage s
  | .directRead => Sys2Proof.Machine.execDirectRead s
  | .rputWrite => Sys2Proof.Machine.execRputWrite s
  | .counterIncrement => Sys2Proof.Machine.execCounterIncrement s
  | .counterWindowWrite => Sys2Proof.Machine.execCounterWindowWrite s
  | .lsWindowAccess => Sys2Proof.Machine.execLsWindowAccess s
  | .remoteAtomicPerform => Sys2Proof.Machine.execRemoteAtomicPerform s
  | .remoteAtomicReply => Sys2Proof.Machine.execRemoteAtomicReply s
  | .remoteAtomicCancel => Sys2Proof.Machine.execRemoteAtomicCancel s
  | .cancelAtTarget => Sys2Proof.Machine.execCancelAtTarget s
  | .bindingRequest => Sys2Proof.Machine.execBindingRequest s
  | .lockRequest => Sys2Proof.Machine.execLockRequest s
  | .lockRelease => Sys2Proof.Machine.execLockRelease s
  | .lockGrant => Sys2Proof.Machine.execLockGrant s
  | .hubAnswer => Sys2Proof.Machine.execHubAnswer s
  | .messageArrival => Sys2Proof.Machine.execMessageArrival s
  | .messageReply => Sys2Proof.Machine.execMessageReply s
  | .channelPushArrival => Sys2Proof.Machine.execChannelPushArrival s
  | .channelCreditReturn => Sys2Proof.Machine.execChannelCreditReturn s
  | .channelDeadlock => Sys2Proof.Machine.execChannelDeadlock s
  | .recordDispatch => Sys2Proof.Machine.execRecordDispatch s
  | .roleSpill => Sys2Proof.Machine.execRoleSpill s
  | .roleFetchBack => Sys2Proof.Machine.execRoleFetchBack s
  | .idleLimitExpiry => Sys2Proof.Machine.execIdleLimitExpiry s
  | .taskPostAtHub => Sys2Proof.Machine.execTaskPostAtHub s
  | .taskDispatch => Sys2Proof.Machine.execTaskDispatch s
  | .taskCommit => Sys2Proof.Machine.execTaskCommit s
  | .roomAbort => Sys2Proof.Machine.execRoomAbort s
  | .weightLoad => Sys2Proof.Machine.execWeightLoad s
  | .weightCompress => Sys2Proof.Machine.execWeightCompress s
  | .planeSwap => Sys2Proof.Machine.execPlaneSwap s
  | .streamRowWrite => Sys2Proof.Machine.execStreamRowWrite s
  | .accumulatorWriteOut => Sys2Proof.Machine.execAccumulatorWriteOut s
  | .transformExecute => Sys2Proof.Machine.execTransformExecute s
  | .footprintRetire => Sys2Proof.Machine.execFootprintRetire s
  | .heatBoundary => Sys2Proof.Machine.execHeatBoundary s
  | .heatExpired => Sys2Proof.Machine.execHeatExpired s
  | .linkSlotOpen => Sys2Proof.Machine.execLinkSlotOpen s
  | .recallDeadlineExpiry => Sys2Proof.Machine.execRecallDeadlineExpiry s
  | .deedTransitEnd => Sys2Proof.Machine.execDeedTransitEnd s
  | .zeroOnReadCleared => Sys2Proof.Machine.execZeroOnReadCleared s
  | .dpcmdDoffer => Sys2Proof.Machine.execDpcmdDoffer s
  | .dpcmdDaccept => Sys2Proof.Machine.execDpcmdDaccept s
  | .dpcmdDreject => Sys2Proof.Machine.execDpcmdDreject s
  | .dpcmdDlend => Sys2Proof.Machine.execDpcmdDlend s
  | .dpcmdDrecall => Sys2Proof.Machine.execDpcmdDrecall s
  | .dpcmdDrelease => Sys2Proof.Machine.execDpcmdDrelease s
  | .dpcmdDquery => Sys2Proof.Machine.execDpcmdDquery s
  | .dpcmdNone => Sys2Proof.Machine.execDpcmdNone s
  | .vipost => Sys2Proof.Machine.execVipost s
  | .dbghalt => Sys2Proof.Machine.execDbghalt s
  | .dbgctl => Sys2Proof.Machine.execDbgctl s
  | .snapshotFiring => Sys2Proof.Machine.execSnapshotFiring s
  | .snapshotPin => Sys2Proof.Machine.execSnapshotPin s
  | .watchdog => Sys2Proof.Machine.execWatchdog s
  | .mgmtClaim => Sys2Proof.Machine.execMgmtClaim s
  | .mgmtRelease => Sys2Proof.Machine.execMgmtRelease s
  | .devidWrite => Sys2Proof.Machine.execDevidWrite s
  | .linkTraining => Sys2Proof.Machine.execLinkTraining s
  | .reset => Sys2Proof.Machine.execReset s
  | .wipeComplete => Sys2Proof.Machine.execWipeComplete s
  | .recoveryImage => Sys2Proof.Machine.execRecoveryImage s
  | .raisesvn => Sys2Proof.Machine.execRaisesvn s
  | .lifeCycleTransition => Sys2Proof.Machine.execLifeCycleTransition s
  | .monitorVersion => Sys2Proof.Machine.execMonitorVersion s
  | .policyload => Sys2Proof.Machine.execPolicyload s
  | .monstage => Sys2Proof.Machine.execMonstage s
  | .thermal => Sys2Proof.Machine.execThermal s
  | .monitorUnknownCall => Sys2Proof.Machine.execMonitorUnknownCall s
  | .monitorUpdateApply => Sys2Proof.Machine.execMonitorUpdateApply s
  | .thermalThrottle => Sys2Proof.Machine.execThermalThrottle s
  | .hbmTemperatureThreshold => Sys2Proof.Machine.execHbmTemperatureThreshold s
  | .catastrophicShutdown => Sys2Proof.Machine.execCatastrophicShutdown s
  | .registerWrite => Sys2Proof.Machine.execRegisterWrite s
  | .azeroAmoveAtHead => Sys2Proof.Machine.execAzeroAmoveAtHead s
  | .remoteAcknowledgement => Sys2Proof.Machine.execRemoteAcknowledgement s
  | .hostMemoryAccess => Sys2Proof.Machine.execHostMemoryAccess s
  | .powerLoss => Sys2Proof.Machine.execPowerLoss s
  | .localStoreEccError => Sys2Proof.Machine.execLocalStoreEccError s
  | .dramEccError => Sys2Proof.Machine.execDramEccError s

end Sys2Proof.Machine
end

