-- ==== Sys2Proof/Machine/Schedule.lean ====
section
/-! DEFINITION. What the device does next (R17): an input, a step that is due, the turn of a thread, or the passage of one
cycle; and what a turn leaves behind: the copies for a gang's followers (R153) and SINGLE_STEP (R378). Between agents the
spec gives no order but that of R233; this one schedule is one of those it allows, and the tape holds any other
(DESIGN CHOICE, log entries 1 to 3). -/

namespace Sys2Proof.Machine

/-- What a step does. -/
inductive Move where
  /-- The device has no power and no input waits. -/
  | off
  /-- An instruction issues in its thread's turn. -/
  | issue (i : Instr) (s : State)
  /-- A device step, its arguments in the state. -/
  | event (i : Instr) (s : State)
  /-- The machine goes on without an instruction. -/
  | quiet (s : State)

/-! ### The turn of a thread -/

/-- Whether a breakpoint of the core names an instruction address (R392, R393). -/
def atBreakpoint (core : Core) (pc : Word) : Bool :=
  [0, 1, 2, 3].any fun i => let b := Map.get 0 core.bps i; b.getLsbD 0 && bits b.toNat 1 56 == bits pc.toNat 1 56

/-- A thread in a gang may take its turn (R153): the stroke while no buffer of its gang is full, or while the engine holds an
instruction that it has issued (R268, R287), a follower while its own is not empty. A pending cause that it can take is taken in
either case, and a reduction that has its result is completed (R169). -/
def gangReady (s : State) (a : Actor) (c : Ctx) : Bool :=
  match c.gang with
  | none => true
  | some g =>
    (nextCause (s.core a.core) c).isSome || c.isCombined ||
      if g.stroke = a then
        (s.core a.core).holds a.thread || g.members.all fun m => m == a || match (s.ctx m).gang with
          | some f => f.stroke != a || decide (f.buffer.length < 8)
          | none => true
      else !g.buffer.isEmpty

/-- The turn of a ready thread: a gang reduction that has its result completes (R169); else a pending cause first (R376), then the park
of a throttled producer (R311), a breakpoint (R393), a follower's buffer (R153), and the fetch and decoding of the next word (R20, R21,
R28, R115). An instruction that the engine holds goes on (R268). (DEDUCED, log entry 39.) -/
def turnOf (a : Actor) (s : State) : Move :=
  let s := { s with actor := a }
  let c := s.me
  let core := s.here
  let holds := core.holds a.thread
  if c.isCombined then .quiet (finishMember a s)
  else if atBoundary s.now core a.thread c && (nextCause core c).isSome then .event .causeTaken { s with args := [a.core, a.thread] }
  else if !holds && isHeldBack s a then .quiet (throttlePark a s)
  else if !holds && atBreakpoint core c.pc then
    .quiet (if core.dbgCtl.getLsbD 1 then s.setMe { c with halted := true } else trapOpen .breakpoint s)
  else if (nextItem a c).isSome then .event .gangBufferExecute { s with args := [a.core, a.thread] }
  else if bits c.pc.toNat 57 7 ≠ 0 then .quiet (trapE .addressNoncanonical c.pc s)
  else match fetchBlock a s with
    | .inr s => .quiet s
    | .inl b => match wordAt b (c.pc.toNat % 64) with
      | none => .quiet (trapE .fetchMisaligned c.pc s)
      | some (len, w) => match decodeWord len w with
        | .ok i => .issue i s
        | .error _ => .event .illegalEncodingDecode { s with args := [len, w] }

/-- The length of an instruction's word: 2 bytes for the C. forms (R20, R27). -/
def lengthOf (i : Instr) : Nat :=
  match encode i with
  | some (nbits, _) => nbits / 8
  | none => 4

/-- What follows a thread's issue: the copy that goes to every follower of a gang's stroke once the instruction has
completed, goes on without its turn, or is held by the engine (R153, R287), and SINGLE_STEP (R378). (DEDUCED, log
entry 22.) -/
def afterIssue (i : Instr) (s t : State) : State :=
  let a := s.actor
  let pc := s.me.pc
  let before := s.here.instret
  let done := t.here.instret != before
  let leaves := match t.me.status with
    | .waiting | .divWait => t.me.reduction.isNone
    | _ => false
  let link := pc + word (lengthOf i)
  let held := s.here.holds a.thread
  let holds := t.here.holds a.thread && !held
  let t := if isStroke s && isStroke t && !held && (done || leaves || holds) then
      copyToGang ⟨i, pc, if done then t.me.pc else link, link⟩ t
    else t
  noteCurrent i a (singleStep i before a t)

/-! ### The rotation (R17, R131) -/

/-- The next ready thread of a core, in cyclic order of slots after the last to issue. -/
def nextThread (s : State) (k : Nat) : Option Nat :=
  let core := s.core k
  let dist (c : Ctx) : Nat := (c.slot + 15 - core.lastSlot) % 16
  if s.now < core.nextIssue then none
  else
    (((readyThreads s k).filter fun e => gangReady s ⟨k, e.1⟩ e.2).foldl (fun best e => match best with
      | none => some e
      | some b => if dist e.2 < dist b.2 then some e else some b) (none : Option (Nat × Ctx))).map (·.1)

/-- Whether a free slot can be granted now (R131). -/
def canGrant (s : State) (k : Nat) : Bool :=
  let core := s.core k
  core.hasPending && mayIssue s k && decide (core.portBusy ≤ s.now) && core.freeSlot.isSome

/-- Whether a swap is due (R131). -/
def canSwap (s : State) (k : Nat) : Bool :=
  let core := s.core k
  core.hasPending && mayIssue s k && !core.isMoving && core.freeSlot.isNone && match nextPending core, victimOf core with
    | some p, some v => decide (v.2.eff < p.2.eff) && hasReached s ⟨k, v.1⟩ v.2
    | _, _ => false

/-- What a core can do now. -/
def coreMove (s : State) (k : Nat) : Option Move :=
  if canGrant s k then some (.event .wingsSlotGrant { s with args := [k] })
  else if canSwap s k then some (.event .wingsSwapOut { s with args := [k] })
  else (nextThread s k).map fun t => turnOf ⟨k, t⟩ s

/-! ### Time -/

/-- The roles of a core whose idle limit has passed (R324). -/
def idleRoles (s : State) (core : Core) (st : Stage) : List Nat :=
  let due (since : Nat) : Bool := decide (since + st.idle ≤ s.time)
  let quiet (key : Nat) : Bool := st.idle != 0 && (st.pending key).isEmpty
  let resident := core.threads.filterMap fun t => match t.2.role with
    | some key =>
      if t.2.suspended && due t.2.suspendedAt && quiet key && !(st.spilling.any fun p => p.key == key && p.finale != 0)
      then some key else none
    | none => none
  resident ++ (st.spills.filter fun p => decide (p.deadline ≤ s.time) && p.finale == 0 && quiet p.key).map (·.key)

/-- What falls due by TIME: expired deadlines of recalls (R406), boundaries of heats (R413), idle limits (R324), link slots
(R414), a stack's shutdown (R437), and watchdogs (R395). -/
def postDue (s : State) : State :=
  let s := s.hub.deeds.foldl (fun s e =>
    if e.2.state = .recalling ∧ e.2.due ≤ s.time ∧ e.2.transit = false then s.post 0 .recallDeadlineExpiry [e.1] else s) s
  let s := s.hub.parts.foldl (fun s e =>
    if e.2.valid && e.2.switch.isNone && boundaryDue s e.1 then s.post 0 .heatBoundary [e.1] else s) s
  let s := s.cores.foldl (fun s e => match e.2.stage with
    | some st => (idleRoles s e.2 st).foldl (fun s key => s.post 0 .idleLimitExpiry [e.1, key]) s
    | none => s) s
  let s := if slotAt s.time = s.hub.linkOpen then s else s.post 0 .linkSlotOpen [slotAt s.time]
  let s := match s.plat.shutdownAt with
    | some t =>
      if t ≤ s.time then
        s.post 0 .catastrophicShutdown [((List.range 12).find? fun i => (Map.get 0 s.plat.stackState i).testBit 2).getD 0]
      else s
    | none => s
  s.cores.foldl (fun s e => if isIdleTooLong s e.1 then s.post 0 .watchdog [e.1] else s) s

/-- A core without a ready context begins its count afresh (R395), and a forwarding entry to whose old handle no reply is in
flight any more is released (R144). -/
def countReady (s : State) : State :=
  { s with cores := s.cores.map fun e =>
    let c := if (waitingThreads s e.1).isEmpty then { e.2 with readySince := s.now } else e.2
    (e.1, { c with forwards := keptForwards s e.1 }) }

/-- One cycle passes; TIME advances with it by an amount that the spec leaves open (R441, DESIGN CHOICE, log entry 4). -/
def tick (s : State) : State := postDue (countReady { s with now := s.now + 1, time := s.time + Config.regattaNanos s.now })

/-! ### The next move -/

/-- Whether an instruction is a device step of the opcode table. -/
def isDeviceStep (i : Instr) : Bool := (encode i).isNone

/-- The first step of the agenda that is due, and the agenda without it. -/
def takeDue (now : Nat) : List Due → Option (Due × List Due)
  | [] => none
  | d :: ds => if d.at_ ≤ now then some (d, ds) else (takeDue now ds).map fun x => (x.1, d :: x.2)

/-- Whether a step receives an operation in flight. -/
def isArrival (i : Instr) : Bool :=
  match i with
  | .rputWrite | .counterIncrement | .remoteAtomicPerform | .remoteAtomicReply | .cancelAtTarget | .remoteAcknowledgement
  | .spawnRequest | .spawnReply | .killRequest | .killReply | .migrateRequest | .migrateReply | .reapRecord | .bindingRequest
  | .lockRequest | .lockRelease | .lockGrant | .hubAnswer | .messageArrival | .messageReply | .channelPushArrival
  | .channelCreditReturn | .taskPostAtHub => true
  | _ => false

/-- The issuing EFF of a due step, where it receives an operation that may arrive now. -/
def arrivalEff (s : State) (d : Due) : Option Nat :=
  if isArrival d.step ∧ d.at_ ≤ s.now then (s.arriving (d.args.getD 0 0)).map (·.eff) else none

/-- The step of the agenda that is next, and the agenda without it: the first that is due, except that among the arrivals the
one with the highest issuing EFF goes first (R132). -/
def pickDue (s : State) : Option (Due × List Due) :=
  match takeDue s.now s.agenda with
  | none => none
  | some (d, rest) => match arrivalEff s d with
    | none => some (d, rest)
    | some e =>
      let best := rest.foldl (fun (b : Due × Nat) x => match arrivalEff s x with
        | some y => if b.2 < y then (x, y) else b
        | none => b) (d, e)
      some (best.1, s.agenda.erase best.1)

/-- The move that no tape chooses: what is due, then the first core that can do something, then time.
(DESIGN CHOICE, log entry 1.) -/
def usualMove (s : State) : Move :=
  match pickDue s with
  | some (d, rest) => .event d.step { s with agenda := rest, args := d.args }
  | none => match s.cores.findSome? fun e => coreMove s e.1 with
    | some m => m
    | none => .quiet (tick s)

/-- The device steps that are a thread's own turn, which happen in the rotation alone (R17), and those whose time the spec gives
exactly (R110, R130): the tape cannot name them, and they come as a thread's turn or as the usual move. -/
def isTurnStep (i : Instr) : Bool :=
  match i with
  | .causeTaken | .gangBufferExecute | .illegalEncodingDecode | .divideByZeroDelivery | .wingsMoveDone => true
  | _ => false

/-- Whether an input can act: no step out of its turn; a device without power takes a reset and nothing else, and one that stays
in reset because nothing booted takes a reset, a loss of power, and what its management mailbox carries (R427). -/
def accepts (s : State) (i : Instr) : Bool :=
  isDeviceStep i && !isTurnStep i && (i == .reset || (s.powered && (!s.plat.bootFail || match i with
    | .hostMemoryAccess | .mgmtClaim | .mgmtRelease | .recoveryImage | .powerLoss => true
    | _ => false)))

/-- Within how many cycles a crew's phase completes once the last arrival is made; none for a crew that spans dies (R150). -/
def phaseBound (crew : Crew) : Option Nat :=
  let one (f : Nat → Nat) : Bool := ((crew.members.map fun m => f m.1.core).eraseDups).length ≤ 1
  if crew.members.any fun m => isHub m.1.core then some 300
  else if one clusterOf then some 24 else if one dieOf then some 300 else none

/-- Whether a step has come to the end of the time that the spec gives it: a phase's completion (R150), a divide's cause (R110),
and the end of a move through the port (R130). -/
def isOverdue (s : State) (d : Due) : Bool :=
  let by_ (n : Nat) : Bool := decide (d.at_ + n ≤ s.now)
  match d.step with
  | .crewPhaseComplete => (phaseBound (s.crew (d.args.getD 0 0))).any by_
  | .divideByZeroDelivery | .wingsMoveDone => by_ 0
  | _ => false

/-- Whether a cycle may pass: no core can do something (R17, R133), and no step has come to the end of its time. -/
def mayPass (s : State) : Bool := s.powered && (s.cores.all fun e => (coreMove s e.1).isNone) && !s.agenda.any (isOverdue s)

/-- An input from the tape: the turn of a core's next thread, a step, or a cycle that passes, where it may. -/
def inputMove (t : Turn) (s : State) : Move :=
  match t with
  | .thread k n => if s.powered && nextThread s k == some n then turnOf ⟨k, n⟩ s else .quiet s
  | .event i args => if accepts s i then .event i { s with args := args } else .quiet s
  | .cycle => .quiet (if mayPass s then tick s else s)
  | .usual => if s.powered then usualMove s else .quiet s

/-- The next move (DESIGN CHOICE, log entries 1 to 3): the tape, then the usual move. -/
def nextMove (s : State) : Move :=
  match s.tape with
  | t :: ts => inputMove t { s with tape := ts }
  | [] => if s.powered then usualMove s else .off

end Sys2Proof.Machine
end

