-- ==== Sys2Proof/Machine/Step.lean ====
section
/-! DEFINITION. One step of the device, and the state in which a given word is the next to be fetched. -/

namespace Sys2Proof.Machine

/-- One step: the next move, and the meaning of its instruction or device step. -/
def step (s : State) : Host.Outcome State Fault Refusal :=
  match nextMove s with
  | .off => .fault .deviceOff
  | .quiet t => .next t
  | .event i t => exec i t
  | .issue i t =>
    match exec i t with
    | .next u => .next (afterIssue i t u)
    | r => r

/-- The fetch block at an address in which the bytes of a word stand at an offset. -/
def blockWith (code : Nat) (at_ : Word) (off nbits w : Nat) : IBlock where
  code := code
  addr := at_
  bytes := List.replicate off 0 ++ (bytesOfNat (nbits / 8) w ++ List.replicate (64 - off - nbits / 8) 0)

/-- The state with an instruction where `step` fetches its next one: in the fetch buffer of thread 0 of core 0, whose turn is
next. Programs come from outside the device through queues and launches (DESIGN CHOICE, log entry 10); this stands for such a load. -/
def State.withFetchWord (s : State) (nbits w : Nat) : State :=
  let a : Actor := ⟨0, 0⟩
  let c := s.ctx a
  let pc := if c.pc.toNat % 64 = 62 ∨ 2 ^ 57 ≤ c.pc.toNat then 0 else c.pc
  let c := { c with
    pc := pc
    fetch := some (blockWith c.codeId.toNat (blockOf pc) (pc.toNat % 64) nbits w)
    fetching := false
    place := .live c.slot
    status := .running
    readyAt := s.now
    pend := []
    gang := none
    bindV := 4
    suspended := false
    ending := none
    halted := false
    monitored := false
    current := none }
  let core := s.core 0
  let s := s.setCore 0 { core with
    threads := Tbl.put core.threads 0 c
    eng := Engine.reset
    dbgHalt := 0
    bps := []
    stopped := false
    nextIssue := s.now
    lastSlot := (c.slot + 15) % 16 }
  { s with
    actor := a
    tape := [.thread 0 0]
    agenda := []
    powered := true
    plat := { s.plat with wiping := false, bootFail := false } }

end Sys2Proof.Machine
end

