-- ==== Sys2Proof/Safety.lean ====
section
/-! DEFINITION. The vocabulary of the claims: what a safe run is, the canonical form of memory, and how much of the device a
step leaves as it was. A frame is written as an equation between the new state and the old one with the named fields taken
from the new: every field that it does not name is unchanged. -/

namespace Sys2Proof.Machine

/-! ### Safe steps -/

/-- The step answers a next state. -/
def Safe (s : State) : Prop := ∃ t, step s = .next t

/-- Device memory is in its canonical form: addresses strictly rising, and no byte listed that reads zero. -/
def State.MemoryWf (s : State) : Prop := Memory.wf s.dram = true

/-! ### Frames -/

/-- Nothing but the cores may have changed. -/
def OnlyCores (s t : State) : Prop := t = { s with cores := t.cores }

/-- Every core but `k` is as it was. -/
def OtherCores (k : Nat) (s t : State) : Prop := ∀ j, j ≠ k → t.core j = s.core j

/-- Every other thread of the acting thread's core is as it was. -/
def OtherThreads (s t : State) : Prop :=
  ∀ n, n ≠ s.actor.thread → t.ctx? ⟨s.actor.core, n⟩ = s.ctx? ⟨s.actor.core, n⟩

/-- The acting core is as it was but for its threads, INSTRET and the marks of an issue. -/
def CoreIssued (s t : State) : Prop :=
  t.here = { s.here with
    threads := t.here.threads, instret := t.here.instret, lastSlot := t.here.lastSlot, nextIssue := t.here.nextIssue }

/-- Outside the acting thread's context nothing changed but what every issue changes. -/
def OnlyThread (s t : State) : Prop :=
  OnlyCores s t ∧ OtherCores s.actor.core s t ∧ OtherThreads s t ∧ CoreIssued s t

/-- The instruction has completed and the PC is `pc`; the context is not ready for `occ` cycles. -/
def CompletedAt (pc : Word) (occ : Nat) (s t : State) : Prop :=
  t.me.pc = pc ∧ t.me.readyAt = s.now + occ ∧ t.here.instret = s.here.instret + 1

/-- The instruction has completed and the PC is past its `len` bytes. -/
def Completed (len occ : Nat) (s t : State) : Prop := CompletedAt (s.me.pc + word len) occ s t

/-- In the acting context nothing changed but the PC and the marks of an issue. -/
def CtxKept (s t : State) : Prop :=
  t.me = { s.me with pc := t.me.pc, readyAt := t.me.readyAt, wait := t.me.wait }

/-- As `CtxKept`, and g registers may have changed. -/
def CtxKeptButG (s t : State) : Prop :=
  t.me = { s.me with g := t.me.g, pc := t.me.pc, readyAt := t.me.readyAt, wait := t.me.wait }

/-- g[d] holds `x` (g0 still reads zero) and every other g register is as it was. -/
def WritesG (d : Nat) (x : Word) (s t : State) : Prop :=
  t.me.rg d = (if d = 0 then 0 else x) ∧ ∀ r, r ≠ d → t.me.rg r = s.me.rg r

/-- The whole effect of a register instruction: the result, the PC, and the frame. -/
def RegisterResult (len occ d : Nat) (x : Word) (s t : State) : Prop :=
  WritesG d x s t ∧ Completed len occ s t ∧ CtxKeptButG s t ∧ OnlyThread s t

/-- The whole effect of an instruction that writes no register: the PC, and the frame. -/
def NoResult (pc : Word) (occ : Nat) (s t : State) : Prop :=
  CompletedAt pc occ s t ∧ CtxKept s t ∧ OnlyThread s t

end Sys2Proof.Machine
end

