-- ==== Sys2Proof/Certificates/Slice0/Obligations.lean ====
section
/-! DEFINITION. The statements: what the spec's rules say that instructions and device steps do, over every state. -/

open Sys2Proof Sys2Proof.Machine

namespace Sys2Proof.Claims

/-! ### Register instructions -/

/-- A sign-extended 16-bit immediate. -/
def imm16 (i : Nat) : Word := (BitVec.ofNat 16 i).signExtend 64

/-- The register-register instructions of R109 with a result from two operands, the third being the old g[d]: instruction,
occupancy, result. -/
def registerForms (d a b sh : Nat) (x y z : Word) : List (Instr × Nat × Word) := [
  (.add d a b, 4, BitVec.ofNat 64 (x.toNat + y.toNat)),
  (.sub d a b, 4, BitVec.ofInt 64 ((x.toNat : Int) - y.toNat)),
  (.and d a b, 4, x &&& y),
  (.or d a b, 4, x ||| y),
  (.xor d a b, 4, x ^^^ y),
  (.andn d a b, 4, x &&& ~~~y),
  (.sll d a b, 4, BitVec.ofNat 64 (x.toNat * 2 ^ (y.toNat % 64))),
  (.srl d a b, 4, BitVec.ofNat 64 (x.toNat / 2 ^ (y.toNat % 64))),
  (.sra d a b, 4, x.sshiftRight (y.toNat % 64)),
  (.rol d a b, 4, x.rotateLeft (y.toNat % 64)),
  (.min d a b, 4, if x.slt y then x else y),
  (.max d a b, 4, if x.slt y then y else x),
  (.minn d a b, 4, if x.ult y then x else y),
  (.maxn d a b, 4, if x.ult y then y else x),
  (.slt d a b, 4, if x.slt y then 1 else 0),
  (.sltn d a b, 4, if x.ult y then 1 else 0),
  (.sel d a b, 4, if z = 0 then y else x),
  (.addsh d a b sh, 4, BitVec.ofNat 64 (x.toNat + y.toNat * 2 ^ sh)),
  (.mul d a b, 8, BitVec.ofNat 64 (x.toNat * y.toNat)),
  (.mulh d a b, 8, (x.signExtend 128 * y.signExtend 128).extractLsb' 64 64),
  (.mulhn d a b, 8, (x.zeroExtend 128 * y.zeroExtend 128).extractLsb' 64 64),
  (.clz d a, 4, x.clz),
  (.ctz d a, 4, x.ctz),
  (.popc d a, 4, x.cpop),
  (.bswap d a, 4, x.extractLsb' 0 8 ++ x.extractLsb' 8 8 ++ x.extractLsb' 16 8 ++ x.extractLsb' 24 8 ++
    x.extractLsb' 32 8 ++ x.extractLsb' 40 8 ++ x.extractLsb' 48 8 ++ x.extractLsb' 56 8)]

/-- The immediate forms of R111 to R113: instruction and result, `x` being g[a] and `pc` the instruction's address. -/
def immediateForms (d a i j lo hi : Nat) (x pc : Word) : List (Instr × Word) := [
  (.slli d a lo hi, x <<< (lo + 32 * hi)),
  (.srli d a lo hi, x >>> (lo + 32 * hi)),
  (.srai d a lo hi, x.sshiftRight (lo + 32 * hi)),
  (.roli d a lo hi, x.rotateLeft (lo + 32 * hi)),
  (.addi d a i, x + imm16 i),
  (.andi d a i, x &&& BitVec.ofNat 64 i),
  (.ori d a i, x ||| BitVec.ofNat 64 i),
  (.xori d a i, x ^^^ BitVec.ofNat 64 i),
  (.slti d a i, if x.slt (imm16 i) then 1 else 0),
  (.lui d j, (BitVec.ofNat 21 j ++ 0#16).signExtend 64),
  (.addpc d j, pc + (BitVec.ofNat 21 j).signExtend 64 * 65536)]

/-- The 16-bit forms of R27 that write a register, with the result that R117 takes from the 32-bit form. -/
def shortForms (d r i sh : Nat) (x y : Word) : List (Instr × Word) := [
  (.cMv d r, y),
  (.cAdd d r, x + y),
  (.cSub d r, x - y),
  (.cAnd d r, x &&& y),
  (.cOr d r, x ||| y),
  (.cAddi d i, x + (BitVec.ofNat 5 i).signExtend 64),
  (.cLi d i, (BitVec.ofNat 5 i).signExtend 64),
  (.cSlli d sh, x <<< sh),
  (.cSrli d sh, x >>> sh),
  (.cSrai d sh, x.sshiftRight sh)]

/-- The divides of R110: instruction and result. -/
def divideForms (d a b : Nat) (x y : Word) : List (Instr × Word) := [
  (.div d a b, BitVec.ofInt 64 (x.toInt.tdiv y.toInt)),
  (.divn d a b, BitVec.ofNat 64 (x.toNat / y.toNat)),
  (.rem d a b, BitVec.ofInt 64 (x.toInt - y.toInt * x.toInt.tdiv y.toInt)),
  (.remn d a b, BitVec.ofNat 64 (x.toNat % y.toNat))]

/-- The branches of R26 with their conditions, a 13-bit offset. -/
def branchForms (a b off : Nat) (x y : Word) : List (Instr × Bool) := [
  (.beq a b off, x == y),
  (.bne a b off, x != y),
  (.blt a b off, x.slt y),
  (.bge a b off, y.sle x),
  (.bltn a b off, x.ult y),
  (.bgen a b off, y.ule x),
  (.bany a b off, x &&& y != 0),
  (.bnone a b off, x &&& y == 0)]

/-- The 16-bit branches, which compare with g0: a 5-bit offset. -/
def shortBranchForms (d off : Nat) (x : Word) : List (Instr × Bool) := [
  (.cBeqz d off, x == 0),
  (.cBnez d off, x != 0)]

/-- No field of the instruction names a bound channel (R35, R107). -/
def plainRegs (s : State) (fields : List Nat) : Prop := s.me.bound = false ∨ ∀ r ∈ fields, r ≠ 28 ∧ r ≠ 29

/-- A jump target that R114 and R22 accept: canonical and even. -/
def goodTarget (t : Word) : Prop := t.toNat < 2 ^ 57 ∧ t.toNat % 2 = 0

end Sys2Proof.Claims

open Sys2Proof.Claims

/-- R109: every register-register instruction but the divides writes its result to g[d] (g0 still reads zero), moves past its
word and changes nothing else. No field names a bound channel (`ChannelOperands` and `ChannelAccess` say what those forms do). -/
def Obligations.RegisterResults : Prop :=
  ∀ (s : State) (d a b sh : Nat), plainRegs s [d, a, b] →
    ∀ f ∈ registerForms d a b sh (s.me.rg a) (s.me.rg b) (s.me.rg d),
      ∃ t, exec f.1 s = .next t ∧ RegisterResult 4 f.2.1 d f.2.2 s t

/-- R111 to R113: the immediate forms, their whole effect. -/
def Obligations.ImmediateResults : Prop :=
  ∀ (s : State) (d a i j lo hi : Nat), plainRegs s [d, a] → i < 2 ^ 16 → lo < 32 → hi < 2 →
    ∀ f ∈ immediateForms d a i j lo hi (s.me.rg a) s.me.pc,
      ∃ t, exec f.1 s = .next t ∧ RegisterResult 4 4 d f.2 s t

/-- R117: a 16-bit form has the effect of its 32-bit form and moves past 2 bytes; C.NOP only moves. -/
def Obligations.ShortFormResults : Prop :=
  ∀ (s : State) (d r i sh : Nat), plainRegs s [d, r] →
    (∀ f ∈ shortForms d r i sh (s.me.rg d) (s.me.rg r),
      ∃ t, exec f.1 s = .next t ∧ RegisterResult 2 4 d f.2 s t) ∧
    ∃ t, exec .cNop s = .next t ∧ NoResult (s.me.pc + 2) 4 s t

/-- R110 and R104: a divide by a divisor other than zero, with the divide unit free, writes the quotient or remainder
(toward zero; the overflow wraps) and occupies the unit for 32 cycles; the frame is that of a register instruction but for the
divide unit. -/
def Sys2Proof.Claims.DivideResults : Prop :=
  ∀ (s : State) (d a b : Nat), plainRegs s [d, a, b] → s.me.rg b ≠ 0 → s.here.divFree ≤ s.now →
    ∀ f ∈ divideForms d a b (s.me.rg a) (s.me.rg b),
      ∃ t, exec f.1 s = .next t ∧ t.here.divFree = s.now + 32 ∧
        RegisterResult 4 36 d f.2 (s.setHere { s.here with divFree := s.now + 32 }) t

/-- R110: a zero divisor changes no register; at the end of the divide's occupancy the cause DIVIDE_BY_ZERO, with the dividend
as its value, is delivered with the PC still at the divide. -/
def Sys2Proof.Claims.DivideByZero : Prop :=
  ∀ (s : State) (d a b : Nat), plainRegs s [d, a, b] → s.me.rg b = 0 → s.here.divFree ≤ s.now →
    (∀ f ∈ divideForms d a b (s.me.rg a) (s.me.rg b), ∃ t, exec f.1 s = .next t ∧
      t.me = { s.me with status := .divWait, readyAt := s.now + 36 } ∧
      t.agenda = s.agenda ++ [⟨s.now + 36, .divideByZeroDelivery, [s.actor.core, s.actor.thread, (s.me.rg a).toNat]⟩]) ∧
    ∀ (k n x : Nat), s.args = [k, n, x] → ∀ c, s.ctx? ⟨k, n⟩ = some c → c.status = .divWait →
      exec .divideByZeroDelivery s = .next (takeCause ⟨k, n⟩ (causeCode .execute .divideByZero) (word x) c.pc
        (s.setCtx ⟨k, n⟩ { c with status := .running }))

/-- R110, R104: the divides, by a divisor other than zero and by zero. -/
def Obligations.Divides : Prop := Sys2Proof.Claims.DivideResults ∧ Sys2Proof.Claims.DivideByZero


/-- R26, R114: a branch goes to PC + 2 × offset where its condition holds, else past its word, if that address is canonical
and even; it changes nothing else. -/
def Sys2Proof.Claims.BranchResults : Prop :=
  ∀ (s : State) (a b off : Nat), plainRegs s [a, b] →
    (∀ f ∈ branchForms a b off (s.me.rg a) (s.me.rg b),
      let tgt := if f.2 then s.me.pc + 2 * (BitVec.ofNat 13 off).signExtend 64 else s.me.pc + 4
      goodTarget tgt → ∃ t, exec f.1 s = .next t ∧ NoResult tgt 4 s t) ∧
    ∀ f ∈ shortBranchForms a off (s.me.rg a),
      let tgt := if f.2 then s.me.pc + 2 * (BitVec.ofNat 5 off).signExtend 64 else s.me.pc + 2
      goodTarget tgt → ∃ t, exec f.1 s = .next t ∧ NoResult tgt 4 s t

/-- R114: J, JAL, JALR and C.JR go to their target, if it is canonical and even; JAL links to g1 and JALR to g[d] the address
after the word, written after the base is read; the link of C.JR is discarded. -/
def Sys2Proof.Claims.JumpResults : Prop :=
  ∀ (s : State) (d a off i : Nat), plainRegs s [d, a] →
    let near := s.me.pc + 2 * (BitVec.ofNat 26 off).signExtend 64
    let far := s.me.rg a + imm16 i
    let link := s.me.pc + 4
    (goodTarget near → ∃ t, exec (.j off) s = .next t ∧ NoResult near 4 s t) ∧
    (goodTarget near → ∃ t, exec (.jal off) s = .next t ∧
      WritesG 1 link s t ∧ CompletedAt near 4 s t ∧ CtxKeptButG s t ∧ OnlyThread s t) ∧
    (goodTarget far → ∃ t, exec (.jalr d a i) s = .next t ∧
      WritesG d link s t ∧ CompletedAt far 4 s t ∧ CtxKeptButG s t ∧ OnlyThread s t) ∧
    (goodTarget (s.me.rg a) → ∃ t, exec (.cJr a) s = .next t ∧ NoResult (s.me.rg a) 4 s t)

/-- R114, R22: a branch or jump whose target is not canonical raises ADDRESS_NONCANONICAL, else one whose target is odd raises
FETCH_MISALIGNED, both with the target as their value, and it links nothing. -/
def Sys2Proof.Claims.TargetTraps : Prop :=
  ∀ (s : State) (d a b off i : Nat), plainRegs s [d, a, b] →
    let traps (tgt : Word) (j : Instr) : Prop :=
      (2 ^ 57 ≤ tgt.toNat → exec j s = .next (trapE .addressNoncanonical tgt s)) ∧
      (tgt.toNat < 2 ^ 57 → tgt.toNat % 2 = 1 → exec j s = .next (trapE .fetchMisaligned tgt s))
    traps (s.me.pc + 2 * (BitVec.ofNat 26 off).signExtend 64) (.j off) ∧
    traps (s.me.pc + 2 * (BitVec.ofNat 26 off).signExtend 64) (.jal off) ∧
    traps (s.me.rg a + imm16 i) (.jalr d a i) ∧
    traps (s.me.rg a) (.cJr a) ∧
    (∀ f ∈ branchForms a b off (s.me.rg a) (s.me.rg b),
      traps (if f.2 then s.me.pc + 2 * (BitVec.ofNat 13 off).signExtend 64 else s.me.pc + 4) f.1) ∧
    ∀ f ∈ shortBranchForms a off (s.me.rg a),
      traps (if f.2 then s.me.pc + 2 * (BitVec.ofNat 5 off).signExtend 64 else s.me.pc + 2) f.1

/-- R26, R27, R114, R22: branches and jumps go to legal targets and trap on others. -/
def Obligations.ControlFlow : Prop := Sys2Proof.Claims.BranchResults ∧ Sys2Proof.Claims.JumpResults ∧ Sys2Proof.Claims.TargetTraps


/-- R37: EXTI writes one 16-bit slice of e[n] and EXTR all of it. -/
def Obligations.ExtensionRegisters : Prop :=
  ∀ (s : State) (n sl i a : Nat), plainRegs s [a] → sl < 4 → i < 2 ^ 16 →
    (∃ t, exec (.exti n sl i) s = .next t ∧ Completed 4 4 s t ∧ OnlyThread s t ∧
      t.me = { s.me with e := t.me.e, pc := t.me.pc, readyAt := t.me.readyAt, wait := t.me.wait } ∧
      (∀ r, r ≠ n → t.me.re r = s.me.re r) ∧
      ∀ k < 4, (t.me.re n).extractLsb' (16 * k) 16 =
        if k = sl then BitVec.ofNat 16 i else (s.me.re n).extractLsb' (16 * k) 16) ∧
    ∃ t, exec (.extr n a) s = .next t ∧ Completed 4 4 s t ∧ OnlyThread s t ∧
      t.me = { s.me with e := t.me.e, pc := t.me.pc, readyAt := t.me.readyAt, wait := t.me.wait } ∧
      t.me.re n = s.me.rg a ∧ ∀ r, r ≠ n → t.me.re r = s.me.re r

namespace Sys2Proof.Claims

/-- Every thread but one is as it was. -/
def OthersOf (k n : Nat) (s t : State) : Prop := ∀ a : Actor, a ≠ ⟨k, n⟩ → t.ctx? a = s.ctx? a

/-! ### Channel operands -/

/-- The values and the rest of the channel for two read fields, popped a before b where a field names g28. -/
def pairOf (a b : Nat) (rg : Nat → Word) : List Word → Option (Word × Word × List Word)
  | vs =>
    let popA := if a = 28 then vs.head?.map (·, vs.tail) else some (rg a, vs)
    match popA with
    | some (x, vs) =>
      let popB := if b = 28 then vs.head?.map (·, vs.tail) else some (rg b, vs)
      popB.map fun y => (x, y.1, y.2)
    | none => none

/-- The two-operand instructions of R109. -/
def twoOperandForms (d a b sh : Nat) (x y : Word) : List (Instr × Nat × Word) :=
  ((registerForms d a b sh x y 0).take 16) ++ ((registerForms d a b sh x y 0).drop 17).take 4

/-- No other thread of the core has been woken to test again before the acting thread (R190, R310). -/
def noneWoken (s : State) : Prop :=
  ∀ e ∈ s.here.threads, e.1 ≠ s.actor.thread → (e.2.wait.all fun w => !w.retest) = true

/-- The acting thread is resident and runs, waits for nothing, and its task, if it has one, is the oldest. -/
def acts (s : State) : Prop :=
  s.ctx? s.actor = some s.me ∧ s.me.status = .running ∧ s.me.wait = none ∧ s.isSpeculative s.me = false

/-! ### Local store -/

/-- A byte of the acting core's local store. -/
def lsByte (s : State) (x : Nat) : Byte := Map.get 0 s.here.ls x

/-- An access of `n` bytes at `x` that nothing stops: within the core's limit, aligned, not watched, clear of footprints in
flight and of words with errors. -/
def lsReady (s : State) (x n : Nat) : Prop :=
  x + n ≤ lsLimit s.actor.core ∧ x % n = 0 ∧ (∀ l r, watchHit s.here x n l r = false) ∧
    awaits s.here [run x n] [run x n] = false ∧ ∀ w, x / 4 ≤ w → w ≤ (x + n - 1) / 4 → w ∉ s.here.lsBad ∧ w ∉ s.here.lsSingle

/-- The `n` bytes at `x`, little-endian, extended to 64 bits by the top bit where `signed`. -/
def littleEndian (s : State) (x n : Nat) (signed : Bool) (v : Word) : Prop :=
  ∀ i < 64, v.getLsbD i =
    if i < 8 * n then (lsByte s (x + i / 8)).getLsbD (i % 8) else signed && (lsByte s (x + (n - 1))).getLsbD 7

/-- The bytes at `x` are the low `n` bytes of `v`, and every other byte of the local store is as it was. -/
def StoresBytes (x n : Nat) (v : Word) (s t : State) : Prop :=
  ∀ a, lsByte t a = if x ≤ a ∧ a < x + n then v.extractLsb' (8 * (a - x)) 8 else lsByte s a

/-- As `CoreIssued`, and the bytes of the local store may have changed. -/
def CoreStored (s t : State) : Prop :=
  t.here = { s.here with
    ls := t.here.ls, threads := t.here.threads, instret := t.here.instret, lastSlot := t.here.lastSlot,
    nextIssue := t.here.nextIssue }

/-- Outside the acting thread nothing changed but bytes of the core's local store. -/
def OnlyStore (s t : State) : Prop := OnlyCores s t ∧ OtherCores s.actor.core s t ∧ OtherThreads s t ∧ CoreStored s t

/-- The loads of R185 and R27: instruction, length, width in bytes, whether it sign-extends, address offset. -/
def loadForms (d a o : Nat) : List (Instr × Nat × Nat × Bool × Word) :=
  let off := (BitVec.ofNat 13 o).signExtend 64
  [(.ld d a 0 o, 4, 1, true, off), (.ld d a 1 o, 4, 2, true, off), (.ld d a 2 o, 4, 4, true, off),
   (.ld d a 3 o, 4, 8, false, off), (.ld d a 4 o, 4, 1, false, off), (.ld d a 5 o, 4, 2, false, off),
   (.ld d a 6 o, 4, 4, false, off), (.cLw d a, 2, 4, true, 0)]

/-- The stores of R185 and R27: instruction, length, width in bytes, address offset. -/
def storeForms (d a o : Nat) : List (Instr × Nat × Nat × Word) :=
  let off := (BitVec.ofNat 13 o).signExtend 64
  [(.st d a 0 o, 4, 1, off), (.st d a 1 o, 4, 2, off), (.st d a 2 o, 4, 4, off), (.st d a 3 o, 4, 8, off),
   (.cSw d a, 2, 4, 0)]

/-- The state code of a 32-bit word of the acting core's local store. -/
def wordCode (s : State) (w : Nat) : BitVec 2 := s.here.wordState w

/-- The words of an access of 4 or 8 bytes. -/
def inWords (x n w : Nat) : Prop := x / 4 ≤ w ∧ w < x / 4 + n / 4

/-- The word states of `n` bytes at `x` become `code`, and every other word's state is as it was. -/
def SetsStates (x n : Nat) (code : BitVec 2) (s t : State) : Prop :=
  ∀ w, (inWords x n w → wordCode t w = code) ∧ (¬ inWords x n w → wordCode t w = wordCode s w)

/-- Outside the acting thread nothing changed but the core's local store with its word states, and threads that were parked. -/
def OnlySync (s t : State) : Prop :=
  OnlyCores s t ∧ OtherCores s.actor.core s t ∧
    (∀ n c, n ≠ s.actor.thread → s.ctx? ⟨s.actor.core, n⟩ = some c → c.status ≠ .parked →
      t.ctx? ⟨s.actor.core, n⟩ = some c) ∧
    t.here = { s.here with
      ls := t.here.ls, lsState := t.here.lsState, lsHealed := t.here.lsHealed, threads := t.here.threads, instret := t.here.instret,
      lastSlot := t.here.lastSlot, nextIssue := t.here.nextIssue }

/-- The local atomics of R199 with their new value from the old and the operand, both of `n` bytes. -/
def atomicForms (d a b q n : Nat) (old x : Word) : List (Instr × Word) :=
  let lt := (old.truncate (8 * n)).slt (x.truncate (8 * n))
  let ltn := (old.truncate (8 * n)).ult (x.truncate (8 * n))
  [(.amoAdd d a b q, old + x), (.amoAnd d a b q, old &&& x), (.amoOr d a b q, old ||| x), (.amoXor d a b q, old ^^^ x),
   (.amoMin d a b q, if lt then old else x), (.amoMax d a b q, if lt then x else old),
   (.amoMinn d a b q, if ltn then old else x), (.amoMaxn d a b q, if ltn then x else old), (.amoSwap d a b q, x)]

/-! ### Vectors -/

/-- The elements of vd: `f j` where the predicate has the element's first bit, else as before; the other v registers are as
they were. -/
def WritesLanes (d w : Nat) (p : W32) (f : Nat → Nat) (s t : State) : Prop :=
  (∀ j < 32 / w, elemOf (t.me.rv d) w j = if p.getLsbD (j * w) then f j else elemOf (s.me.rv d) w j) ∧
    ∀ r, r ≠ d → t.me.rv r = s.me.rv r

/-- As `CtxKept`, and v registers may have changed. -/
def CtxKeptButV (s t : State) : Prop :=
  t.me = { s.me with v := t.me.v, pc := t.me.pc, readyAt := t.me.readyAt, wait := t.me.wait }

/-- As `CtxKeptButV`, and FPC may have changed. -/
def CtxKeptButVF (s t : State) : Prop :=
  t.me = { s.me with v := t.me.v, fpc := t.me.fpc, pc := t.me.pc, readyAt := t.me.readyAt, wait := t.me.wait }

/-- As `CtxKept`, and predicates and FPC may have changed. -/
def CtxKeptButPF (s t : State) : Prop :=
  t.me = { s.me with p := t.me.p, fpc := t.me.fpc, pc := t.me.pc, readyAt := t.me.readyAt, wait := t.me.wait }

/-- The integer lane instructions of R163 with their lane functions, for a type of `n` bits, signed or not. -/
def intForms (d a b t q n : Nat) (signed : Bool) : List (Instr × Nat × (Nat → Nat → Nat)) :=
  let lt (x y : Nat) : Bool :=
    if signed then (BitVec.ofNat n x).slt (BitVec.ofNat n y) else (BitVec.ofNat n x).ult (BitVec.ofNat n y)
  [(.vintVadd d a b t q, 4, fun x y => (x + y) % 2 ^ n),
   (.vintVsub d a b t q, 4, fun x y => (BitVec.ofNat n x - BitVec.ofNat n y).toNat),
   (.vintVmul d a b t q, 8, fun x y => x * y % 2 ^ n),
   (.vintVmin d a b t q, 4, fun x y => if lt x y then x else y),
   (.vintVmax d a b t q, 4, fun x y => if lt x y then y else x),
   (.vintVand d a b t q, 4, fun x y => x &&& y),
   (.vintVor d a b t q, 4, fun x y => x ||| y),
   (.vintVxor d a b t q, 4, fun x y => x ^^^ y),
   (.vintVshl d a b t q, 4, fun x y => (BitVec.ofNat n x <<< (y % n)).toNat),
   (.vintVshr d a b t q, 4, fun x y =>
      (if signed then (BitVec.ofNat n x).sshiftRight (y % n) else BitVec.ofNat n x >>> (y % n)).toNat)]

/-- VABS and VNEG of a signed type of `n` bits. -/
def intUnaryForms (d a t q n : Nat) : List (Instr × (Nat → Nat)) :=
  [(.vintVabs d a t q, fun x => if (BitVec.ofNat n x).msb then (-BitVec.ofNat n x).toNat else x),
   (.vintVneg d a t q, fun x => (-BitVec.ofNat n x).toNat)]

/-- The bits of a predicate written by a comparison (R167): each element's width of ones where it is active and holds. -/
def WritesPred (d w : Nat) (p : W32) (holds : Nat → Bool) (s t : State) : Prop :=
  (∀ i < 32, (t.me.rp d).getLsbD i = (p.getLsbD (i / w * w) && holds (i / w))) ∧ ∀ r, r ≠ d → t.me.rp r = s.me.rp r

/-- A comparison of integers by condition code (R167). -/
def intHolds (c : Nat) (x y : Int) : Bool :=
  if c = 0 then x == y else if c = 1 then x != y else if c = 2 then decide (x < y) else decide (x ≤ y)

/-- The floating lane instructions of R165 and R166: sources, and the result and exceptions of a lane from its operands'
codes, under a rounding mode. -/
def floatForms (d a b t q : Nat) : List (Instr × List Nat × (Rounding → List Nat → Nat × Nat)) :=
  let x (l : List Nat) : Machine.Num := decodeFloat t (l.getD 0 0)
  let y (l : List Nat) : Machine.Num := decodeFloat t (l.getD 1 0)
  let z (l : List Nat) : Machine.Num := decodeFloat t (l.getD 2 0)
  [(.vfltVadd d a b t q, [a, b], fun m l => roundNum t m (addNum m (x l) (y l))),
   (.vfltVsub d a b t q, [a, b], fun m l => roundNum t m (addNum m (x l) (negNum (y l)))),
   (.vfltVmul d a b t q, [a, b], fun m l => roundNum t m (mulNum (x l) (y l))),
   (.vfltVabs d a t q, [a], fun m l => roundNum t m (absNum (x l))),
   (.vfltVneg d a t q, [a], fun m l => roundNum t m (negNum (x l))),
   (.vfma d a b t q, [a, b, d], fun m l => roundNum t m (fmaNum m (x l) (y l) (z l))),
   (.vfnma d a b t q, [a, b, d], fun m l => roundNum t m (fmaNum m (negNum (x l)) (y l) (z l))),
   (.vfltVmin d a b t q, [a, b], fun _ l => pick t false false (l.getD 0 0) (l.getD 1 0)),
   (.vfltVmax d a b t q, [a, b], fun _ l => pick t true false (l.getD 0 0) (l.getD 1 0)),
   (.vminnum d a b t q, [a, b], fun _ l => pick t false true (l.getD 0 0) (l.getD 1 0)),
   (.vmaxnum d a b t q, [a, b], fun _ l => pick t true true (l.getD 0 0) (l.getD 1 0))]

/-- The special functions of R174 with the first and last type that each accepts. -/
def specialForms (d a t q : Nat) : List (Instr × Nat × Nat × (Machine.Num → Special)) :=
  [(.vrcp d a t q, 9, 10, vrcp), (.vrsqrt d a t q, 9, 10, vrsqrt), (.vsqrt d a t q, 8, 11, vsqrt),
   (.vexp2 d a t q, 9, 10, vexp2), (.vlog2 d a t q, 9, 10, vlog2), (.vsinpi d a t q, 9, 10, vsinpi),
   (.vcospi d a t q, 9, 10, vcospi)]

/-- No active lane has a subnormal operand, or FTZ reads them as zeros (R95, R96). -/
def noSubnormal (s : State) (t q : Nat) (srcs : List Nat) : Prop :=
  ftzOf s.me.fpc = true ∨ ∀ j < 32 / typeWidth t, (s.me.rp q).getLsbD (j * typeWidth t) = true →
    ∀ r ∈ srcs, isSubnormal t (elemOf (s.me.rv r) (typeWidth t) j) = false

/-- FPC gains in FLAGS every exception of the active lanes and keeps its other bits (R93). -/
def RaisesFlags (w : Nat) (p : W32) (n : Nat) (f : Nat → Nat) (s t : State) : Prop :=
  ∀ i < 32, t.me.fpc.getLsbD i = (s.me.fpc.getLsbD i ||
    (decide (16 ≤ i ∧ i < 21) && (List.range n).any fun j => p.getLsbD (j * w) && (f j).testBit (i - 16)))

/-- The one-operand instructions of R109, R111 and R112: instruction, occupancy and result. -/
def oneOperandForms (d a i lo hi : Nat) (x : Word) : List (Instr × Nat × Word) :=
  ((immediateForms d a i 0 lo hi x 0).take 9).map (fun f => (f.1, 4, f.2)) ++ (registerForms d a 0 0 x 0 0).drop 21

/-- The instruction takes its values from the channel, which keeps `rest`, and writes its result. Other threads' priorities may
follow a throttle that the pop ends; here none is set. -/
def Pops (f : Instr × Nat × Word) (d : Nat) (rest : List Word) (s : State) : Prop :=
  ∃ t, exec f.1 s = .next t ∧ WritesG d f.2.2 s t ∧ Completed 4 f.2.1 s t ∧ CtxKeptButG s t ∧
    (t.here.chan s.me.bindU).values = rest ∧ (∀ u, u ≠ s.me.bindU → t.here.chan u = s.here.chan u) ∧
    OtherCores s.actor.core s t ∧ OtherThreads s t ∧ t.here.ls = s.here.ls ∧ t.dram = s.dram ∧ t.hub = s.hub

/-- The instruction sends its result to the bound neighbour `n` and spends a credit. -/
def Pushes (f : Instr × Nat × Word) (n : Nat) (s : State) : Prop :=
  ∃ t, exec f.1 s = .next t ∧ Completed 4 f.2.1 s t ∧ CtxKept s t ∧
    (∃ id, t.net = s.net ++ [⟨id, .channel, s.actor.core, n, 0, .push (opposite s.me.bindV) f.2.2, s.me.eff⟩]) ∧
    t.here.creditsLeft s.me.bindV = s.here.creditsLeft s.me.bindV - 1 ∧
    OtherCores s.actor.core s t ∧ OtherThreads s t ∧ t.here.ls = s.here.ls ∧ t.dram = s.dram ∧ t.hub = s.hub

end Sys2Proof.Claims

/-- R107: while the channels are bound, each read field that names g28 pops one value, a before b, once all are present; then
the result is written. -/
def Obligations.ChannelOperands : Prop :=
  ∀ (s : State) (d a b i sh lo hi : Nat) (rest : List Word),
    acts s → noneWoken s → s.me.bindU < 4 → d ≠ 28 → d ≠ 29 → a ≠ 29 → b ≠ 29 → i < 2 ^ 16 → lo < 32 → hi < 2 →
    (s.here.chan s.me.bindU).reserved = none → (s.here.chan s.me.bindU).throttle = false →
    (∀ x y, pairOf a b s.me.rg (s.here.chan s.me.bindU).values = some (x, y, rest) →
      ∀ f ∈ twoOperandForms d a b sh x y, Pops f d rest s) ∧
    ∀ x, (s.here.chan s.me.bindU).values = x :: rest → ∀ f ∈ oneOperandForms d 28 i lo hi x, Pops f d rest s

/-- R107, R310: a d field of 29 pushes the result toward the bound direction and spends a credit; no register changes. -/
def Sys2Proof.Claims.ChannelResults : Prop :=
  ∀ (s : State) (a b i sh lo hi n : Nat),
    acts s → noneWoken s → s.me.bindV < 4 → a ≠ 28 → a ≠ 29 → b ≠ 28 → b ≠ 29 → i < 2 ^ 16 → lo < 32 → hi < 2 →
    neighbour s.actor.core s.me.bindV = some n → 1 ≤ s.here.creditsLeft s.me.bindV →
    (∀ f ∈ twoOperandForms 29 a b sh (s.me.rg a) (s.me.rg b), Pushes f n s) ∧
    ∀ f ∈ oneOperandForms 29 a i lo hi (s.me.rg a), Pushes f n s

/-- R107, R310: an instruction whose values are not all present parks with reason 4 and the channel's number, and pops
nothing. -/
def Sys2Proof.Claims.ChannelWaits : Prop :=
  ∀ (s : State) (d a b sh : Nat),
    acts s → s.me.bindU < 4 → d ≠ 28 → a ≠ 29 → b ≠ 29 → (d = 29 → s.me.bindV < 4) →
    (s.here.chan s.me.bindU).values.length < [a, b].count 28 →
    ∀ f ∈ twoOperandForms d a b sh 0 0,
      ∃ t, exec f.1 s = .next t ∧ t.me.status = .parked ∧ t.me.park = BitVec.ofNat 32 (4 + 256 * s.me.bindU) ∧
        t.me.pc = s.me.pc ∧ t.me.g = s.me.g ∧ t.here.chans = s.here.chans ∧ t.here.instret = s.here.instret

/-- R308 to R310: a field that names a bound channel pops or pushes, and waits where it cannot. -/
def Obligations.ChannelAccess : Prop := Sys2Proof.Claims.ChannelResults ∧ Sys2Proof.Claims.ChannelWaits


/-- R185, R27: a load reads its bytes little-endian at g[a] plus the offset, sign- or zero-extended as its width code says. -/
def Sys2Proof.Claims.LoadResults : Prop :=
  ∀ (s : State) (d a o : Nat), plainRegs s [d, a] →
    ∀ f ∈ loadForms d a o, let x := (s.me.rg a + f.2.2.2.2).toNat
      lsReady s x f.2.2.1 → ∃ t v, exec f.1 s = .next t ∧ littleEndian s x f.2.2.1 f.2.2.2.1 v ∧
        RegisterResult f.2.1 4 d v s t

/-- R185, R27: a store writes the low bytes of g[d] little-endian and nothing else; the words' states stay. -/
def Sys2Proof.Claims.StoreResults : Prop :=
  ∀ (s : State) (d a o : Nat), plainRegs s [d, a] →
    ∀ f ∈ storeForms d a o, let x := (s.me.rg a + f.2.2.2).toNat
      lsReady s x f.2.2.1 → ∃ t, exec f.1 s = .next t ∧ StoresBytes x f.2.2.1 (s.me.rg d) s t ∧
        Completed f.2.1 4 s t ∧ CtxKept s t ∧ OnlyStore s t

/-- R185, R27: loads and stores of the local store. -/
def Obligations.PlainAccesses : Prop := Sys2Proof.Claims.LoadResults ∧ Sys2Proof.Claims.StoreResults


/-- R179: an access past the core's limit raises LS_RANGE, else a misaligned one LS_MISALIGNED (AMO_MISALIGNED for an atomic),
with the address as the value. -/
def Obligations.AccessTraps : Prop :=
  ∀ (s : State) (d a b o q : Nat), plainRegs s [d, a, b] →
    let traps (x n : Nat) (r : Reason) (j : Instr) : Prop :=
      (lsLimit s.actor.core < x + n → exec j s = .next (trapA .lsRange (BitVec.ofNat 64 x) s)) ∧
      (x + n ≤ lsLimit s.actor.core → x % n ≠ 0 → exec j s = .next (trapA r (BitVec.ofNat 64 x) s))
    (∀ f ∈ loadForms d a o, traps (s.me.rg a + f.2.2.2.2).toNat f.2.2.1 .lsMisaligned f.1) ∧
    (∀ f ∈ storeForms d a o, traps (s.me.rg a + f.2.2.2).toNat f.2.2.1 .lsMisaligned f.1) ∧
    let x := (s.me.rg a).toNat
    let n := if q % 4 = 3 then 8 else 4
    (∀ f ∈ atomicForms d a b q n 0 0, traps x n .amoMisaligned f.1) ∧ traps x n .amoMisaligned (.cas d a b q) ∧
    (∀ j ∈ [Instr.ldfe d a q, .ldf d a q, .stfe d a q, .stf d a q], traps x n .lsMisaligned j) ∧
    ∀ j ∈ [Instr.feq d a, .feqTake d a], traps x 4 .lsMisaligned j

/-- R188, R189: LDFE and LDF read words that are full, LDFE leaving them empty and LDF full; FEQ reads a word's state code;
FEQ.TAKE reads 0 where no watch entry is kept. -/
def Sys2Proof.Claims.FullEmptyLoads : Prop :=
  ∀ (s : State) (d a q : Nat), acts s → plainRegs s [d, a] → noneWoken s →
    let x := (s.me.rg a).toNat
    let n := if q % 4 = 3 then 8 else 4
    (lsReady s x n → (∀ w, inWords x n w → wordCode s w = 1) →
      (∃ t v, exec (.ldfe d a q) s = .next t ∧ littleEndian s x n true v ∧ WritesG d v s t ∧ Completed 4 4 s t ∧
        CtxKeptButG s t ∧ SetsStates x n 0 s t ∧ t.here.ls = s.here.ls ∧ OnlySync s t) ∧
      ∃ t v, exec (.ldf d a q) s = .next t ∧ littleEndian s x n true v ∧ WritesG d v s t ∧ Completed 4 4 s t ∧
        CtxKeptButG s t ∧ SetsStates x n 1 s t ∧ t.here.ls = s.here.ls ∧ OnlySync s t) ∧
    (lsReady s x 4 → ∃ t, exec (.feq d a) s = .next t ∧
      RegisterResult 4 4 d (BitVec.ofNat 64 (wordCode s (x / 4)).toNat) s t) ∧
    (lsReady s x 4 → s.here.watch = [] → ∃ t, exec (.feqTake d a) s = .next t ∧ RegisterResult 4 4 d 0 s t)

/-- R188, R189: STFE stores into words that are empty, STF whatever their state; both leave them full. FESET sets the state and
leaves the value. Here no word is empty-watched (`WatchedWords` says what happens then). -/
def Sys2Proof.Claims.FullEmptyStores : Prop :=
  ∀ (s : State) (d a q : Nat), acts s → plainRegs s [d, a] → noneWoken s →
    let x := (s.me.rg a).toNat
    let n := if q % 4 = 3 then 8 else 4
    lsReady s x n → (∀ w, inWords x n w → wordCode s w ≠ 2) →
    ((∀ w, inWords x n w → wordCode s w = 0) → ∃ t, exec (.stfe d a q) s = .next t ∧
      StoresBytes x n (s.me.rg d) s t ∧ SetsStates x n 1 s t ∧ Completed 4 4 s t ∧ CtxKept s t ∧ OnlySync s t) ∧
    (∃ t, exec (.stf d a q) s = .next t ∧
      StoresBytes x n (s.me.rg d) s t ∧ SetsStates x n 1 s t ∧ Completed 4 4 s t ∧ CtxKept s t ∧ OnlySync s t) ∧
    ∀ st < 2, ∃ t, exec (.feset a st q) s = .next t ∧ t.here.ls = s.here.ls ∧
      SetsStates x n (BitVec.ofNat 2 st) s t ∧ Completed 4 4 s t ∧ CtxKept s t ∧ OnlySync s t

/-- R189, R128: LDFE and LDF of a word that is not full, and STFE of one that is, park with reason 1 and the address, until the
wait limit; the words and their states stay. -/
def Sys2Proof.Claims.FullEmptyWaits : Prop :=
  ∀ (s : State) (d a q w : Nat), acts s → plainRegs s [d, a] → noneWoken s →
    let x := (s.me.rg a).toNat
    let n := if q % 4 = 3 then 8 else 4
    lsReady s x n → inWords x n w → s.me.felim.toNat % 2 ^ 16 ≠ 0 →
    ∀ j, (wordCode s w ≠ 1 ∧ (j = .ldfe d a q ∨ j = .ldf d a q)) ∨ (wordCode s w % 2 = 1 ∧ j = .stfe d a q) →
      ∃ t, exec j s = .next t ∧ t.me.status = .parked ∧ t.me.park = BitVec.ofNat 32 (1 + 256 * (x % 2 ^ 24)) ∧
        t.me.pc = s.me.pc ∧ t.me.g = s.me.g ∧ t.here.ls = s.here.ls ∧ t.here.lsState = s.here.lsState

/-- R199: a local atomic writes the new value to the bank and the old one, sign-extended, to g[d], as one operation; CAS writes
only where the old value is the expected one in g[d]. -/
def Obligations.AtomicResults : Prop :=
  ∀ (s : State) (d a b q : Nat), plainRegs s [d, a, b] →
    let x := (s.me.rg a).toNat
    let n := if q % 4 = 3 then 8 else 4
    lsReady s x n → ∀ old, littleEndian s x n true old →
    (∀ f ∈ atomicForms d a b q n old (s.me.rg b), ∃ t, exec f.1 s = .next t ∧ StoresBytes x n f.2 s t ∧
      WritesG d old s t ∧ Completed 4 8 s t ∧ CtxKeptButG s t ∧ OnlyStore s t) ∧
    ∃ t, exec (.cas d a b q) s = .next t ∧
      StoresBytes x n (if old.truncate (8 * n) = (s.me.rg d).truncate (8 * n) then s.me.rg b else old) s t ∧
      WritesG d old s t ∧ Completed 4 8 s t ∧ CtxKeptButG s t ∧ OnlyStore s t

/-- R186, R187: the vector loads and stores move each active element, little-endian, to or from its own address: base + offset
+ j × width, base + j × signed stride, or base + width × index. -/
def Obligations.VectorMemory : Prop :=
  ∀ (s : State) (d a b t q : Nat), plainRegs s [a, b] → d < 16 → t < 15 →
    let w := typeWidth t
    let unit (j : Nat) : Nat := ((s.me.rg a).toNat + (s.me.rg b).toNat + j * w) % 2 ^ 64
    let stride (j : Nat) : Nat := (s.me.rg a + BitVec.ofNat 64 j * s.me.rg b).toNat
    let index (j : Nat) : Nat := ((s.me.rg a).toNat + w * elemOf (s.me.rv b) w j) % 2 ^ 64
    let active (j : Nat) : Prop := j < 32 / w ∧ (s.me.rp q).getLsbD (j * w) = true
    let loads (i : Instr) (x : Nat → Nat) : Prop := (∀ j, active j → lsReady s (x j) w) →
      ∃ u, exec i s = .next u ∧ u.me.pc = s.me.pc + 4 ∧ CtxKeptButV s u ∧ OnlyThread s u ∧
        (∀ j < 32 / w, ∀ k < w, (u.me.rv d).extractLsb' (8 * (w * j + k)) 8 =
          if (s.me.rp q).getLsbD (j * w) then lsByte s (x j + k) else (s.me.rv d).extractLsb' (8 * (w * j + k)) 8) ∧
        ∀ r, r ≠ d → u.me.rv r = s.me.rv r
    let stores (i : Instr) (x : Nat → Nat) : Prop := (∀ j, active j → lsReady s (x j) w) →
      ∃ u, exec i s = .next u ∧ u.me.pc = s.me.pc + 4 ∧ CtxKept s u ∧ OnlyStore s u ∧
        (∀ m, (∀ j, active j → ¬ (x j ≤ m ∧ m < x j + w)) → lsByte u m = lsByte s m) ∧
        ∀ j, active j → (∀ k, active k → j < k → x k ≠ x j) → ∀ k < w,
          lsByte u (x j + k) = (s.me.rv d).extractLsb' (8 * (w * j + k)) 8
    loads (.vld d a b t q) unit ∧ stores (.vst d a b t q) unit ∧ loads (.vlds d a b t q) stride ∧
      (b < 16 → loads (.vldx d a b t q) index ∧ stores (.vstx d a b t q) index)

/-- R163, R164: the integer lane instructions, element by element: inactive elements, other registers and FPC are unchanged. -/
def Obligations.IntegerLanes : Prop :=
  ∀ (s : State) (d a b t q : Nat), d < 16 → a < 16 → b < 16 →
    let w := typeWidth t
    (t < 8 → ∀ f ∈ intForms d a b t q (8 * w) (decide (t < 4)), ∃ u, exec f.1 s = .next u ∧
      WritesLanes d w (s.me.rp q) (fun j => f.2.2 (elemOf (s.me.rv a) w j) (elemOf (s.me.rv b) w j)) s u ∧
      Completed 4 f.2.1 s u ∧ CtxKeptButV s u ∧ OnlyThread s u) ∧
    (t < 4 → ∀ f ∈ intUnaryForms d a t q (8 * w), ∃ u, exec f.1 s = .next u ∧
      WritesLanes d w (s.me.rp q) (fun j => f.2 (elemOf (s.me.rv a) w j)) s u ∧
      Completed 4 4 s u ∧ CtxKeptButV s u ∧ OnlyThread s u) ∧
    (t ∈ [0, 1, 4, 5] → ∃ u, exec (.vdot4 d a b t q) s = .next u ∧
      WritesLanes d (4 * w) (s.me.rp q) (fun j =>
        (((elemOf (s.me.rv d) (4 * w) j : Int) + ((List.range 4).map fun m =>
          intValue t (elemOf (s.me.rv a) w (4 * j + m)) * intValue t (elemOf (s.me.rv b) w (4 * j + m))).sum)
            % 2 ^ (32 * w)).toNat) s u ∧
      Completed 4 8 s u ∧ CtxKeptButV s u ∧ OnlyThread s u)

/-- R167: a comparison sets every bit of an active element that holds and clears every other bit of the predicate; the
floating forms raise NV as R167 says and no other exception. p0 as the destination is REGISTER_INVALID. -/
def Obligations.Comparisons : Prop :=
  ∀ (s : State) (c p a b t q : Nat), a < 16 → b < 16 → c < 4 →
    let w := typeWidth t
    (p ≠ 0 → t < 8 → ∃ u, exec (.vintVcmp c p a b t q) s = .next u ∧
      WritesPred p w (s.me.rp q) (fun j => intHolds c (intValue t (elemOf (s.me.rv a) w j))
        (intValue t (elemOf (s.me.rv b) w j))) s u ∧
      Completed 4 4 s u ∧ CtxKeptButPF s u ∧ u.me.fpc = s.me.fpc ∧ OnlyThread s u) ∧
    (p ≠ 0 → 8 ≤ t → t < 12 → noSubnormal s t q [a, b] → enablesOf s.me.fpc = 0 →
      let code (r j : Nat) := decodeFloat t (readFtz (ftzOf s.me.fpc) t (elemOf (s.me.rv r) w j))
      ∃ u, exec (.vfltVcmp c p a b t q) s = .next u ∧
        WritesPred p w (s.me.rp q) (fun j => (floatCompare c (code a j) (code b j)).1) s u ∧
        RaisesFlags w (s.me.rp q) (32 / w) (fun j => (floatCompare c (code a j) (code b j)).2) s u ∧
        Completed 4 4 s u ∧ CtxKeptButPF s u ∧ OnlyThread s u) ∧
    ∀ j, j = .vintVcmp c 0 a b t q ∨ j = .vfltVcmp c 0 a b t q → ∃ u, exec j s = .next u ∧
      u = trapOpen .registerInvalid s

/-- R165, R166, R93, R96: a floating lane instruction writes each active element the rounded result of its operands, read and
flushed under FTZ, and FLAGS gain every exception, where no exception is enabled. -/
def Sys2Proof.Claims.FloatLanes : Prop :=
  ∀ (s : State) (d a b t q : Nat), d < 16 → a < 16 → b < 16 → 8 ≤ t → t < 12 → enablesOf s.me.fpc = 0 →
    let w := typeWidth t
    let ftz := ftzOf s.me.fpc
    ∀ f ∈ floatForms d a b t q, noSubnormal s t q f.2.1 →
      let lane (j : Nat) : Nat × Nat := flushOut ftz t (f.2.2 (roundingOf s.me.fpc)
        (f.2.1.map fun r => readFtz ftz t (elemOf (s.me.rv r) w j)))
      ∃ u, exec f.1 s = .next u ∧ WritesLanes d w (s.me.rp q) (fun j => (lane j).1 % 2 ^ (8 * w)) s u ∧
        RaisesFlags w (s.me.rp q) (32 / w) (fun j => (lane j).2) s u ∧
        Completed 4 4 s u ∧ CtxKeptButVF s u ∧ OnlyThread s u

/-- R95: while FTZ is 0 a subnormal operand of an active lane makes a context of S mode, or of U mode without delegation, wait for
the monitor; the monitor completes the instruction with the exact values, and the context goes on past it with its trap
registers as they were. -/
def Sys2Proof.Claims.MonitorCompletes : Prop :=
  (∀ (s : State) (d a b t q : Nat), d < 16 → a < 16 → b < 16 → 8 ≤ t → t < 12 → ftzOf s.me.fpc = false →
    s.me.monitored = false → s.me.mode = 1 ∨ (s.me.mode = 0 ∧ delegated s.here.xdeleg 17 = false) →
    ∀ f ∈ floatForms d a b t q, ¬ noSubnormal s t q f.2.1 → ∃ u, exec f.1 s = .next u ∧
      u.me = { s.me with status := .waiting, monitored := true, readyAt := max s.me.readyAt (s.now + 4) } ∧
      u.agenda = s.agenda ++ [⟨s.now, .monitorCompletion, [s.actor.core, s.actor.thread]⟩] ∧ u.dram = s.dram ∧
      OtherThreads s u ∧ OtherCores s.actor.core s u) ∧
  ∀ (s : State) (k n d a b t q : Nat) (c : Ctx), s.args = [k, n] → s.ctx? ⟨k, n⟩ = some c → c.status = .waiting →
    c.monitored = true → c.reduction = none → c.gang = none → d < 16 → a < 16 → b < 16 → 8 ≤ t → t < 12 → enablesOf c.fpc = 0 →
    ftzOf c.fpc = false → c.xstat.getLsbD 11 = false →
    ∀ f ∈ floatForms d a b t q, c.current = some f.1 →
      let w := typeWidth t
      let lane (j : Nat) : Nat := (flushOut false t (f.2.2 (roundingOf c.fpc) (f.2.1.map fun r => elemOf (c.rv r) w j))).1
      ∃ u c', exec .monitorCompletion s = .next u ∧ u.actor = s.actor ∧ u.ctx? ⟨k, n⟩ = some c' ∧ c'.status = .running ∧
        (∀ j < 32 / w, elemOf (c'.rv d) w j =
          if (c.rp q).getLsbD (j * w) then lane j % 2 ^ (8 * w) else elemOf (c.rv d) w j) ∧
        (∀ r, r ≠ d → c'.rv r = c.rv r) ∧ c'.pc = c.pc + 4 ∧ c'.g = c.g ∧ c'.xpc = c.xpc ∧ c'.xcause = c.xcause ∧
        c'.xval = c.xval ∧ c'.xstat = c.xstat ∧ OthersOf k n s u

/-- R90 to R96, R164: float lanes, and the completion of subnormal operands by the monitor. -/
def Obligations.FloatArithmetic : Prop := Sys2Proof.Claims.FloatLanes ∧ Sys2Proof.Claims.MonitorCompletes


/-- R174, R175: a special function writes each active element its rounded value and FLAGS gain its exceptions; a type that it
does not take is FORMAT_UNSUPPORTED. -/
def Obligations.SpecialFunctions : Prop :=
  ∀ (s : State) (d a t q : Nat), d < 16 → a < 16 →
    let w := typeWidth t
    let ftz := ftzOf s.me.fpc
    ∀ f ∈ specialForms d a t q,
      (f.2.1 ≤ t → t ≤ f.2.2.1 → enablesOf s.me.fpc = 0 → noSubnormal s t q [a] →
        let value (j : Nat) : Special := f.2.2.2 (decodeFloat t (readFtz ftz t (elemOf (s.me.rv a) w j)))
        let lane (j : Nat) : Nat × Nat := flushOut ftz t (roundNum t (roundingOf s.me.fpc) (value j).value)
        ∃ u, exec f.1 s = .next u ∧ WritesLanes d w (s.me.rp q) (fun j => (lane j).1 % 2 ^ (8 * w)) s u ∧
          RaisesFlags w (s.me.rp q) (32 / w) (fun j => (lane j).2 ||| (value j).flags) s u ∧
          u.me.pc = s.me.pc + 4 ∧ CtxKeptButVF s u ∧ OnlyThread s u) ∧
      (t < f.2.1 ∨ f.2.2.1 < t → exec f.1 s = .next (trapOpen .formatUnsupported s))

/-- R170: VSEL writes every element from va or vb, VSPLAT the low bits of g[a] and VPERM the element of va that vb's element
names, 0 past the last; the latter two in active elements only. -/
def Obligations.VectorMoves : Prop :=
  ∀ (s : State) (d a b t q : Nat), plainRegs s [a] → d < 16 → t < 12 →
    let w := typeWidth t
    let p := s.me.rp q
    (a < 16 → b < 16 → ∃ u, exec (.vsel d a b t q) s = .next u ∧
      WritesLanes d w (BitVec.allOnes 32) (fun j => if p.getLsbD (j * w) then elemOf (s.me.rv a) w j else elemOf (s.me.rv b) w j) s u ∧
      Completed 4 4 s u ∧ CtxKeptButV s u ∧ OnlyThread s u) ∧
    (∃ u, exec (.vsplat d a t q) s = .next u ∧
      WritesLanes d w p (fun _ => (s.me.rg a).toNat % 2 ^ (8 * w)) s u ∧ Completed 4 4 s u ∧ CtxKeptButV s u ∧ OnlyThread s u) ∧
    (a < 16 → b < 16 → ∃ u, exec (.vperm d a b t q) s = .next u ∧
      WritesLanes d w p (fun j =>
        if elemOf (s.me.rv b) w j < 32 / w then elemOf (s.me.rv a) w (elemOf (s.me.rv b) w j) else 0) s u ∧
      Completed 4 4 s u ∧ CtxKeptButV s u ∧ OnlyThread s u)

/-- R171 to R173: VPACK converts the elements of va and vb into half the width, VUNPACK widens half of va, and VCVT converts
the active elements and clears what lies past them; FLAGS gain every exception. No exception is enabled and CVTTRAP is 0. -/
def Obligations.Conversions : Prop :=
  ∀ (s : State) (d a b h t u q : Nat), d < 16 → a < 16 → b < 16 → enablesOf s.me.fpc = 0 → cvtTrapOf s.me.fpc = false →
    let fpc := s.me.fpc
    let done (v : State) : Prop :=
      Completed 4 4 s v ∧ CtxKeptButVF s v ∧ OnlyThread s v ∧ ∀ r, r ≠ d → v.me.rv r = s.me.rv r
    (∀ src, packSource t = some src →
      let w := typeWidth src
      let n := 32 / w
      let lane (j : Nat) : Converted :=
        convert src t fpc false (if j < n then elemOf (s.me.rv a) w j else elemOf (s.me.rv b) w (j - n))
      ∃ v, exec (.vpack d a b t) s = .next v ∧ done v ∧ RaisesFlags 0 (BitVec.allOnes 32) (2 * n) (fun j => (lane j).flags) s v ∧
        (t ≠ 15 → ∀ j < 2 * n, elemOf (v.me.rv d) (typeWidth t) j = (lane j).code % 2 ^ (8 * typeWidth t))) ∧
    (∀ dst, packSource t = some dst → t ≠ 15 →
      let w := typeWidth dst
      let n := 32 / w
      let code (j : Nat) : Nat := elemOf (s.me.rv a) (typeWidth t) (n * h + j)
      let lane (j : Nat) : Nat × Nat :=
        if t < 8 then (intCode dst (intValue t (code j)), 0) else roundNum dst .rne (decodeFloat t (code j))
      ∃ v, exec (.vunpack d a h t) s = .next v ∧ done v ∧ RaisesFlags 0 (BitVec.allOnes 32) n (fun j => (lane j).2) s v ∧
        ∀ j < n, elemOf (v.me.rv d) w j = (lane j).1 % 2 ^ (8 * w)) ∧
    (t < 15 → u < 15 →
      let ws := typeWidth t
      let wu := typeWidth u
      let n := 32 / max ws wu
      (ftzOf fpc = true ∨ ∀ j < n, (s.me.rp q).getLsbD (j * wu) = true → isSubnormal t (elemOf (s.me.rv a) ws j) = false) →
      let lane (j : Nat) : Converted := convert t u fpc true (elemOf (s.me.rv a) ws j)
      ∃ v, exec (.vcvt d a u t q) s = .next v ∧ done v ∧ RaisesFlags wu (s.me.rp q) n (fun j => (lane j).flags) s v ∧
        ∀ j < 32 / wu, elemOf (v.me.rv d) wu j =
          if n ≤ j then 0
          else if (s.me.rp q).getLsbD (j * wu) then (lane j).code % 2 ^ (8 * wu) else elemOf (s.me.rv d) wu j)

/-- R168, R169: outside a gang an integer reduction writes element 0 of vd the fold of the active elements, in any order, and 0
elsewhere; a floating one the value of the tree, with its exceptions. In a gang an integer reduction waits until every member
has had its part for 12 cycles; then the gang's result is formed, and each member writes it in its own turn. -/
def Obligations.Reductions : Prop :=
  (∀ (s : State) (d a k t q : Nat), d < 16 → a < 16 → s.me.gang = none →
    let w := typeWidth t
    let alone (x : Nat) (v : State) : Prop :=
      elemOf (v.me.rv d) w 0 = x % 2 ^ (8 * w) ∧ (∀ j < 32 / w, j ≠ 0 → elemOf (v.me.rv d) w j = 0) ∧
        (∀ r, r ≠ d → v.me.rv r = s.me.rv r) ∧ Completed 4 12 s v ∧ CtxKeptButVF s v ∧ OnlyThread s v
    (t < 8 → k < 6 → ∃ v, exec (.vintVred d a k t q) s = .next v ∧ v.me.fpc = s.me.fpc ∧
      alone (((List.range (32 / w)).filter fun j => (s.me.rp q).getLsbD (j * w)).foldl
        (fun x j => intReduce t k x (elemOf (s.me.rv a) w j)) (intIdentity t k)) v) ∧
    (8 ≤ t → t < 12 → k < 5 → enablesOf s.me.fpc = 0 → noSubnormal s t q [a] →
      let part := floatPart s.me a k t q
      ∃ v, exec (.vfltVred d a k t q) s = .next v ∧
        alone (canonCode t ((part.map (·.code)).getD (floatIdentity t k))) v ∧
        RaisesFlags 0 (BitVec.allOnes 32) 1 (fun _ => (part.map (·.flags)).getD 0) s v)) ∧
  (∀ (s : State) (d a k t q : Nat), d < 16 → a < 16 → s.me.gang.isSome = true →
    ∃ v, exec (.vintVred d a k t q) s = .next v ∧ v.me.status = .waiting ∧ s.now + 4 ≤ v.me.readyAt ∧
      v.me.reduction = some ⟨s.now, intPart s.me a k t q, 0, 0, d, k, t, none⟩ ∧ v.me.pc = s.me.pc ∧ v.me.v = s.me.v) ∧
  (∀ (s : State) (g : Gang) (k n : Nat), s.args = [k, n] → (s.ctx ⟨k, n⟩).gang = some g → g.members.Nodup →
    (∀ m ∈ g.members, (s.ctx? m).isSome = true ∧ ∃ p, (s.ctx m).reduction = some p ∧ p.type < 8 ∧ p.joinedAt + 12 ≤ s.now) →
    ∃ t, exec .gangVredCombine s = .next t ∧ t.actor = s.actor ∧
      ∀ m ∈ g.members, ∀ p, (s.ctx m).reduction = some p →
        let x := (tree (intReduce p.type p.kind) 3 ((g.members.filterMap fun m => (s.ctx m).reduction).map (·.value))).getD
          (intIdentity p.type p.kind)
        t.ctx m = { s.ctx m with reduction := some { p with result := some (x, 0) } }) ∧
  ∀ (s : State) (a : Actor) (p : Partial) (x : Nat), (s.ctx a).isCombined = true → (s.ctx a).reduction = some p →
    p.result = some (x, 0) → p.type < 8 → (s.ctx a).xstat.getLsbD 11 = false →
    ∃ t, turnOf a s = .quiet t ∧ t.actor = a ∧ t.me.status = .running ∧ t.me.reduction = none ∧
      t.me.pc = (s.ctx a).pc + 4 ∧ (∀ r, r ≠ p.d → t.me.rv r = (s.ctx a).rv r) ∧
      elemOf (t.me.rv p.d) (typeWidth p.type) 0 = x % 2 ^ (8 * typeWidth p.type) ∧
      ∀ j < 32 / typeWidth p.type, j ≠ 0 → elemOf (t.me.rv p.d) (typeWidth p.type) j = 0

namespace Sys2Proof.Claims

/-! ### Threads -/

/-- Outside the acting thread's context nothing changed but the operations sent and the steps made due. -/
def OnlySends (s t : State) : Prop :=
  t = { s with cores := t.cores, net := t.net, ids := t.ids, agenda := t.agenda } ∧ OtherCores s.actor.core s t ∧
    OtherThreads s t ∧
    t.here = { s.here with
      threads := t.here.threads, instret := t.here.instret, lastSlot := t.here.lastSlot, nextIssue := t.here.nextIssue,
      forwards := t.here.forwards }

/-- An operation is sent: it is in flight, and the step that receives it is due. -/
def Sends (cls : NetClass) (src dst handle : Nat) (p : Payload) (step : Instr) (s t : State) : Prop :=
  t.net = s.net ++ [⟨s.ids, cls, src, dst, handle, p, s.me.eff⟩] ∧ t.agenda = s.agenda ++ [⟨s.now, step, [s.ids]⟩] ∧
    t.ids = s.ids + 1

/-- A received operation is answered: it is no longer in flight, and the answer is. (The EFF of an answer is the model's reading,
log entry 52.) -/
def Answers (id : Nat) (cls : NetClass) (src dst handle : Nat) (p : Payload) (s t : State) : Prop :=
  ∃ eff, t.net = (s.net.filter fun f => f.id != id) ++ [⟨s.ids, cls, src, dst, handle, p, eff⟩] ∧
    ∀ a c, p.answersTo = some a → s.ctx? a = some c → eff = c.eff

/-- The thread has issued its instruction, the PC is past it, and it is parked for a reply. -/
def ParksForReply (s t : State) : Prop :=
  t.me = { s.me with
    status := .parked, park := 9, pc := s.me.pc + 4, readyAt := t.me.readyAt, wait := none }

/-- The predicate that reports success. -/
def okMask (ok : Bool) : W32 := if ok then BitVec.allOnes 32 else 0

/-- A parked thread goes on: predicate `q` reports `ok`, the park word is 0, the PC stays. -/
def ResumesWith (q : Nat) (ok : Bool) (c c' : Ctx) : Prop :=
  c'.status = .running ∧ c'.park = 0 ∧ c'.pc = c.pc ∧ c'.rp q = okMask ok ∧ (∀ r, r ≠ q → c'.rp r = c.rp r) ∧
    c'.v = c.v ∧ c'.e = c.e ∧ c'.xstat = c.xstat ∧ c'.ctxid = c.ctxid

/-- The thread can issue an instruction of the thread class that a gang, a task or a role might restrict: it is in none of
them. -/
def isPlainThread (s : State) (fields : List Nat) : Prop :=
  acts s ∧ plainRegs s fields ∧ s.me.gang = none ∧ s.me.ticket = none ∧ s.me.role = none

end Sys2Proof.Claims

/-- R137: SPAWN sends its request and parks for the reply; the target builds the thread under its lowest free number, with the
entry, the arguments and the stack of the launch, and answers with its handle, once a launch that has reserved its core has loaded it
(R81; that the request waits until then is the model's reading, log entry 20); the reply writes the handle and success. -/
def Obligations.Spawning : Prop :=
  (∀ (s : State) (d a b q k : Nat), isPlainThread s [d, a, b] → s.actor.thread = 0 → q ≠ 0 →
    handleTarget s (s.me.rg a).toNat = some k → runsOther s k = false → goodTarget (s.me.rg b) → s.here.children ≠ 64 →
    ∃ t, exec (.spawn d a b q) s = .next t ∧ ParksForReply s t ∧ OnlySends s t ∧
      Sends .control s.actor.core k s.me.handle (.spawn s.actor d q (s.me.rg b)
        [s.me.rg 4, s.me.rg 5, s.me.rg 6, s.me.rg 7] s.me.codeId.toNat s.me.priority) .spawnRequest s t) ∧
  (∀ (s : State) (f : Flight) (a : Actor) (d q n code prio : Nat) (entry : Word) (args : List Word),
    s.arriving (s.arg 0) = some f → f.payload = .spawn a d q entry args code prio →
    (isUnloaded s f.dst = true → exec .spawnRequest s = .next (s.post 1 .spawnRequest s.args)) ∧
    (isUnloaded s f.dst = false → (s.core f.dst).freeThread = some n →
    ((s.core f.dst).launch.all fun m => m.id == (s.core a.core).launchOf.id) = true →
    let h := mkHandle f.dst n (Map.get 0 (s.core f.dst).gens n % 256)
    ∃ t c, exec .spawnRequest s = .next t ∧ t.ctx? ⟨f.dst, n⟩ = some c ∧ OthersOf f.dst n s t ∧
      Answers (s.arg 0) .control f.dst a.core 0 (.spawnReply a d q (some h)) s t ∧
      c.pc = entry ∧ (∀ i < 4, c.rg (4 + i) = args.getD i 0) ∧ c.ctxid = BitVec.ofNat 32 h ∧
      c.codeId = BitVec.ofNat 16 code ∧ c.rg 2 = stackTop f.dst n (s.core a.core).launchOf ∧ c.status = .running ∧
      c.spawner = some a.core ∧ c.felim = 16 ∧ c.fpc = 0 ∧ (isHub f.dst = false → c.mode = 0))) ∧
  (∀ (s : State) (f : Flight) (a : Actor) (d q : Nat) (r : Option Nat) (c : Ctx),
    s.arriving (s.arg 0) = some f → f.payload = .spawnReply a d q r → s.ctx? a = some c → c.status = .parked →
    c.bound = false ∨ d ≠ 29 → q ≠ 0 →
    ∃ t c', exec .spawnReply s = .next t ∧ t.ctx? a = some c' ∧ OthersOf a.core a.thread s t ∧
      ResumesWith q r.isSome c c' ∧ c'.rg d = (if d = 0 then 0 else BitVec.ofNat 64 (r.getD 1)) ∧
      (∀ i, i ≠ d → c'.rg i = c.rg i) ∧
      (t.core a.core).children = (s.core a.core).children + (if r.isSome then 1 else 0))

/-- R138, R139: QUIT begins the thread's drain with its exit value; at the drain's end the thread is gone; its record enters
the reap queue, and REAP takes the oldest record, reports that no child is left, or parks. -/
def Sys2Proof.Claims.EndingThreads : Prop :=
  (∀ (s : State) (a : Nat), isPlainThread s [a] → s.here.holds s.actor.thread = false →
    ∃ t, exec (.quit a) s = .next t ∧ t.me.status = .draining .quit (s.me.rg a) ∧ t.me.isMember = false ∧
      OtherThreads s t ∧ OtherCores s.actor.core s t ∧ t.dram = s.dram ∧
      (⟨s.now, .quitDrainEnd, [s.actor.core, s.actor.thread]⟩ : Due) ∈ t.agenda) ∧
  (∀ (s : State) (k n : Nat) (kind : DrainKind) (v : Word) (c : Ctx), s.args = [k, n] → s.ctx? ⟨k, n⟩ = some c →
    c.status = .draining kind v → isDrained s ⟨k, n⟩ = true →
    ∃ t, exec .quitDrainEnd s = .next t ∧ t.ctx? ⟨k, n⟩ = none ∧ OthersOf k n s t ∧ t.dram = s.dram) ∧
  (∀ (s : State) (f : Flight) (h : Nat) (v : Word), s.arriving (s.arg 0) = some f → f.payload = .reap h v →
    ∃ t, exec .reapRecord s = .next t ∧ (t.core f.dst).reaps = (s.core f.dst).reaps ++ [(h, v)] ∧
      OtherCores f.dst s t ∧ ∀ n c, s.ctx? ⟨f.dst, n⟩ = some c → c.parkReason = 7 → c.isLimited = false →
        c.throttled = false →
        ∃ c', t.ctx? ⟨f.dst, n⟩ = some c' ∧ c'.status = .running ∧ c'.pc = c.pc) ∧
  ∀ (s : State) (d b q : Nat), isPlainThread s [d, b] → s.actor.thread = 0 → q ≠ 0 →
    (∀ h v rest, s.here.reaps = (h, v) :: rest → ∃ t, exec (.reap d b q) s = .next t ∧
      t.here.reaps = rest ∧ t.here.children = s.here.children - 1 ∧ t.me.rp q = okMask true ∧
      (d ≠ 0 → d ≠ b → t.me.rg d = v) ∧ (b ≠ 0 → t.me.rg b = BitVec.ofNat 64 h) ∧
      (∀ r, r ≠ d → r ≠ b → t.me.rg r = s.me.rg r) ∧ Completed 4 8 s t ∧ OtherThreads s t ∧ OtherCores s.actor.core s t) ∧
    (s.here.reaps = [] → s.here.children = 0 → ∃ t, exec (.reap d b q) s = .next t ∧
      t.me.rp q = okMask false ∧ t.me.g = s.me.g ∧ Completed 4 8 s t ∧ OnlyThread s t) ∧
    (s.here.reaps = [] → s.here.children ≠ 0 → ∃ t, exec (.reap d b q) s = .next t ∧
      t.me = { s.me with status := .parked, park := 7, readyAt := s.now + 4 } ∧ OtherThreads s t ∧ OtherCores s.actor.core s t)

/-- R140: KILL of another thread sends its request and parks for the reply; the target's thread begins its drain with the exit
value of all ones, or there is none that has not begun to end; the reply reports which. -/
def Sys2Proof.Claims.KillingThreads : Prop :=
  (∀ (s : State) (a q k : Nat), isPlainThread s [a] → q ≠ 0 → handleTarget s (s.me.rg a).toNat = some k →
    (s.me.rg a).toNat ≠ s.me.handle → handleThread (s.me.rg a).toNat ≠ 0 →
    ∃ t, exec (.kill a q) s = .next t ∧ ParksForReply s t ∧ OnlySends s t ∧
      Sends .control s.actor.core k s.me.handle (.kill s.actor q (s.me.rg a).toNat) .killRequest s t) ∧
  (∀ (s : State) (f : Flight) (a x : Actor) (q h : Nat), s.arriving (s.arg 0) = some f → f.payload = .kill a q h →
    (s.landed f.id).threadOf h = some x →
    (s.ctx x).isDraining = false → (s.ctx x).ending = none → (s.ctx x).ticket = none → (s.ctx x).role = none → (s.ctx x).gang = none →
    (s.core x.core).holds x.thread = false →
    ∃ t, exec .killRequest s = .next t ∧ (t.ctx x).status = .draining .kill (BitVec.allOnes 64) ∧ OthersOf x.core x.thread s t ∧
      Answers f.id .control f.dst a.core 0 (.killReply a q true) s t) ∧
  (∀ (s : State) (f : Flight) (a : Actor) (q h : Nat), s.arriving (s.arg 0) = some f → f.payload = .kill a q h →
    (∀ x, (s.landed f.id).threadOf h = some x → (s.ctx x).isDraining = true ∨ (s.ctx x).ending.isSome = true) →
    ∃ t, exec .killRequest s = .next t ∧ t.cores = s.cores ∧ Answers f.id .control f.dst a.core 0 (.killReply a q false) s t) ∧
  ∀ (s : State) (f : Flight) (a : Actor) (q : Nat) (ok : Bool) (c : Ctx),
    s.arriving (s.arg 0) = some f → f.payload = .killReply a q ok → s.ctx? a = some c → c.status = .parked → q ≠ 0 →
    ∃ t c', exec .killReply s = .next t ∧ t.ctx? a = some c' ∧ ResumesWith q ok c c' ∧ c'.g = c.g ∧ OthersOf a.core a.thread s t

/-- R138 to R140: how threads end, and REAP. -/
def Obligations.ThreadEnds : Prop := Sys2Proof.Claims.EndingThreads ∧ Sys2Proof.Claims.KillingThreads


/-- R144: MIGRATE to another core sends the context, past the instruction, and parks; the target takes it under a new handle,
its registers and PC as they were, or refuses it; then the old core frees the thread, or it goes on there with failure. -/
def Obligations.Migrating : Prop :=
  (∀ (s : State) (a q k : Nat), isPlainThread s [a] → s.me.bound = false → s.actor.thread ≠ 0 → q ≠ 0 →
    handleTarget s (s.me.rg a).toNat = some k → k ≠ s.actor.core → s.me.unacked = [] →
    (keptForwards s s.actor.core).length < 8 →
    ∃ t c, exec (.migrate a q) s = .next t ∧ ParksForReply s t ∧ OnlySends s t ∧
      c = { s.me with pc := s.me.pc + 4, readyAt := c.readyAt, wait := none } ∧
      Sends .control s.actor.core k s.me.handle (.migrate s.actor q c) .migrateRequest s t) ∧
  (∀ (s : State) (a q : Nat), isPlainThread s [a] → s.me.bound = false → s.actor.thread ≠ 0 → q ≠ 0 →
    handleTarget s (s.me.rg a).toNat = some s.actor.core →
    ∃ t, exec (.migrate a q) s = .next t ∧ t.me.rp q = okMask true ∧ t.me.g = s.me.g ∧ Completed 4 8 s t ∧ OnlyThread s t) ∧
  (∀ (s : State) (f : Flight) (a : Actor) (q n : Nat) (c : Ctx), s.arriving (s.arg 0) = some f →
    f.payload = .migrate a q c → f.dst ≠ a.core → q ≠ 0 → (s.ctx? a).isSome = true → (s.ctx a).isDraining = false →
    isUnloaded s f.dst = false → (s.core f.dst).freeThread = some n → takesMigrant (s.landed f.id) f.dst (s.core a.core).launchOf c = true →
    let h := mkHandle f.dst n (Map.get 0 (s.core f.dst).gens n % 256)
    ∃ t c', exec .migrateRequest s = .next t ∧ t.ctx? ⟨f.dst, n⟩ = some c' ∧ OthersOf f.dst n s t ∧
      c'.g = c.g ∧ c'.v = c.v ∧ c'.e = c.e ∧ c'.pc = c.pc ∧ c'.xstat = c.xstat ∧ c'.rp q = okMask true ∧
      c'.ctxid = BitVec.ofNat 32 h ∧ c.readyAt ≤ c'.readyAt ∧ Answers f.id .control f.dst a.core 0 (.migrateReply a q (some h)) s t) ∧
  (∀ (s : State) (f : Flight) (a : Actor) (q h : Nat), s.arriving (s.arg 0) = some f →
    f.payload = .migrateReply a q (some h) →
    ∃ t, exec .migrateReply s = .next t ∧ t.ctx? a = none ∧ OthersOf a.core a.thread s t) ∧
  ∀ (s : State) (f : Flight) (a : Actor) (q : Nat) (c : Ctx), s.arriving (s.arg 0) = some f →
    f.payload = .migrateReply a q none → s.ctx? a = some c → c.status = .parked → q ≠ 0 →
    ∃ t c', exec .migrateReply s = .next t ∧ t.ctx? a = some c' ∧ ResumesWith q false c c' ∧ c'.g = c.g ∧
      OthersOf a.core a.thread s t

/-- R141 to R143: YIELD with no thread waiting in the wings, or by a thread that may not go there, only moves past its word; else
it gives its slot to the waiting thread whose priority is at least its own. PRI
returns the old priority and sets the new one, at most CEIL; WAKE reports whether its thread is resident. -/
def Sys2Proof.Claims.YieldPriWake : Prop :=
  (∀ s : State, s.me.gang = none →
    (nextPending s.here = none ∨ wingsEligible s.here s.actor.thread s.me = false) →
    ∃ t, exec .yield s = .next t ∧ NoResult (s.me.pc + 4) 4 s t) ∧
  (∀ (s : State) (p : Nat × Ctx), s.me.gang = none → nextPending s.here = some p → p.1 ≠ s.actor.thread →
    s.ctx? ⟨s.actor.core, p.1⟩ = some p.2 → wingsEligible s.here s.actor.thread s.me = true → s.me.eff ≤ p.2.eff →
    s.here.portBusy ≤ s.now →
    ∃ t, exec .yield s = .next t ∧ t.me.place = .moving none (s.now + 16) ∧ t.me.pc = s.me.pc + 4 ∧ t.me.g = s.me.g ∧
      t.ctx? ⟨s.actor.core, p.1⟩ = some { p.2 with place := .moving (some s.me.slot) (s.now + 32) } ∧
      OtherCores s.actor.core s t) ∧
  (∀ (s : State) (d a : Nat), plainRegs s [d, a] → ∃ t, exec (.pri d a) s = .next t ∧
    WritesG d (BitVec.ofNat 64 s.me.priority) s t ∧ t.me.priority = min (s.me.rg a).toNat s.me.ceil ∧ t.me.ceil = s.me.ceil ∧
    Completed 4 4 s t ∧ OnlyThread s t ∧
    t.me = { s.me with g := t.me.g, prio := t.me.prio, pc := t.me.pc, readyAt := t.me.readyAt, wait := t.me.wait }) ∧
  ∀ (s : State) (a q : Nat), acts s → plainRegs s [a] → q ≠ 0 →
    handleTarget s (s.me.rg a).toNat = some s.actor.core →
    (s.threadOf (s.me.rg a).toNat = none → ∃ t, exec (.wake a q) s = .next t ∧ t.me.rp q = okMask false ∧
      t.me.g = s.me.g ∧ Completed 4 8 s t ∧ OnlyThread s t) ∧
    ∀ n c, n ≠ s.actor.thread → s.threadOf (s.me.rg a).toNat = some ⟨s.actor.core, n⟩ → s.ctx? ⟨s.actor.core, n⟩ = some c →
      c.parkReason ∈ [1, 2, 3, 4] →
      ∃ t c', exec (.wake a q) s = .next t ∧ t.me.rp q = okMask true ∧ t.me.g = s.me.g ∧ Completed 4 8 s t ∧
        t.ctx? ⟨s.actor.core, n⟩ = some c' ∧ c'.status = .running ∧ c'.pc = c.pc ∧ c'.g = c.g ∧
        OtherCores s.actor.core s t ∧ ∀ m, m ≠ n → m ≠ s.actor.thread → t.ctx? ⟨s.actor.core, m⟩ = s.ctx? ⟨s.actor.core, m⟩

/-- R145 to R148: JOIN adds the issuer to the crew with the next rank, LEAVE takes it out; BAR arrives and parks, BARTRY
arrives and reports; after its phase a member arrives in the next one; the phase completes once every member has arrived and is
live, and ends the members' parks. That BARTRY then also reports the completed phase, and that members in the wings for which
alone a phase waits become PENDING, is the model's reading (log entry 21). -/
def Sys2Proof.Claims.Crews : Prop :=
  (∀ (s : State) (a : Nat), isPlainThread s [a] →
    let l := s.here.launchOf
    let slot := l.crewBase + (s.me.rg a).toNat
    (s.me.rg a).toNat < l.crews → s.me.isMember = false → ¬ (l.coresident = true ∧ s.me.spawner.isSome = true) →
    (s.crew slot).nextRank < 2 ^ 18 → slot < 2 ^ 16 →
    ∃ t, exec (.join a) s = .next t ∧ (t.crew slot).members = (s.crew slot).members ++ [(s.actor, (s.crew slot).nextRank)] ∧
      (t.crew slot).nextRank = (s.crew slot).nextRank + 1 ∧ (t.crew slot).phase = (s.crew slot).phase ∧
      (∀ j, j ≠ slot → t.crew j = s.crew j) ∧ t.me.crewRank = (s.crew slot).nextRank ∧
      t.me.crewsz = BitVec.ofNat 32 ((s.crew slot).members.length + 1) ∧ t.me.crewSlot = BitVec.ofNat 16 slot ∧
      t.me.isMember = true ∧ t.me.g = s.me.g ∧ Completed 4 8 s t ∧ OtherCores s.actor.core s t ∧ OtherThreads s t) ∧
  (∀ s : State, isPlainThread s [] → s.me.isMember = true →
    let slot := s.me.crewSlot.toNat
    ∃ t, exec .leave s = .next t ∧ (t.crew slot).members = (s.crew slot).members.filter (fun m => m.1 != s.actor) ∧
      (∀ j, j ≠ slot → t.crew j = s.crew j) ∧ t.me.isMember = false ∧ t.me.crewRank = 0 ∧ t.me.crewsz = 0 ∧
      t.me.g = s.me.g ∧ Completed 4 8 s t ∧ OtherCores s.actor.core s t ∧ OtherThreads s t) ∧
  (∀ (s : State) (q : Nat), isPlainThread s [] → s.me.isMember = true → s.me.arrived = none → q ≠ 0 →
    let slot := s.me.crewSlot.toNat
    (s.crew slot).members ≠ [] →
    (∃ t, exec .bar s = .next t ∧ t.me.status = .parked ∧ t.me.park = BitVec.ofNat 32 (5 + 256 * slot) ∧
      t.me.pc = s.me.pc + 4 ∧ t.me.g = s.me.g ∧ (t.crew slot).arrived = (s.crew slot).arrived ++ [s.actor] ∧
      t.me.arrived = some (s.crew slot).phase ∧ OtherCores s.actor.core s t ∧ OtherThreads s t) ∧
    ∃ t, exec (.bartry q) s = .next t ∧ t.me.rp q = okMask false ∧ Completed 4 4 s t ∧ t.me.g = s.me.g ∧
      (t.crew slot).arrived = (s.crew slot).arrived ++ [s.actor] ∧ t.me.arrived = some (s.crew slot).phase ∧
      OtherCores s.actor.core s t ∧ OtherThreads s t) ∧
  (∀ (s : State) (q p : Nat), isPlainThread s [] → s.me.isMember = true → s.me.arrived = some p → q ≠ 0 →
    let slot := s.me.crewSlot.toNat
    p ≠ (s.crew slot).phase → (s.crew slot).members ≠ [] →
    (∃ t, exec (.bartry q) s = .next t ∧ t.me.rp q = okMask true ∧ t.me.arrived = some (s.crew slot).phase ∧
      (t.crew slot).arrived = (s.crew slot).arrived ++ [s.actor] ∧ t.me.g = s.me.g ∧ Completed 4 4 s t ∧
      OtherCores s.actor.core s t ∧ OtherThreads s t) ∧
    ∃ t, exec .bar s = .next t ∧ t.me.status = .parked ∧ t.me.park = BitVec.ofNat 32 (5 + 256 * slot) ∧
      t.me.pc = s.me.pc + 4 ∧ t.me.g = s.me.g ∧ (t.crew slot).arrived = (s.crew slot).arrived ++ [s.actor] ∧
      t.me.arrived = some (s.crew slot).phase ∧ OtherCores s.actor.core s t ∧ OtherThreads s t) ∧
  ∀ (s : State) (slot : Nat), s.args = [slot] →
    (phaseReady s (s.crew slot) = true → ((s.crew slot).members.map (·.1)).Nodup →
      ∃ t, exec .crewPhaseComplete s = .next t ∧ (t.crew slot).phase = ((s.crew slot).phase + 1) % 2 ^ 16 ∧
        (t.crew slot).arrived = [] ∧ ((t.crew slot).members.map (·.1)) = (s.crew slot).members.map (·.1) ∧
        ∀ m ∈ (s.crew slot).members, (s.ctx m.1).parkReason = 5 →
          (t.ctx m.1).status = .running ∧ (t.ctx m.1).park = 0 ∧ (t.ctx m.1).arrived = none) ∧
    (allArrived (s.crew slot) = false → exec .crewPhaseComplete s = .next s) ∧
    (allArrived (s.crew slot) = true → phaseReady s (s.crew slot) = false →
      ∃ t, exec .crewPhaseComplete s = .next t ∧ t.hub = s.hub ∧
        ∀ m ∈ (s.crew slot).members, ∀ c, s.ctx? m.1 = some c → ∃ c', t.ctx? m.1 = some c' ∧
          c' = { c with called := c'.called, place := c'.place } ∧
          (c.isWinged = true → c.parkReason = 5 → c.suspended = false → c'.isPending = true))

/-- R151 to R155: GANG with a count of 0 awaits; with a count it enrols the group if every other member awaits, else reports
failure; UNGANG outside a gang, or in a follower, ends the membership; a follower executes its oldest buffered
instruction, and a branch takes it where the stroke went. -/
def Obligations.Gangs : Prop :=
  (∀ (s : State) (a q : Nat), isPlainThread s [a] → q ≠ 0 → isHub s.actor.core = false →
    (∃ t, exec (.gang a 0 q) s = .next t ∧ t.me.status = .parked ∧ t.me.park = 8 ∧ t.me.pc = s.me.pc ∧ t.me.g = s.me.g ∧
      OtherCores s.actor.core s t ∧ OtherThreads s t) ∧
    ∀ n ∈ [2, 4, 8], (s.me.rg a).toNat < 64 →
      let members := gangMembers s.actor n (s.me.rg a).toNat
      let ready := members.all fun m => m == s.actor || isAwaiting s s.me.codeId m
      (ready = true → ∃ t, exec (.gang a n q) s = .next t ∧ Completed 4 16 s t ∧ t.me.rp q = okMask true ∧ t.me.g = s.me.g ∧
        ∀ i < n, ∃ m, members[i]? = some m ∧ (t.ctx m).gang = some ⟨s.actor, members, i, []⟩ ∧
          (t.ctx m).gsize = BitVec.ofNat 32 n ∧ (m ≠ s.actor → (t.ctx m).status = .running ∧ (t.ctx m).pc = s.me.pc + 4)) ∧
      (ready = false → ∃ t, exec (.gang a n q) s = .next t ∧ t.me.rp q = okMask false ∧ t.me.g = s.me.g ∧
        Completed 4 16 s t ∧ OnlyThread s t)) ∧
  (∀ s : State, s.me.gang = none → ∃ t, exec .ungang s = .next t ∧ NoResult (s.me.pc + 4) 4 s t) ∧
  (∀ (s : State) (g : Gang), s.me.gang = some g → g.stroke ≠ s.actor →
    ∃ t, exec .ungang s = .next t ∧ t.me.gang = none ∧ t.me.gsize = 0 ∧ t.me.g = s.me.g ∧ Completed 4 4 s t ∧ OnlyThread s t) ∧
  ∀ (s : State) (k n : Nat) (c : Ctx) (g : Gang) (item : GangItem) (rest : List GangItem),
    s.args = [k, n] → s.ctx? ⟨k, n⟩ = some c → c.gang = some g → g.stroke ≠ ⟨k, n⟩ → g.buffer = item :: rest →
    isReadyThread s k n c = true → c.status = .running → c.bound = false → c.xstat.getLsbD 11 = false →
    (∀ a b off, ∀ f ∈ branchForms a b off 0 0, item.instr = f.1 → ∃ t c', exec .gangBufferExecute s = .next t ∧ t.actor = s.actor ∧
      t.ctx? ⟨k, n⟩ = some c' ∧ c'.pc = item.next ∧ c'.g = c.g ∧ c'.gang = some { g with buffer := rest } ∧ OthersOf k n s t) ∧
    ∀ d a b, item.instr = .add d a b → ∃ t c', exec .gangBufferExecute s = .next t ∧ t.actor = s.actor ∧
      t.ctx? ⟨k, n⟩ = some c' ∧ c'.pc = item.pc + 4 ∧ c'.rg d = (if d = 0 then 0 else c.rg a + c.rg b) ∧
      (∀ r, r ≠ d → c'.rg r = c.rg r) ∧ c'.gang = some { g with buffer := rest } ∧ OthersOf k n s t

/-- R156, R157: PART gives the issuer its slice of the chunks, each slice ending where the next begins; WAITM goes on when the
inbox holds a message and parks with reason 3 while it is empty. -/
def Sys2Proof.Claims.PartAndWaitm : Prop :=
  (∀ (s : State) (d a b q : Nat), plainRegs s [d, d + 1, a, b] → d % 2 = 0 → q ≤ 1 → (q = 0 → s.me.isMember = true) → s.me.rg b ≠ 0 →
    let n := (s.me.rg a).toNat
    let g := (s.me.rg b).toNat
    let r := if q = 0 then s.me.crewRank else s.me.rank.toNat / 2 ^ 18 % 8
    let p := max 1 (if q = 0 then s.me.crewsz.toNat else s.me.gsize.toNat)
    let chunks := (n + (g - 1)) / g
    let bound (r : Nat) : Nat := min ((r * (chunks / p) + min r (chunks % p)) * g) n
    ∃ t, exec (.part d a b q) s = .next t ∧ t.me.rg (d + 1) = BitVec.ofNat 64 (bound (r + 1)) ∧
      t.me.rg d = (if d = 0 then 0 else BitVec.ofNat 64 (bound r)) ∧ (∀ i, i ≠ d → i ≠ d + 1 → t.me.rg i = s.me.rg i) ∧
      Completed 4 8 s t ∧ CtxKeptButG s t ∧ OnlyThread s t) ∧
  ∀ s : State, (s.here.inbox ≠ [] → ∃ t, exec .waitm s = .next t ∧ NoResult (s.me.pc + 4) 4 s t) ∧
    (s.here.inbox = [] → ∃ t, exec .waitm s = .next t ∧ t.me = { s.me with status := .parked, park := 3, readyAt := s.now + 4 } ∧
      OtherCores s.actor.core s t ∧ OtherThreads s t)

/-- R145 to R148, R156, R157: crews, PART and WAITM. -/
def Obligations.CrewWork : Prop := Sys2Proof.Claims.Crews ∧ Sys2Proof.Claims.PartAndWaitm


/-- R130, R131: a free slot goes to the next thread that waits in the wings, which moves for 16 cycles; with no free slot such
a thread displaces a victim of lower priority that has reached an instruction boundary; at the end of its move a thread is in its slot or in the wings. -/
def Sys2Proof.Claims.Wings : Prop :=
  (∀ (s : State) (k i : Nat) (e : Nat × Ctx), s.args = [k] → (s.core k).portBusy ≤ s.now → (s.core k).freeSlot = some i →
    nextPending (s.core k) = some e → s.ctx? ⟨k, e.1⟩ = some e.2 →
    ∃ t, exec .wingsSlotGrant s = .next t ∧ t.ctx? ⟨k, e.1⟩ = some { e.2 with place := .moving (some i) (s.now + 16) } ∧
      OthersOf k e.1 s t ∧ (t.core k).portBusy = s.now + 16 ∧
      t.agenda = s.agenda ++ [⟨s.now + 16, .wingsMoveDone, [k, e.1]⟩]) ∧
  (∀ (s : State) (k : Nat) (p v : Nat × Ctx), s.args = [k] → (s.core k).isMoving = false → (s.core k).freeSlot = none →
    (s.core k).portBusy ≤ s.now → nextPending (s.core k) = some p → victimOf (s.core k) = some v → v.2.eff < p.2.eff →
    s.ctx? ⟨k, v.1⟩ = some v.2 → hasReached s ⟨k, v.1⟩ v.2 = true →
    ∃ t, exec .wingsSwapOut s = .next t ∧
      t.ctx? ⟨k, v.1⟩ = some { v.2.unwoken with stopped := some s.time, place := .moving none (s.now + 16) } ∧ OthersOf k v.1 s t) ∧
  ∀ (s : State) (k n done : Nat) (dest : Option Nat) (c : Ctx), s.args = [k, n] → s.ctx? ⟨k, n⟩ = some c →
    c.place = .moving dest done → done ≤ s.now →
    ∃ t c', exec .wingsMoveDone s = .next t ∧ t.ctx? ⟨k, n⟩ = some c' ∧ OthersOf k n s t ∧ c'.g = c.g ∧ c'.pc = c.pc ∧
      c'.place = (match dest with
        | some i => .live i
        | none => .wings s.now)

/-- R130, R131, R141 to R143: live slots and the wings, YIELD, PRI and WAKE. -/
def Obligations.LiveSlots : Prop := Sys2Proof.Claims.YieldPriWake ∧ Sys2Proof.Claims.Wings


/-- R29, R136, R137: p0 as a success predicate raises REGISTER_INVALID; SPAWN and REAP in any thread but thread 0 raise
CONTEXT_ZERO_ONLY; inside a gang SPAWN, QUIT, REAP, KILL, MIGRATE, YIELD, GANG, JOIN and LEAVE raise GANG_FORBIDDEN. The values
of these causes are unstated: free (log entry 11). -/
def Sys2Proof.Claims.ThreadTraps : Prop :=
  ∀ (s : State) (d a b n q : Nat),
    (∀ i ∈ [Instr.spawn d a b 0, .reap d b 0, .kill a 0, .migrate a 0, .wake a 0, .gang a n 0, .bartry 0],
      exec i s = .next (trapOpen .registerInvalid s)) ∧
    (q ≠ 0 → s.me.gang.isSome = true →
      ∀ i ∈ [Instr.spawn d a b q, .quit a, .reap d b q, .kill a q, .migrate a q, .yield, .gang a n q, .join a, .leave],
        exec i s = .next (trapOpen .gangForbidden s)) ∧
    (q ≠ 0 → s.me.gang = none → s.isSpeculative s.me = false → s.actor.thread ≠ 0 →
      ∀ i ∈ [Instr.spawn d a b q, .reap d b q], exec i s = .next (trapOpen .contextZeroOnly s))

namespace Sys2Proof.Claims

/-! ### Copies -/

/-- The acting thread may enqueue a copy entry that counts in `counter` and moves the local bytes `reads` and `writes`: nothing
restricts its operands, its queue and counter have room, and no footprint in flight meets the bytes. -/
def mayEnqueue (s : State) (fields : List Nat) (counter : Option Nat) (q : Nat) (reads writes : List Bytes) : Prop :=
  acts s ∧ plainRegs s fields ∧ s.me.ticket = none ∧ q ≠ 0 ∧ s.here.entries.length < 32 ∧
    (∀ n, counter = some n → Map.get 0 s.here.kout n ≠ BitVec.allOnes 16) ∧
    (reads ++ writes = [] ∨ engineWaits s.here reads writes = false)

/-- An entry is enqueued (R210): it waits in the core's queue, its counter's OUTSTANDING is one more, its footprint is in
flight, its service is due; the predicate reports success. -/
def Enqueues (op : CopyOp) (counter : Option Nat) (q loc : Nat) (rem : Word) (reads writes : List Bytes) (s t : State) : Prop :=
  (∃ e, t.here.queue = s.here.queue ++ [e] ∧ e.id = s.ids ∧ e.op = op ∧ e.counter = counter ∧ e.owner = s.me.handle ∧
    e.loc = loc ∧ e.rem = rem ∧ e.eff = s.me.eff ∧ e.moved = 0 ∧ e.state = .waiting ∧ e.held = []) ∧
  (∀ n, Map.get 0 t.here.kout n = if counter = some n then Map.get 0 s.here.kout n + 1 else Map.get 0 s.here.kout n) ∧
  t.here.prints = s.here.prints ++ (if reads ++ writes = [] then [] else
    [⟨s.ids, s.me.handle, reads, writes, false, false, false⟩]) ∧
  t.agenda = s.agenda ++ [⟨s.now, .copyEntryService, [s.actor.core, s.ids]⟩] ∧ t.me.rp q = okMask true ∧
  (∀ r, r ≠ q → t.me.rp r = s.me.rp r) ∧ t.me.lastOutcome = 0 ∧ t.me.lastCounter = counter.getD 0 ∧ t.me.g = s.me.g ∧
  Completed 4 4 s t ∧ t = { s with cores := t.cores, ids := s.ids + 1, agenda := t.agenda } ∧
  OtherCores s.actor.core s t ∧ OtherThreads s t ∧
  t.here = { s.here with
    threads := t.here.threads, instret := t.here.instret, lastSlot := t.here.lastSlot, nextIssue := t.here.nextIssue,
    queue := t.here.queue, kout := t.here.kout, prints := t.here.prints, dbgIssued := t.here.dbgIssued }

/-- The atomics of R220 by the operation of their entry. -/
def gamoForms (k m t w q : Nat) : List (Instr × Nat) :=
  [(.gamoAdd k m t w q, 0), (.gamoAnd k m t w q, 1), (.gamoOr k m t w q, 2), (.gamoXor k m t w q, 3), (.gamoMin k m t w q, 4),
   (.gamoMax k m t w q, 5), (.gamoMinn k m t w q, 6), (.gamoMaxn k m t w q, 7), (.gamoSwap k m t w q, 8)]

/-- A linear remote range lies in the address space. -/
def inSpace (r : Word) (n : Nat) : Prop := r.toNat < 2 ^ 57 ∧ r.toNat + n ≤ 2 ^ 57

/-- Every HBM stack accepts commands: none has passed 105 °C (R437). -/
def allCold (s : State) : Prop := ∀ i < 12, (Map.get 0 s.plat.stackState i).testBit 2 = false

/-- The entry with this number is in the core's queue, alone of it. -/
def hasEntry (s : State) (k : Nat) (e : Entry) : Prop :=
  s.entry? k e.id = some e ∧ ∀ x ∈ (s.core k).queue, x.id = e.id → x = e

/-- Every byte of `n` at `va` of a space has this cached translation in cluster `g`, allowed for `need`, in memory of this
device that the space's kernel may use, free of errors, in a stack that accepts commands. -/
def mappedIn (s : State) (g space : Nat) (t : TlbEntry) (need va n : Nat) : Prop :=
  (∀ i < n, s.cached g space (va + i) = some t) ∧ permits t need = true ∧ t.device = s.plat.devid ∧
    ∀ i < n, inHub (t.physOf (va + i)) = false ∧ t.physOf (va + i) / 8 ∉ s.dramBad ∧
      shutUnder s t (t.physOf (va + i)) = false ∧
      s.refuses (s.spaceKernel space) (frameOf (t.physOf (va + i))) = false

/-- As `mappedIn`, in core `k`'s cluster and space. -/
def mapped (s : State) (k : Nat) (t : TlbEntry) (need va n : Nat) : Prop :=
  mappedIn s (clusterOf k) (s.spaceOf k) t need va n

/-- The copy engine of core `k`'s cluster has one entry to serve: `e`, of an ordinary thread's queue. -/
def serves (s : State) (k : Nat) (e : Entry) : Prop :=
  hasEntry s k e ∧ waitingEntries s k = [(k, e)] ∧ e.moved = 0 ∧ s.arg 0 = k ∧
    ∃ a, s.ownerOf e.owner = some a ∧ (s.ctx a).ticket = none

/-- No word of `n` bytes at `x` of core `k`'s local store has an error. -/
def lsSound (s : State) (k x n : Nat) : Prop :=
  ∀ w, x / 4 ≤ w → w ≤ (x + n - 1) / 4 → w ∉ (s.core k).lsBad ∧ w ∉ (s.core k).lsSingle

/-- The service has performed the entry: it waits for its completion, and that and the end of its footprint are due. -/
def Performs (k : Nat) (e : Entry) (s t : State) : Prop :=
  (∃ e', t.entry? k e.id = some e' ∧ e'.state = .performed) ∧
    t.agenda = s.agenda ++ [⟨s.now, .footprintRetire, [k, e.id]⟩, ⟨s.now, .copyEntryComplete, [k, e.id]⟩] ∧
    OtherCores k s t ∧ (t.core k).threads = (s.core k).threads ∧ (t.core k).kout = (s.core k).kout ∧
    (t.core k).kval = (s.core k).kval

end Sys2Proof.Claims

/-- R210, R217 to R222, R49: each copy instruction with legal operands, in a thread of no task, enqueues its entry: the operation,
the local and the remote side, and the footprint of its local bytes. -/
def Sys2Proof.Claims.CopyIssue : Prop :=
  ∀ (s : State) (k m b q : Nat),
    let x0 := s.me.rg (2 * m)
    let x1 := s.me.rg (2 * m + 1)
    let lx := x0.toNat
    let len := x1.toNat % 2 ^ 24
    (∀ rem, rem = s.me.rg b → x1.toNat = len → len ≠ 0 → lx + len ≤ lsLimit s.actor.core → inSpace rem len →
      (mayEnqueue s [2 * m, 2 * m + 1, b] (some k) q [] [run lx len] → ∃ t, exec (.get k m b q) s = .next t ∧
        Enqueues (.get len) (some k) q lx rem [] [run lx len] s t) ∧
      (mayEnqueue s [2 * m, 2 * m + 1, b] (some k) q [run lx len] [] → ∃ t, exec (.put k m b q) s = .next t ∧
        Enqueues (.put len) (some k) q lx rem [run lx len] [] s t)) ∧
    (∀ full w, w = s.me.rg b → x1.toNat = len + (if full then 2 ^ 24 else 0) → len ≠ 0 →
      lx + len ≤ lsLimit s.actor.core → w.toNat < 2 ^ 48 → winOffset w.toNat + len ≤ winLimit w.toNat →
      (full = true → winOffset w.toNat % 4 = 0 ∧ len % 4 = 0) →
      (winDevice w.toNat ≠ s.plat.devid ∨
        ∃ c, winCore w.toNat = some c ∧ c ≠ s.actor.core ∧ s.mayName s.actor.core c = true) →
      mayEnqueue s [2 * m, 2 * m + 1, b] (some k) q [run lx len] [] → ∃ t, exec (.rput k m b q) s = .next t ∧
        Enqueues (.rput len full) (some k) q lx w [run lx len] [] s t) ∧
    (∀ r t' w n, n = (if w = 0 then 4 else 8) → r = (s.me.rg (2 * t')).toNat → x0.toNat < 2 ^ 57 → x0.toNat % n = 0 →
      r + n ≤ lsLimit s.actor.core → r % n = 0 → mayEnqueue s [2 * m, 2 * m + 1, 2 * t'] (some k) q [] [run r n] →
      ∀ f ∈ gamoForms k m t' w q, ∃ t, exec f.1 s = .next t ∧
        Enqueues (.gamo f.2 (w != 0) (x1.toNat % 2 ^ (8 * n))) (some k) q r x0 [] [run r n] s t) ∧
    (∀ a, (s.me.rg a).toNat < 2 ^ 33 → ((s.me.rg a).getLsbD 32 = true → bits (s.me.rg a).toNat 16 2 = 0) →
      (nameDevice (s.me.rg a).toNat ≠ s.plat.devid ∨
        ∃ c, nameCore (s.me.rg a).toNat = some c ∧ s.mayName s.actor.core c = true) →
      mayEnqueue s [a, b] none q [] [] → ∃ t, exec (.kadd a b q) s = .next t ∧
        Enqueues (.kadd ((s.me.rg b).toNat % 2 ^ 32)) none q 0 (s.me.rg a) [] [] s t) ∧
    (∀ r, x1.toNat = len → len ≠ 0 → inSpace x0 len → mayEnqueue s [2 * m, 2 * m + 1] (some k) q [] [] →
      ∃ t, exec (.tierpf k m r q) s = .next t ∧ Enqueues (.tierpf len r) (some k) q 0 x0 [] [] s t) ∧
    (∀ a sc, (s.me.rg a).toNat ≠ 0 → (s.me.rg a).toNat < 2 ^ 16 → mayEnqueue s [a] (some k) q [] [] →
      ∃ t, exec (.iflush k a sc q) s = .next t ∧
        Enqueues (.iflush (s.me.rg a).toNat sc) (some k) q 0 (s.me.rg a) [] [] s t) ∧
    ∀ j zc,
      let z := 2 ^ zc
      let e0 := (s.me.re (2 * j)).toNat
      let n0 := e0 % 2 ^ 16 + 1
      let n1 := e0 / 2 ^ 16 % 2 ^ 16 + 1
      let n2 := e0 / 2 ^ 32 % 2 ^ 16 + 1
      let pitch := 16 * (e0 / 2 ^ 48)
      let p := if pitch = 0 then n0 * z else pitch
      let s1 := ((s.me.re (2 * j + 1)).extractLsb' 0 32).toInt
      let s2 := ((s.me.re (2 * j + 1)).extractLsb' 32 32).toInt
      let bytes : Bytes := ⟨lx, n0 * z, p, n1 * n2⟩
      (pitch = 0 ∨ n0 * z ≤ pitch) → lx + (n1 * n2 - 1) * p + n0 * z ≤ lsLimit s.actor.core →
      (∀ r < n1 * n2,
        let v : Int := x1.toNat + ((r % n1 : Nat) : Int) * s1 + ((r / n1 : Nat) : Int) * s2
        0 ≤ v ∧ v + ((n0 * z : Nat) : Int) ≤ 2 ^ 57 ∧ v % z = 0 ∧ (lx + r * p) % z = 0) →
      (mayEnqueue s [2 * m, 2 * m + 1] (some k) q [] [bytes] → ∃ t, exec (.gets k m q j zc) s = .next t ∧
        Enqueues (.gets z n0 n1 n2 p s1 s2) (some k) q lx x1 [] [bytes] s t) ∧
      (mayEnqueue s [2 * m, 2 * m + 1] (some k) q [bytes] [] → ∃ t, exec (.puts k m q j zc) s = .next t ∧
        Enqueues (.puts z n0 n1 n2 p s1 s2) (some k) q lx x1 [bytes] [] s t)

/-- R210: with the queue full, or the counter's OUTSTANDING at its greatest value, a copy instruction reports failure and has no
other effect. -/
def Sys2Proof.Claims.CopyNoRoom : Prop :=
  ∀ (s : State) (k m b q outcome : Nat), acts s → plainRegs s [2 * m, 2 * m + 1, b] → s.me.ticket = none → q ≠ 0 →
    let x1 := s.me.rg (2 * m + 1)
    let lx := (s.me.rg (2 * m)).toNat
    x1 ≠ 0 → x1.toNat < 2 ^ 24 → lx + x1.toNat ≤ lsLimit s.actor.core → inSpace (s.me.rg b) x1.toNat →
    engineWaits s.here [run lx x1.toNat] [] = false → engineWaits s.here [] [run lx x1.toNat] = false →
    (32 ≤ s.here.entries.length ∧ outcome = 1 ∨
      s.here.entries.length < 32 ∧ Map.get 0 s.here.kout k = BitVec.allOnes 16 ∧ outcome = 2) →
    ∀ i ∈ [Instr.get k m b q, .put k m b q], ∃ t, exec i s = .next t ∧ t.me.rp q = okMask false ∧
      (∀ r, r ≠ q → t.me.rp r = s.me.rp r) ∧ t.me.lastOutcome = outcome ∧ t.me.lastCounter = k ∧ t.me.g = s.me.g ∧
      Completed 4 4 s t ∧ OnlyThread s t

/-- R210, R217 to R222: entries enter the queue, or find no room. -/
def Obligations.CopyQueue : Prop := Sys2Proof.Claims.CopyIssue ∧ Sys2Proof.Claims.CopyNoRoom


/-- R221, R223, R245: KSET writes a counter's VALUE and wakes its waiters; KREAD reads VALUE below OUTSTANDING; QSTAT reports the
free entries, the thread's last outcome and its own entries; an increment that arrives, or a 32-bit write of the counter's
window, adds to VALUE. -/
def Obligations.Counters : Prop :=
  (∀ (s : State) (k r : Nat), acts s → plainRegs s [r] →
    (∃ t, exec (.kset k r) s = .next t ∧ Map.get 0 t.here.kval k = (s.me.rg r).setWidth 32 ∧
      (∀ n, n ≠ k → Map.get 0 t.here.kval n = Map.get 0 s.here.kval n) ∧ t.here.kout = s.here.kout ∧ t.me.g = s.me.g ∧
      Completed 4 4 s t ∧ OtherCores s.actor.core s t ∧
      ∀ n c, n ≠ s.actor.thread → s.ctx? ⟨s.actor.core, n⟩ = some c → ∃ c', t.ctx? ⟨s.actor.core, n⟩ = some c' ∧
        c'.g = c.g ∧ c'.pc = c.pc ∧
        if c.parkReason = 2 ∧ bits c.park.toNat 8 24 = k ∧ c.isLimited = false ∧ c.throttled = false then c'.status = .running else c' = c) ∧
    (∃ t, exec (.kread k r) s = .next t ∧
      RegisterResult 4 4 r (BitVec.ofNat 64 ((Map.get 0 s.here.kval k).toNat + 2 ^ 32 * (Map.get 0 s.here.kout k).toNat)) s t) ∧
    ∃ t, exec (.qstat r) s = .next t ∧
      RegisterResult 4 4 r (BitVec.ofNat 64 ((32 - s.here.entries.length) + 2 ^ 8 * s.me.lastOutcome + 2 ^ 16 * s.me.lastCounter
        + 2 ^ 24 * (s.here.entries.filter fun e => e.owner == s.me.handle).length)) s t) ∧
  (∀ (s : State) (f : Flight) (src id n v : Nat) (a : Actor), s.arriving (s.arg 0) = some f → f.payload = .increment src id n v →
    awaitsRputs s f.handle id f.dst = false → switchedOut (s.landed f.id) f.dst = none → s.ownerOf f.handle = some a →
    ∃ t, exec .counterIncrement s = .next t ∧
      Map.get 0 (t.core f.dst).kval n = Map.get 0 (s.core f.dst).kval n + BitVec.ofNat 32 v ∧
      (∀ j, j ≠ n → Map.get 0 (t.core f.dst).kval j = Map.get 0 (s.core f.dst).kval j) ∧
      (t.core f.dst).kout = (s.core f.dst).kout ∧ OtherCores f.dst s t ∧
      Answers f.id .control f.dst a.core 0 (.ack a id) s t) ∧
  ∀ (s : State) (addr v k n : Nat), s.args = [addr, 4, v] → v < 2 ^ 32 → counterAt addr = some (k, 16 * n) → isCore k = true →
    switchedOut s k = none →
    ∃ t, exec .counterWindowWrite s = .next t ∧
      Map.get 0 (t.core k).kval n = Map.get 0 (s.core k).kval n + BitVec.ofNat 32 v ∧
      (∀ j, j ≠ n → Map.get 0 (t.core k).kval j = Map.get 0 (s.core k).kval j) ∧ OtherCores k s t ∧ t.hub = s.hub ∧
      t.dram = s.dram

/-- R209, R217, R218: the copy engine moves a GET's bytes from memory to the local store, a PUT's from the local store to memory,
and sends an RPUT's to its core, where they are written word by word, and with the last word the entry is performed; no other
byte changes. -/
def Sys2Proof.Claims.CopyService : Prop :=
  (∀ (s : State) (k : Nat) (e : Entry) (len : Nat) (tr : TlbEntry), serves s k e → e.op = .get len → len ≠ 0 →
    mapped s k tr 1 e.rem.toNat len → lsSound s k e.loc len →
    ∃ t, exec .copyEntryService s = .next t ∧ Performs k e s t ∧ t.dram = s.dram ∧ t.hub = s.hub ∧
      ∀ a, Map.get 0 (t.core k).ls a =
        if e.loc ≤ a ∧ a < e.loc + len then s.physByte (tr.physOf (e.rem.toNat + (a - e.loc))) else Map.get 0 (s.core k).ls a) ∧
  (∀ (s : State) (k : Nat) (e : Entry) (len : Nat) (tr : TlbEntry), serves s k e → e.op = .put len → len ≠ 0 →
    mapped s k tr 2 e.rem.toNat len → lsSound s k e.loc len →
    ∃ t, exec .copyEntryService s = .next t ∧ Performs k e s t ∧ (t.core k).ls = (s.core k).ls ∧
      ∀ a, t.physByte a =
        let first := tr.physOf e.rem.toNat
        if first ≤ a ∧ a < first + len then Map.get 0 (s.core k).ls (e.loc + (a - first)) else s.physByte a) ∧
  (∀ (s : State) (k dst : Nat) (e : Entry) (len : Nat) (full : Bool), serves s k e → e.op = .rput len full → len ≠ 0 →
    winDevice e.rem.toNat = s.plat.devid → winCore e.rem.toNat = some dst → lsSound s k e.loc len →
    ∃ t e', exec .copyEntryService s = .next t ∧ t.entry? k e.id = some e' ∧ e'.state = .sent ∧ t.dram = s.dram ∧
      (t.core k).ls = (s.core k).ls ∧
      t.net = s.net ++ [⟨s.ids, .data, k, dst, e.owner,
        .rput k e.id (winOffset e.rem.toNat) (getBytes (s.core k).ls e.loc len) full, serviceEff s.now e⟩]) ∧
  ∀ (s : State) (f : Flight) (src id off : Nat) (bs : List Byte) (e : Entry) (a : Actor), s.arriving (s.arg 0) = some f →
    f.payload = .rput src id off bs false → bs ≠ [] → lsSound s f.dst off bs.length →
    let n := min bs.length (4 - off % 4)
    ∃ t, exec .rputWrite s = .next t ∧ t.dram = s.dram ∧
      (∀ x, Map.get 0 (t.core f.dst).ls x =
        if off ≤ x ∧ x < off + n then bs.getD (x - off) 0 else Map.get 0 (s.core f.dst).ls x) ∧
      (t.core f.dst).lsState = (s.core f.dst).lsState ∧
      (n < bs.length → OtherCores f.dst s t ∧ (⟨s.now, .rputWrite, s.args⟩ : Due) ∈ t.agenda ∧
        ∃ g ∈ t.net, g.id = f.id ∧ g.payload = .rput src id (off + n) (bs.drop n) false) ∧
      (n = bs.length → hasEntry s src e → e.id = id → e.state = .sent → src ≠ f.dst → s.ownerOf f.handle = some a →
        (∃ e', t.entry? src id = some e' ∧ e'.state = .performed) ∧ Answers f.id .control f.dst a.core 0 (.ack a id) s t)

/-- R202, R211, R226, R234: the parts of a footprint that are done retire; a performed entry whose footprint is gone completes:
OUTSTANDING falls and VALUE rises by one; a failed one lowers OUTSTANDING only, and its cause is pending in its thread; an
acknowledgement ends the thread's count of its operation. -/
def Sys2Proof.Claims.CopyEnds : Prop :=
  (∀ (s : State) (k id : Nat), s.args = [k, id] →
    ∃ t, exec .footprintRetire s = .next t ∧ OtherCores k s t ∧ (t.core k).queue = (s.core k).queue ∧
      (∀ f ∈ (s.core k).prints, f.id ≠ id ∨ (f.readDone = false ∧ f.writeDone = false ∧ f.reads ++ f.writes ≠ []) →
        f ∈ (t.core k).prints) ∧
      ∀ f ∈ (t.core k).prints, f.id = id → (f.readDone = true → f.reads = []) ∧ (f.writeDone = true → f.writes = []) ∧
        f.reads ++ f.writes ≠ []) ∧
  (∀ (s : State) (k n : Nat) (e : Entry), s.args = [k, e.id] → hasEntry s k e → e.state = .performed → e.counter = some n →
    (∀ f ∈ (s.core k).prints, f.id ≠ e.id) →
    ∃ t, exec .copyEntryComplete s = .next t ∧ t.entry? k e.id = none ∧
      Map.get 0 (t.core k).kout n = Map.get 0 (s.core k).kout n - 1 ∧
      Map.get 0 (t.core k).kval n = Map.get 0 (s.core k).kval n + 1 ∧
      (∀ j, j ≠ n → Map.get 0 (t.core k).kout j = Map.get 0 (s.core k).kout j ∧
        Map.get 0 (t.core k).kval j = Map.get 0 (s.core k).kval j) ∧ (t.core k).ls = (s.core k).ls ∧ OtherCores k s t) ∧
  (∀ (s : State) (k n cause frame : Nat) (xval : Word) (e : Entry) (a : Actor), s.args = [k, e.id] → hasEntry s k e →
    e.state = .failed cause xval frame → e.counter = some n → s.ownerOf e.owner = some a → (s.ctx? a).isSome = true →
    (s.ctx a).pend.length < 4 →
    ∃ t, exec .copyEntryFail s = .next t ∧ t.entry? k e.id = none ∧
      Map.get 0 (t.core k).kout n = Map.get 0 (s.core k).kout n - 1 ∧ (t.core k).kval = (s.core k).kval ∧
      (t.ctx a).pend = (s.ctx a).pend ++ [⟨cause, xval, accessOf e.op, frame⟩] ∧ (t.ctx a).g = (s.ctx a).g) ∧
  ∀ (s : State) (f : Flight) (a : Actor) (id : Nat) (c : Ctx), s.arriving (s.arg 0) = some f → f.payload = .ack a id →
    s.ctx? a = some c →
    ∃ t c', exec .remoteAcknowledgement s = .next t ∧ t.ctx? a = some c' ∧
      c'.unacked = c.unacked.filter (fun u => u.id != id) ∧ c'.g = c.g ∧ c'.pc = c.pc ∧ OthersOf a.core a.thread s t

namespace Sys2Proof.Claims

/-- A walk under way for an entry of a core's queue. -/
def walking (s : State) (id k : Nat) (e : Entry) (w : Walk) : Prop :=
  s.args = [id] ∧ Tbl.get? s.walks id = some w ∧ w.waiter = .entry k e.id ∧ hasEntry s k e

end Sys2Proof.Claims

/-- R227 to R231, R374, R375: a walk that finds a leaf the kernel may use fills the cluster's cache and the entry is served
again; one that finds none stalls the entry, and its fault takes a key and sends one record; a replay serves the key's entries
again; a record enters the next place of its kernel's ring. (That walks and records wait while a stack accepts no command is the
model's reading, log entry 34.) -/
def Obligations.Translation : Prop :=
  (∀ (s : State) (id k : Nat) (e : Entry) (w : Walk) (l : Leaf), walking s id k e w → e.state = .walking → allCold s →
    s.rootOf w.space ≠ 0 →
    walkFrom s w.va.toNat 5 (s.rootOf w.space) = .ok l → fillCheck s w.space l = none →
    ∃ t tr e', exec .translationWalk s = .next t ∧ t.cached (clusterOf k) w.space w.va.toNat = some tr ∧ tr.phys = l.phys ∧
      tr.log2 = l.log2 ∧ tr.perms = l.perms ∧ tr.device = l.device ∧ t.entry? k e.id = some e' ∧ e'.state = .waiting ∧
      t.dram = s.dram ∧ (⟨s.now, .copyEntryService, [k, e.id]⟩ : Due) ∈ t.agenda) ∧
  (∀ (s : State) (id k : Nat) (e : Entry) (w : Walk), walking s id k e w → w.space < 64 → allCold s →
    s.rootOf w.space ≠ 0 → walkFrom s w.va.toNat 5 (s.rootOf w.space) = .error .pageNotPresent →
    ∃ t e' w', exec .translationWalk s = .next t ∧ t.entry? k e.id = some e' ∧ e'.state = .stalled ∧ t.clusters = s.clusters ∧
      Tbl.get? t.walks s.ids = some w' ∧ w'.waiter = w.waiter ∧ w'.va = w.va ∧
      w'.cause = some (causeCode .access .pageNotPresent) ∧
      (⟨s.now, .translationFaultStall, [s.ids]⟩ : Due) ∈ t.agenda) ∧
  (∀ (s : State) (id k kernel : Nat) (e : Entry) (w : Walk), walking s id k e w → w.space < 64 →
    kernel = (s.part w.space).kernel → kernel ≠ 0 →
    (∀ f ∈ (s.die (dieOf k)).keys, f.space ≠ w.space ∨ f.page ≠ w.va.toNat / 2 ^ 16) → (s.die (dieOf k)).keys.length < 64 →
    isScrubbed s w = false →
    ∃ t, exec .translationFaultStall s = .next t ∧ t.cores = s.cores ∧
      (t.die (dieOf k)).keys = (s.die (dieOf k)).keys ++
        [⟨w.space, w.va.toNat / 2 ^ 16, (s.die (dieOf k)).seq, [(w.waiter, w.va)], w.access, w.cause.getD 0, w.va, w.frame⟩] ∧
      (t.faultQueue kernel).waiting = (s.faultQueue kernel).waiting ++ [{
        cause := w.cause.getD 0, partition := w.space, access := w.access, thread := e.owner, address := w.va,
        frame := w.frame, seq := (s.die (dieOf k)).seq, die := dieOf k, flags := 1, event := 0 }] ∧
      (t.die (dieOf k)).seq = ((s.die (dieOf k)).seq + 1) % 2 ^ 16) ∧
  (∀ (s : State) (d seq k : Nat) (e : Entry) (f : FaultKey) (va : Word), s.args = [d, seq] →
    (s.die d).keys.find? (fun f => f.seq == seq) = some f → f.waiters = [(.entry k e.id, va)] → hasEntry s k e →
    e.state = .stalled → (s.die d).overflow = [] →
    (∃ t e', exec .faultReplyReplay s = .next t ∧ t.entry? k e.id = some e' ∧ e'.state = .waiting ∧
      (t.die d).keys = (s.die d).keys.filter (fun g => g.seq != seq) ∧
      (⟨s.now, .copyEntryService, [k, e.id]⟩ : Due) ∈ t.agenda) ∧
    ∀ r : Reason, r.arises .remote = true → ∃ t e' frame, exec .faultReplyFail { s with args := [d, seq, r.ctorIdx] } = .next t ∧ t.entry? k e.id = some e' ∧
      e'.state = .failed (causeCode .remote r) va frame ∧ (t.die d).keys = (s.die d).keys.filter (fun g => g.seq != seq)) ∧
  ∀ (s : State) (n : Nat) (r : FRecord) (rest : List FRecord), s.args = [n] → n ≠ 0 →
    let q := s.faultQueue n
    let at_ := bits q.base.toNat 12 36 * 4096 + 32 * (q.tail.toNat % 2 ^ bits q.base.toNat 48 4)
    q.waiting = r :: rest → ringOpen s n q.base q.head q.tail = true → q.note = 0 → allCold s →
    ∃ t, exec .faultRecordWrite s = .next t ∧ (t.faultQueue n).waiting = rest ∧
      (t.faultQueue n).tail = BitVec.ofNat 64 ((q.tail.toNat + 1) % 2 ^ 32) ∧ t.cores = s.cores ∧
      ∀ a, t.physByte a = if at_ ≤ a ∧ a < at_ + 32 then (recordBytes r).getD (a - at_) 0 else s.physByte a

/-- R46 to R50: a fetch that arrives gives its context the 64 bytes of the block at its PC and ends its wait; the completion of
an IFLUSH takes every block of its code ID out of the caches in its scope, raises its counter and frees its entry. That scope
core also reaches the cache of the core's cluster is the model's reading (log entry 16). -/
def Obligations.InstructionFetch : Prop :=
  (∀ (s : State) (k n : Nat) (c : Ctx) (tr : TlbEntry), s.args = [k, n] → s.ctx? ⟨k, n⟩ = some c → c.fetching = true →
    let at_ := c.pc.toNat / 64 * 64
    mapped s k tr 4 at_ 64 →
    ∃ t c', exec .fetchFill s = .next t ∧ t.ctx? ⟨k, n⟩ = some c' ∧ c'.fetching = false ∧ c'.pc = c.pc ∧ c'.g = c.g ∧
      c'.fetch = some ⟨c.codeId.toNat, BitVec.ofNat 64 at_,
        (List.range 64).map fun i => s.physByte (tr.physOf (at_ + i))⟩ ∧ t.dram = s.dram) ∧
  ∀ (s : State) (k n code scope : Nat) (e : Entry), s.args = [k, e.id] → hasEntry s k e → e.op = .iflush code scope →
    e.state = .sent → e.counter = some n →
    ∃ t, exec .iflushComplete s = .next t ∧ t.entry? k e.id = none ∧
      Map.get 0 (t.core k).kval n = Map.get 0 (s.core k).kval n + 1 ∧
      Map.get 0 (t.core k).kout n = Map.get 0 (s.core k).kout n - 1 ∧
      (∀ j, (t.core j).icache =
        if (scope = 0 ∧ j = k) ∨ (scope = 1 ∧ clusterOf j = clusterOf k) ∨ 2 ≤ scope
        then (s.core j).icache.filter (fun b => b.code != code) else (s.core j).icache) ∧
      ∀ g, (t.cluster g).icache =
        if 2 ≤ scope ∨ g = clusterOf k then (s.cluster g).icache.filter (fun b => b.code != code) else (s.cluster g).icache

namespace Sys2Proof.Claims

/-- An object on this device, in a name without reserved bits (R236). -/
def localObject (s : State) (o : Word) : Prop := o.toNat < 2 ^ 46 ∧ bits o.toNat 32 14 = s.plat.devid

/-- The thread has sent its request and is not ready until the answer: not a park. -/
def WaitsForHub (pc : Word) (s t : State) : Prop :=
  t.me.status = .waiting ∧ t.me.pc = pc ∧ t.me.g = s.me.g ∧ t.me.v = s.me.v ∧ t.me.xstat = s.me.xstat ∧ OnlySends s t

/-- The bindings of a partition that this device's hub keeps (R237). -/
def bindingsOf (s : State) (part : Nat) : List Binding :=
  s.hub.bindings.filter fun b => b.part == part && objectDevice b.object == s.plat.devid

/-- An answer with a status is on its way to a thread. -/
def StatusSent (a : Actor) (d q v : Nat) (t : State) : Prop :=
  ∃ f ∈ t.net, f.dst = a.core ∧ f.payload = .status a d q (BitVec.ofNat 64 v) (v == 0)

end Sys2Proof.Claims

/-- R237, R238: BIND and UNBIND send their request and wait; the hub adds or removes the binding, or answers why not; the
answer's status is written to g[d], and p[pq] tells whether it is 0. That a full set is reported before an overlap is the model's
choice (log entry 25). -/
def Sys2Proof.Claims.Bindings : Prop :=
  (∀ (s : State) (d a b q : Nat) (unbind : Bool), acts s → plainRegs s [d, a, b] → q ≠ 0 → localObject s (s.me.rg a) →
    regionOk (s.me.rg b) = true →
    ∃ t, exec (if unbind then .unbind d a b q else .bind d a b q) s = .next t ∧ WaitsForHub (s.me.pc + 4) s t ∧
      Sends .atomic s.actor.core umpireKey s.me.handle
        (.binding s.actor d q unbind (s.spaceOf s.actor.core) (s.me.rg a) (s.me.rg b)) .bindingRequest s t) ∧
  (∀ (s : State) (f : Flight) (a : Actor) (d q part : Nat) (o r : Word), s.arriving (s.arg 0) = some f →
    f.payload = .binding a d q false part o r →
    let same (b : Binding) : Prop := b.object = o ∧ sameRegion b.region r = true
    let mine := bindingsOf s part
    ((∃ b ∈ mine, same b) → ∃ t, exec .bindingRequest s = .next t ∧ t.hub = s.hub ∧ StatusSent a d q 0 t) ∧
    ((∀ b ∈ mine, ¬ same b) → 1024 ≤ mine.length →
      ∃ t, exec .bindingRequest s = .next t ∧ t.hub = s.hub ∧ StatusSent a d q 1 t) ∧
    ((∀ b ∈ mine, ¬ same b) → mine.length < 1024 → (∃ b ∈ mine, b.object ≠ o ∧ regionsMeet b.region r = true) →
      ∃ t, exec .bindingRequest s = .next t ∧ t.hub = s.hub ∧ StatusSent a d q 2 t) ∧
    ((∀ b ∈ mine, ¬ same b) → mine.length < 1024 → (∀ b ∈ mine, b.object = o ∨ regionsMeet b.region r = false) →
      ∃ t, exec .bindingRequest s = .next t ∧ t.hub.bindings = s.hub.bindings ++ [⟨part, o, r⟩] ∧ StatusSent a d q 0 t ∧
        objectExists t.hub part o = true ∧ t.cores = s.cores)) ∧
  (∀ (s : State) (f : Flight) (a : Actor) (d q part : Nat) (o r : Word), s.arriving (s.arg 0) = some f →
    f.payload = .binding a d q true part o r →
    let hit (b : Binding) : Bool := b.part == part && b.object == o && sameRegion b.region r
    (s.hub.bindings.any hit = true → ∃ t, exec .bindingRequest s = .next t ∧
      t.hub.bindings = s.hub.bindings.filter (fun b => !hit b) ∧ StatusSent a d q 0 t ∧ t.cores = s.cores) ∧
    (s.hub.bindings.any hit = false → ∃ t, exec .bindingRequest s = .next t ∧ t.hub = s.hub ∧ StatusSent a d q 1 t)) ∧
  ∀ (s : State) (f : Flight) (a : Actor) (d q : Nat) (x : Word) (ok : Bool) (c : Ctx), s.arriving (s.arg 0) = some f →
    f.payload = .status a d q x ok → s.ctx? a = some c → c.status = .waiting ∨ c.status = .parked → c.bound = false ∨ d ≠ 29 → q ≠ 0 →
    ∃ t c', exec .hubAnswer s = .next t ∧ t.ctx? a = some c' ∧ ResumesWith q ok c c' ∧
      c'.rg d = (if d = 0 then 0 else x) ∧ (∀ r, r ≠ d → c'.rg r = c.rg r) ∧ OthersOf a.core a.thread s t

/-- R239 to R241: ACQ and REL send their request and wait with the PC at the instruction; the hub grants a hold as R240 orders,
queues it, or ends it, and the release count rises by one at the end of an exclusive hold; a granted slot holds the count with
full words; a queued ACQ empties its slot and parks with reason 6 until the grant. -/
def Sys2Proof.Claims.Locks : Prop :=
  (∀ (s : State) (a b : Nat) (exclusive : Bool), acts s → plainRegs s [a, b] → localObject s (s.me.rg a) →
    lsReady s (s.me.rg b).toNat 8 →
    ∃ t, exec (if exclusive then .acqX a b else .acqS a b) s = .next t ∧ WaitsForHub s.me.pc s t ∧
      Sends .atomic s.actor.core umpireKey s.me.handle
        (.lock s.actor (s.spaceOf s.actor.core) (s.me.rg a) exclusive (s.me.rg b).toNat) .lockRequest s t) ∧
  (∀ (s : State) (a : Nat), acts s → plainRegs s [a] → localObject s (s.me.rg a) →
    (putsPending s (s.spaceOf s.actor.core) (s.me.rg a) = false → ∃ t, exec (.rel a) s = .next t ∧ WaitsForHub s.me.pc s t ∧
      Sends .atomic s.actor.core umpireKey s.me.handle (.release s.actor (s.spaceOf s.actor.core) (s.me.rg a)) .lockRelease s t) ∧
    (putsPending s (s.spaceOf s.actor.core) (s.me.rg a) = true → ∃ t, exec (.rel a) s = .next t ∧
      t.me = { s.me with readyAt := s.now + 1 } ∧ t.net = s.net ∧ OtherThreads s t)) ∧
  (∀ (s : State) (f : Flight) (a : Actor) (part slot : Nat) (o : Word) (exclusive : Bool), s.arriving (s.arg 0) = some f →
    f.payload = .lock a part o exclusive slot →
    let obj := s.object part o
    let h := (s.ctx a).handle
    let answered (ans : Nat) (count : Word) (t : State) : Prop :=
      Answers f.id .atomic umpireKey a.core 0 (.lockAnswer a ans o slot count) s t ∧ t.cores = s.cores
    (objectExists s.hub part o = false →
      ∃ t, exec .lockRequest s = .next t ∧ answered 0 0 t ∧ t.hub = s.hub) ∧
    (objectExists s.hub part o = true → (∀ x ∈ obj.holders, x.1 ≠ h) → obj.queue = [] →
      ((if exclusive then obj.holders = [] else ∀ x ∈ obj.holders, x.2 = false) → ∃ t, exec .lockRequest s = .next t ∧
        answered 1 obj.count t ∧ (t.object part o).holders = obj.holders ++ [(h, exclusive)] ∧
        (t.object part o).count = obj.count) ∧
      (¬ (if exclusive then obj.holders = [] else ∀ x ∈ obj.holders, x.2 = false) → ∃ t, exec .lockRequest s = .next t ∧
        answered 2 obj.count t ∧ (t.object part o).holders = obj.holders ∧
        (t.object part o).queue = [⟨h, a.core, exclusive, slot⟩]))) ∧
  (∀ (s : State) (f : Flight) (a : Actor) (part : Nat) (o : Word) (exclusive : Bool), s.arriving (s.arg 0) = some f →
    f.payload = .release a part o → objectExists s.hub part o = true → isBound s.hub part o = true →
    let obj := s.object part o
    (obj.holders = [((s.ctx a).handle, exclusive)] → obj.queue = [] → ∃ t, exec .lockRelease s = .next t ∧
      (t.object part o).holders = [] ∧ (t.object part o).count = obj.count + (if exclusive then 1 else 0) ∧
      Answers f.id .atomic umpireKey a.core 0 (.releaseAnswer a true o) s t ∧ t.cores = s.cores) ∧
    ((∀ x ∈ obj.holders, x.1 ≠ (s.ctx a).handle) → ∃ t, exec .lockRelease s = .next t ∧ t.hub = s.hub ∧
      Answers f.id .atomic umpireKey a.core 0 (.releaseAnswer a false o) s t ∧ t.cores = s.cores)) ∧
  (∀ (s : State) (f : Flight) (a : Actor) (slot : Nat) (o count : Word) (c : Ctx), s.arriving (s.arg 0) = some f →
    s.ctx? a = some c → c.status = .waiting →
    let granted (t : State) : Prop :=
      (∀ x, Map.get 0 (t.core a.core).ls x =
        if slot ≤ x ∧ x < slot + 8 then count.extractLsb' (8 * (x - slot)) 8 else Map.get 0 (s.core a.core).ls x) ∧
      ∀ w, slot / 4 ≤ w → w ≤ (slot + 7) / 4 → (t.core a.core).wordState w = 1
    let goesOn (t : State) : Prop := (t.ctx a).status = .running ∧ (t.ctx a).pc = c.pc + 4 ∧ (t.ctx a).g = c.g
    (f.payload = .lockAnswer a 1 o slot count → ∃ t, exec .hubAnswer s = .next t ∧ granted t ∧ goesOn t) ∧
    (f.payload = .lockAnswer a 2 o slot count → ∃ t, exec .hubAnswer s = .next t ∧ (t.ctx a).status = .parked ∧
      (t.ctx a).park = BitVec.ofNat 32 (6 + 256 * (slot % 2 ^ 24)) ∧ (t.ctx a).pc = c.pc + 4 ∧ (t.ctx a).g = c.g ∧
      (t.core a.core).ls = (s.core a.core).ls ∧
      ∀ w, slot / 4 ≤ w → w ≤ (slot + 7) / 4 → (t.core a.core).wordState w = 0) ∧
    (f.payload = .releaseAnswer a true o → ∃ t, exec .hubAnswer s = .next t ∧ goesOn t ∧
      (t.core a.core).ls = (s.core a.core).ls) ∧
    (f.payload = .releaseAnswer a false o → exec .hubAnswer s =
      .next (takeCause a (causeCode .execute .releaseNotHeld) o c.pc (s.landed f.id)))) ∧
  ∀ (s : State) (f : Flight) (a : Actor) (slot : Nat) (count : Word), s.arriving (s.arg 0) = some f →
    f.payload = .grant a slot count →
    ∃ t, exec .lockGrant s = .next t ∧
      (∀ x, Map.get 0 (t.core a.core).ls x =
        if slot ≤ x ∧ x < slot + 8 then count.extractLsb' (8 * (x - slot)) 8 else Map.get 0 (s.core a.core).ls x) ∧
      (∀ w, slot / 4 ≤ w → w ≤ (slot + 7) / 4 → (t.core a.core).wordState w = 1) ∧ OtherCores a.core s t ∧
      ∀ n c, s.ctx? ⟨a.core, n⟩ = some c → c.parkReason = 6 → bits c.park.toNat 8 24 = slot → slot % 8 = 0 →
        (s.core a.core).wordState (slot / 4) = 0 →
        ∃ c', t.ctx? ⟨a.core, n⟩ = some c' ∧ c'.status = .running ∧ c'.pc = c.pc ∧ c'.g = c.g

/-- R236 to R243: bindings and locks. -/
def Obligations.SyncObjects : Prop := Sys2Proof.Claims.Bindings ∧ Sys2Proof.Claims.Locks


namespace Sys2Proof.Claims

/-- The fences by scope (R243). -/
def fenceForms : List (Instr × Nat) := [(.fenceCore, 0), (.fenceClus, 1), (.fenceDev, 2), (.fenceDom, 3)]

/-- The remote atomics of R246 by the operation of their request, 9 the compare-and-swap. -/
def remoteForms (d a b q : Nat) : List (Instr × Nat) :=
  [(.ramoAdd d a b q, 0), (.ramoAnd d a b q, 1), (.ramoOr d a b q, 2), (.ramoXor d a b q, 3), (.ramoMin d a b q, 4),
   (.ramoMax d a b q, 5), (.ramoMinn d a b q, 6), (.ramoMaxn d a b q, 7), (.ramoSwap d a b q, 8), (.rcas d a b q, 9)]

/-- A handle names the acting thread. -/
def isMyHandle (s : State) (h : Nat) : Prop := h = s.me.handle ∨ s.ownerOf h = some s.actor

/-- An entry is in a core's queue and is the acting thread's. -/
def isMyEntry (s : State) (e : Entry) : Prop := (∃ c ∈ s.cores, e ∈ c.2.entries) ∧ isMyHandle s e.owner

/-- An entry is an RPUT or KADD to core `d` of this device. -/
def goesToCore (s : State) (e : Entry) (d : Nat) : Prop :=
  (∃ len full, e.op = .rput len full ∧ winDevice e.rem.toNat = s.plat.devid ∧ winCore e.rem.toNat = some d) ∨
    ∃ v, e.op = .kadd v ∧ nameDevice e.rem.toNat = s.plat.devid ∧ nameCore e.rem.toNat = some d

/-- The operations of R243 with a home in memory: PUT, PUTS, GAMO and TIERPF. -/
def hasHome : CopyOp → Prop
  | .put _ | .puts .. | .gamo .. | .tierpf .. => True
  | _ => False

/-- The home of some page of an entry is on this device, or its translation has not yet been made. -/
def mayBeHomedHere (s : State) (e : Entry) : Prop :=
  ∃ x ∈ remoteRanges e, ∃ va ∈ pageSpots x, ∀ t,
    s.cached (clusterOf s.actor.core) (s.spaceOf s.actor.core) va = some t → t.device = s.plat.devid

/-- The acting thread has an operation that a fence of this scope waits for, by the rows of R243: 0 .core, 1 .clus, 2 .dev,
3 .dom. -/
def fenced (s : State) (scope : Nat) : Prop :=
  (∃ c ∈ s.cores, ∃ f ∈ c.2.prints, isMyHandle s f.owner) ∨
  (∃ e, isMyEntry s e ∧
    ((scope = 1 ∧ ∃ d, goesToCore s e d ∧ clusterOf d = clusterOf s.actor.core) ∨
      (scope = 2 ∧ ((∃ d, goesToCore s e d) ∨ (hasHome e.op ∧ mayBeHomedHere s e))) ∨ scope = 3)) ∨
  ∃ u ∈ s.me.unacked,
    (scope = 1 ∧ u.dest < elsewhere ∧ clusterOf u.dest = clusterOf s.actor.core) ∨ (scope = 2 ∧ u.dest < elsewhere) ∨ scope = 3

/-- The entries of R244's first class. -/
def isGetOp : CopyOp → Bool
  | .get _ | .gets .. | .tierpf .. => true
  | _ => false

/-- The entries of R244's second class. -/
def isPutOp : CopyOp → Bool
  | .put _ | .puts .. => true
  | _ => false

/-- How many operations of R244's class `i` the acting thread has: gets, puts, tile operations, remote operations. -/
def classCount (s : State) (i : Nat) : Nat :=
  let mine (h : Nat) : Bool := h == s.me.handle || s.ownerOf h == some s.actor
  let entries := (s.cores.flatMap fun c => c.2.entries).filter fun e => mine e.owner
  match i with
  | 0 => (entries.filter fun e => isGetOp e.op).length
  | 1 => (entries.filter fun e => isPutOp e.op).length
  | 2 => ((s.cores.flatMap fun c => c.2.prints).filter fun f => f.tile && mine f.owner).length
  | _ => s.me.unacked.length

end Sys2Proof.Claims

/-- R243 to R245: a FENCE completes, and its context fetches afresh, once no earlier operation in its scope is in flight, and is
not ready until then; WAITN likewise for its four classes; WAITC completes when VALUE minus its operand is not negative as a
signed 32-bit number, and parks with reason 2 until then. (That neither waits for a held PUT of the thread's task is the model's
choice, log entry 24: R356 says so of WAITN alone.) -/
def Obligations.FencesAndWaits : Prop :=
  (∀ s : State, ∀ f ∈ fenceForms,
    (¬ fenced s f.2 → ∃ t, exec f.1 s = .next t ∧ Completed 4 4 s t ∧ OnlyThread s t ∧
      t.me = { s.me with fetch := none, pc := t.me.pc, readyAt := t.me.readyAt, wait := t.me.wait }) ∧
    (fenced s f.2 → ∃ t, exec f.1 s = .next t ∧ t.me = { s.me with readyAt := s.now + 1 } ∧ OtherThreads s t ∧
      OtherCores s.actor.core s t)) ∧
  (∀ (s : State) (a : Nat), plainRegs s [a] → (s.me.rg a).toNat < 2 ^ 32 →
    let limit (i : Nat) : Nat := (s.me.rg a).toNat / 2 ^ (8 * i) % 2 ^ 8
    let above := ∃ i < 4, limit i < 32 ∧ limit i < classCount s i
    (¬ above → ∃ t, exec (.waitn a) s = .next t ∧ NoResult (s.me.pc + 4) 4 s t) ∧
    (above → ∃ t, exec (.waitn a) s = .next t ∧ t.me = { s.me with readyAt := s.now + 1 } ∧ OtherThreads s t ∧
      OtherCores s.actor.core s t)) ∧
  ∀ (s : State) (k r : Nat), plainRegs s [r] →
    let left := (Map.get 0 s.here.kval k - (s.me.rg r).setWidth 32).toInt
    (0 ≤ left → ∃ t, exec (.waitc k r) s = .next t ∧ NoResult (s.me.pc + 4) 4 s t) ∧
    (left < 0 → ∃ t, exec (.waitc k r) s = .next t ∧
      t.me = { s.me with status := .parked, park := BitVec.ofNat 32 (2 + 256 * k), readyAt := s.now + 4 } ∧ OtherThreads s t ∧
      OtherCores s.actor.core s t)

/-- R246, R247: RAMO and RCAS send their request and park; the bank performs it as one operation on its bytes and answers with the old
value; the reply writes it, sign-extended for 32 bits, and ends the park; an issuer still parked after 2^22 cycles sends a
cancel; a cancelled request is discarded, and REMOTE_ATOMIC_TIMEOUT is pending with g[d] unchanged, or LS_UNCORRECTABLE with the window
as its value. A request to another device is in flight, and its time counts, likewise (when it acts there is open, log entry 7). -/
def Obligations.RemoteAtomics : Prop :=
  (∀ (s : State) (d a b q : Nat), acts s → plainRegs s [d, a, b] → q ∈ [2, 3, 6, 7] →
    let w := (s.me.rg a).toNat
    let n := if q % 4 = 3 then 8 else 4
    w < 2 ^ 48 → winDevice w ≠ s.plat.devid → (winCore w).isSome = true → remoteFailure s (winDevice w) = none →
    s.linkAllowed (s.spaceOf s.actor.core) = true → winOffset w + n ≤ winLimit w → winOffset w % n = 0 →
    ∀ f ∈ remoteForms d a b q, ∃ (t : State) (x : Flight) (u : Nat × Nat) (due : Nat), exec f.1 s = .next t ∧
      t.me = { s.me with
        status := .parked, park := 9, pc := s.me.pc + 4, readyAt := t.me.readyAt, wait := none,
        timeoutAt := some (s.now + 2 ^ 22) } ∧ t.net = s.net ++ [x] ∧ x.dst = elsewhere + winDevice w ∧ x.src = s.actor.core ∧
      x.payload = .atomic s.actor d f.2 (n == 8) (decide (4 ≤ q)) (winOffset w) u.1 u.2 (s.me.rg a) ∧
      t.agenda = s.agenda ++ [⟨s.now + 2 ^ 22, .remoteAtomicCancel, [s.actor.core, s.actor.thread]⟩,
        ⟨due, .remoteAtomicPerform, [x.id]⟩] ∧ s.now ≤ due) ∧
  (∀ (s : State) (d a b q k : Nat), acts s → plainRegs s [d, a, b] → q ∈ [2, 3, 6, 7] →
    let w := (s.me.rg a).toNat
    let n := if q % 4 = 3 then 8 else 4
    w < 2 ^ 48 → winDevice w = s.plat.devid → winCore w = some k → k ≠ s.actor.core → s.mayName s.actor.core k = true →
    winOffset w + n ≤ winLimit w → winOffset w % n = 0 →
    ∀ f ∈ remoteForms d a b q, ∃ t, exec f.1 s = .next t ∧
      t.me = { s.me with
        status := .parked, park := 9, pc := s.me.pc + 4, readyAt := t.me.readyAt, wait := none,
        timeoutAt := some (s.now + 2 ^ 22) } ∧ OnlySends s t ∧
      t.net = s.net ++ [⟨s.ids, .atomic, s.actor.core, k, s.me.handle, .atomic s.actor d f.2 (n == 8) (decide (4 ≤ q))
        (winOffset w) ((s.me.rg b).toNat % 2 ^ (8 * n)) (if f.2 = 9 then (s.me.rg d).toNat % 2 ^ (8 * n) else 0) (s.me.rg a),
        s.me.eff⟩] ∧
      t.agenda = s.agenda ++ [⟨s.now + 2 ^ 22, .remoteAtomicCancel, [s.actor.core, s.actor.thread]⟩,
        ⟨s.now, .remoteAtomicPerform, [s.ids]⟩]) ∧
  (∀ (s : State) (f : Flight) (a : Actor) (d q n off : Nat) (old x e : Word) (full : Bool) (name : Word),
    n = (if q % 4 = 3 then 8 else 4) → s.arriving (s.arg 0) = some f → f.dst < elsewhere → lsSound s f.dst off n → off % n = 0 →
    (∀ i < 64, old.getLsbD i = (decide (i < 8 * n) && (Map.get 0 (s.core f.dst).ls (off + i / 8)).getLsbD (i % 8))) →
    x.toNat < 2 ^ (8 * n) → e.toNat < 2 ^ (8 * n) →
    let performs (new : Word) (writes : Bool) (t : State) : Prop :=
      Answers f.id .atomic f.dst a.core 0 (.atomicReply a d (n == 8) 0 old.toNat name) s t ∧ OtherCores f.dst s t ∧
      (∀ y, Map.get 0 (t.core f.dst).ls y = if writes = true ∧ off ≤ y ∧ y < off + n then new.extractLsb' (8 * (y - off)) 8
        else Map.get 0 (s.core f.dst).ls y) ∧
      ∀ w, (t.core f.dst).wordState w =
        if writes = true ∧ full = true ∧ off / 4 ≤ w ∧ w < off / 4 + n / 4 then 1 else (s.core f.dst).wordState w
    (∀ i < 9, ∀ g ∈ (atomicForms d 0 0 q n old x)[i]?,
      f.payload = .atomic a d i (n == 8) full off x.toNat 0 name →
      ∃ t, exec .remoteAtomicPerform s = .next t ∧ performs g.2 true t) ∧
    (f.payload = .atomic a d 9 (n == 8) full off x.toNat e.toNat name →
      ∃ t, exec .remoteAtomicPerform s = .next t ∧ performs x (old == e) t)) ∧
  (∀ (s : State) (f : Flight) (a : Actor) (d old : Nat) (wide : Bool) (name : Word) (c : Ctx), s.arriving (s.arg 0) = some f →
    s.ctx? a = some c → c.status = .parked → c.bound = false ∨ d ≠ 29 → old < (if wide then 2 ^ 64 else 2 ^ 32) →
    (f.payload = .atomicReply a d wide 0 old name → ∃ t c', exec .remoteAtomicReply s = .next t ∧ t.ctx? a = some c' ∧
      c'.status = .running ∧ c'.pc = c.pc ∧ c'.timeoutAt = none ∧ OthersOf a.core a.thread s t ∧
      c'.rg d = (if d = 0 then 0 else if wide then BitVec.ofNat 64 old else (BitVec.ofNat 32 old).signExtend 64) ∧
      ∀ r, r ≠ d → c'.rg r = c.rg r) ∧
    ∀ x ∈ [(1, Reason.remoteAtomicTimeout), (2, .lsUncorrectable)], f.payload = .atomicReply a d wide x.1 old name →
      s.ownerOf c.handle = some a → c.pend.length < 4 →
      ∃ t c' v, exec .remoteAtomicReply s = .next t ∧ t.ctx? a = some c' ∧ c'.status = .running ∧ c'.pc = c.pc ∧ c'.g = c.g ∧
        c'.pend = c.pend ++ [⟨causeCode .remote x.2, v, 2, 0⟩] ∧ (x.1 = 2 → v = name) ∧ OthersOf a.core a.thread s t) ∧
  (∀ (s : State) (a : Actor) (c : Ctx) (due : Nat) (f : Flight), s.args = [a.core, a.thread] → s.ctx? a = some c →
    c.parkReason = 9 → c.timeoutAt = some due → due ≤ s.now → unperformed s a = some f →
    ∃ t, exec .remoteAtomicCancel s = .next t ∧ t.net = s.net ++ [⟨s.ids, .atomic, a.core, f.dst, c.handle, .cancel a, c.eff⟩] ∧
      t.ctx? a = some { c with timeoutAt := none } ∧ OthersOf a.core a.thread s t) ∧
  ∀ (s : State) (f r : Flight) (a : Actor) (d op off b e : Nat) (wide full : Bool) (name : Word),
    s.net.find? (fun f => f.id == s.arg 0) = some f → f.payload = .cancel a → unperformed (s.landed f.id) a = some r →
    r.payload = .atomic a d op wide full off b e name → f.dst < elsewhere ∨ s.linkAllowed (s.spaceOf f.src) = true →
    ∃ t, exec .cancelAtTarget s = .next t ∧ t.cores = s.cores ∧
      t.net = ((s.net.filter fun x => x.id != f.id).filter fun x => x.id != r.id) ++
        [⟨s.ids, .atomic, f.dst, a.core, 0, .atomicReply a d wide 1 0 name, (s.ctx a).eff⟩]

namespace Sys2Proof.Claims

/-! ### The matrix engine -/

/-- The acting thread of a compute core may use the engine at once: no field names a bound channel and the engine is not frozen. -/
def mayMatrix (s : State) (fields : List Nat) : Prop := plainRegs s fields ∧ isHub s.actor.core = false ∧ s.here.frozen = false

/-- The instruction completed and left work to the engine, which is now `e`: `prints`, under the running number, entered the
hazard unit, and nothing else changed but the steps made due and the running number. -/
def EngineTakes (occ : Nat) (e : Engine) (prints : List Footprint) (s t : State) : Prop :=
  Completed 4 occ s t ∧ CtxKept s t ∧ t.here.eng = e ∧ (∀ f ∈ prints, f ∈ t.here.prints) ∧
    t.here.prints.filter (fun f => f.id != s.ids) = s.here.prints.filter (fun f => f.id != s.ids) ∧ t.ids = s.ids + 1 ∧
    t = { s with cores := t.cores, ids := t.ids, agenda := t.agenda } ∧ OtherCores s.actor.core s t ∧ OtherThreads s t ∧
    t.here = { s.here with
      eng := t.here.eng, prints := t.here.prints, threads := t.here.threads, instret := t.here.instret,
      lastSlot := t.here.lastSlot, nextIssue := t.here.nextIssue }

/-- A device step of core `k`'s engine, which is now `e`: outside the core nothing changed but the steps made due. -/
def EngineActs (k : Nat) (e : Engine) (s t : State) : Prop :=
  (t.core k).eng = e ∧ (t.core k).threads = (s.core k).threads ∧ t = { s with cores := t.cores, agenda := t.agenda } ∧
    OtherCores k s t

/-- The word of row `r`, column `c` of accumulator plane `p` of core `k`. -/
def accWord (s : State) (k p r c : Nat) : Nat := (s.core k).eng.word p r c

/-- The accumulator row (p, r) holds `f` by column, every other row of the eight planes is as it was, and a row is poisoned as
before but for row r of `clean`. -/
def WritesRow (k p r : Nat) (f : Nat → Nat) (s t : State) : Prop :=
  ∀ c < 32, accWord t k p r c = f c % 2 ^ 32 ∧ (t.core k).eng.isPoisoned p r = false ∧
    ∀ p' r', r' < 32 → ¬ (p' = p ∧ r' = r) →
      accWord t k p' r' c = accWord s k p' r' c ∧ (t.core k).eng.isPoisoned p' r' = (s.core k).eng.isPoisoned p' r'

/-- The streaming instructions by kind (R265). -/
def streamForms (d a b q : Nat) : List (Instr × Nat) := [(.mstream d a b q, 0), (.mstreams d a b q, 1), (.mstreamd d a b q, 2)]

end Sys2Proof.Claims

/-- R265 to R280: MLDW, MSWAP and MCOMP give the weight loader and the engine queue their work; the loader reads an image
into the plane that is not active and the swap makes it active; a stream reads its rows against the active plane; the array
adds each row's products to its accumulator row with one rounding, or fused one after the other for D64, and clears its poison;
the compressed image is written to the local store. -/
def Obligations.MatrixStreams : Prop :=
  (∀ (s : State) (a q : Nat), mayMatrix s [a] →
    let w := s.me.re q
    let base := (s.me.rg a).toNat
    let size := imageSize w
    descFault (streamKind w) w = none → base % 64 = 0 → base + size ≤ lsLimit s.actor.core → s.here.eng.loads.length < 2 →
    s.here.eng.queue = [] → engineWaits s.here [run base size] [] = false →
    ∃ t, exec (.mldw a q) s = .next t ∧ EngineTakes 4
      { s.here.eng with loads := s.here.eng.loads ++ [.weights s.ids s.me.handle base w []] }
      [⟨s.ids, s.me.handle, [run base size], [], false, false, true⟩] s t) ∧
  (∀ (s : State) (k id o base : Nat) (w : Word) (rest : List Load), s.args = [k] → (s.core k).frozen = false →
    let e := (s.core k).eng
    e.loads = .weights id o base w [] :: rest → (∀ r ∈ e.rows, r.plane ≠ 1 - e.active) → sparsityOf w = 0 →
    lsSound s k base (imageSize w) →
    ∃ t, exec .weightLoad s = .next t ∧ EngineActs k { e.setPlane (1 - e.active) {
        values := getBytes (s.core k).ls base (valuesSize w)
        index := []
        scales := getBytes (s.core k).ls (base + valuesSize w) (32 * columnScales w)
        state := .loaded
        format := weightFormat w
        scaled := weightScaled w
        sparsity := 0 } with loads := rest } s t ∧ (t.core k).ls = (s.core k).ls) ∧
  (∀ s : State, mayMatrix s [] → s.here.eng.queue.length < 8 → s.here.eng.loads = [] →
    ∃ t, exec .mswap s = .next t ∧ EngineTakes 4
      { s.here.eng with queue := s.here.eng.queue ++ [⟨s.ids, s.me.handle, .swap []⟩] } [] s t) ∧
  (∀ (s : State) (k id o : Nat) (loads : List Nat) (rest : List EngineEntry), s.args = [k] → (s.core k).frozen = false →
    (s.core k).eng.queue = ⟨id, o, .swap loads⟩ :: rest → (s.core k).eng.loads = [] →
    ∃ t, exec .planeSwap s = .next t ∧
      EngineActs k { (s.core k).eng with active := 1 - (s.core k).eng.active, queue := rest } s t) ∧
  (∀ (s : State) (d a b q : Nat), mayMatrix s [a, b] → s.here.eng.queue = [] →
    let w := s.me.re q
    let ab := (s.me.rg a).toNat
    let ctl := (s.me.rg b).toNat
    let sbase := ctl % 2 ^ 18
    let start := ctl / 2 ^ 24 % 2 ^ 5
    let n := descRows w - start
    let p := s.here.eng.plane s.here.eng.active
    ∀ f ∈ streamForms d a b q,
      let elems : Bytes := ⟨ab + start * rowPitch w, rowBytes w, rowPitch w, n⟩
      let scales := if rowScales w = 0 then [] else [run (sbase + start * rowScales w) (n * rowScales w)]
      descFault f.2 w = none → (f.2 = 2 → d % 2 = 0) → streamReserved f.2 (s.me.rg b) = false → start < descRows w →
      ab % 16 = 0 → ab + (descRows w - 1) * rowPitch w + rowBytes w ≤ lsLimit s.actor.core →
      (rowScales w ≠ 0 → sbase + descRows w * rowScales w ≤ lsLimit s.actor.core) →
      engineWaits s.here (elems :: scales) [] = false →
      (∀ r ∈ s.here.eng.rows, r.d ∉ planesOf d (f.2 == 2) ∧ (r.double = true → r.d + 1 ∉ planesOf d (f.2 == 2))) →
      p.state = .loaded → p.format = weightFormat w → p.scaled = weightScaled w → p.sparsity = sparsityOf w →
      (∀ x, s.here.lsBad.contains x = false ∧ s.here.lsSingle.contains x = false) →
      ∃ t, exec f.1 s = .next t ∧ EngineTakes (4 + n * rowCycles w (f.2 == 2))
        { s.here.eng with rows := s.here.eng.rows ++ (List.range n).map fun i => {
            d := d, row := start + i, half := ctl / 2 ^ 29 % 2, double := f.2 == 2, desc := w, plane := s.here.eng.active,
            acts := getBytes s.here.ls (ab + (start + i) * rowPitch w) (rowBytes w),
            scales := getBytes s.here.ls (sbase + (start + i) * rowScales w) (rowScales w) } }
        [⟨s.ids, s.me.handle, elems :: scales, [], true, false, true⟩] s t) ∧
  (∀ (s : State) (k : Nat) (r : StreamRow) (rest : List StreamRow), s.args = [k] → (s.core k).frozen = false →
    (s.core k).eng.rows = r :: rest → r.row < 32 →
    let p := (s.core k).eng.plane r.plane
    (r.double = false → ∃ t, exec .streamRowWrite s = .next t ∧ (t.core k).eng.rows = rest ∧ OtherCores k s t ∧
      WritesRow k r.d r.row (fun c =>
        exactSum (decodeFloat 9 (accWord s k r.d r.row c) :: columnTerms r.desc p (rowActs r.desc r.acts r.scales) c)) s t) ∧
    (r.double = true → r.half < 2 → ∃ t, exec .streamRowWrite s = .next t ∧ (t.core k).eng.rows = rest ∧ OtherCores k s t ∧
      ∀ c < 32, accWord t k r.d r.row c + 2 ^ 32 * accWord t k (r.d + 1) r.row c =
        let old := accWord s k r.d r.row c + 2 ^ 32 * accWord s k (r.d + 1) r.row c
        if 16 * r.half ≤ c ∧ c < 16 * r.half + 16 then
          fmaChain (natOfBytes r.acts) (natOfBytes ((p.values.drop ((c - 16 * r.half) * 128)).take 128)) 16 0 old % 2 ^ 64
        else old)) ∧
  (∀ (s : State) (a b q : Nat), mayMatrix s [a, b] → s.here.eng.loads = [] → s.here.eng.queue = [] →
    let w := s.me.re q
    let src := (s.me.rg a).toNat
    let dst := (s.me.rg b).toNat
    let size := 64 * recordSize (weightFormat w) + 32 * columnScales w
    descFault (streamKind w) w = none → sparsityOf w = 1 → src % 64 = 0 → dst % 64 = 0 →
    src + size ≤ lsLimit s.actor.core → dst + imageSize w ≤ lsLimit s.actor.core →
    (run src size).meets (run dst (imageSize w)) = false → engineWaits s.here [run src size] [run dst (imageSize w)] = false →
    (∀ x, s.here.lsBad.contains x = false ∧ s.here.lsSingle.contains x = false) →
    ∃ t, exec (.mcomp a b q) s = .next t ∧ EngineTakes (4 + size / 64)
      { s.here.eng with loads := [.compress s.ids s.me.handle src dst w
          (some (compressImage w (getBytes s.here.ls src size))) false] }
      [⟨s.ids, s.me.handle, [run src size], [run dst (imageSize w)], true, false, true⟩] s t) ∧
  ∀ (s : State) (k id o src dst : Nat) (w : Word) (im : List Byte) (held : Bool) (rest : List Load), s.args = [k] →
    (s.core k).frozen = false → (s.core k).eng.loads = .compress id o src dst w (some im) held :: rest →
    lsSound s k dst im.length →
    ∃ t, exec .weightCompress s = .next t ∧ EngineActs k { (s.core k).eng with loads := rest } s t ∧
      ∀ x, Map.get 0 (t.core k).ls x =
        if dst ≤ x ∧ x < dst + im.length then im.getD (x - dst) 0 else Map.get 0 (s.core k).ls x

/-- R281 to R283: AZERO and AMOVE enter the queue and zero or copy a plane with its poison; ALDR loads accumulator rows from the
local store and clears their poison; ASTR and AOUT copy rows as they are or converted, and the copy is written to the local
store; a poisoned row raises ACC_POISONED, which names it. -/
def Obligations.Accumulators : Prop :=
  (∀ (s : State) (d a : Nat), mayMatrix s [] → s.here.eng.queue.length < 8 →
    ∀ f ∈ [(Instr.azero d, EngineOp.zero d), (.amove d a, .move d a)],
      ∃ t, exec f.1 s = .next t ∧ EngineTakes 4
        { s.here.eng with queue := s.here.eng.queue ++ [⟨s.ids, s.me.handle, f.2⟩] } [] s t) ∧
  (∀ (s : State) (k id o d a : Nat) (rest : List EngineEntry), s.args = [k] → (s.core k).frozen = false →
    let e := (s.core k).eng
    (∀ r ∈ e.rows, r.d ≠ d ∧ r.d ≠ a ∧ (r.double = true → r.d + 1 ≠ d ∧ r.d + 1 ≠ a)) →
    let planes (f : Nat → Nat → Nat) (g : Nat → Bool) (t : State) : Prop :=
      (t.core k).eng.queue = rest ∧ OtherCores k s t ∧ ∀ r < 32, ∀ c < 32,
        accWord t k d r c = f r c ∧ (t.core k).eng.isPoisoned d r = g r ∧
        ∀ p, p ≠ d → accWord t k p r c = accWord s k p r c ∧ (t.core k).eng.isPoisoned p r = e.isPoisoned p r
    (e.queue = ⟨id, o, .zero d⟩ :: rest → ∃ t, exec .azeroAmoveAtHead s = .next t ∧
      planes (fun _ _ => 0) (fun _ => false) t) ∧
    (e.queue = ⟨id, o, .move d a⟩ :: rest → ∃ t, exec .azeroAmoveAtHead s = .next t ∧
      planes (fun r c => accWord s k a r c) (fun r => e.isPoisoned a r) t)) ∧
  (∀ (s : State) (d a b : Nat), mayMatrix s [a, b] → s.here.eng.queue = [] → s.here.eng.rows = [] →
    (∀ x, s.here.lsBad.contains x = false ∧ s.here.lsSingle.contains x = false) →
    let x := (s.me.rg a).toNat
    let w := s.me.rg b
    let first := w.toNat % 2 ^ 5
    let n := w.toNat / 2 ^ 5 % 2 ^ 5 + 1
    let pair := w.getLsbD 10
    let size := if pair then 256 else 128
    first + n ≤ 32 → x % 16 = 0 → (pair = true → d % 2 = 0) →
    (w.toNat < 2 ^ 11 → x + n * size ≤ lsLimit s.actor.core →
      (engineWaits s.here [run x (n * size)] [] = false → ∃ t, exec (.aldr d a b) s = .next t ∧
        Completed 4 (4 + n * size / 64) s t ∧ CtxKept s t ∧ t.here.ls = s.here.ls ∧ t.here.eng.queue = [] ∧
        ∀ i < n, ∀ c < 32, t.here.eng.isPoisoned d (first + i) = false ∧
          if pair then t.here.eng.pairElem d (first + i) c = readBytes s.here.ls (x + i * 256 + 8 * c) 8
          else accWord t s.actor.core d (first + i) c = readBytes s.here.ls (x + i * 128 + 4 * c) 4) ∧
      (engineWaits s.here [] [run x (n * size)] = false →
        (∀ i < n, s.here.eng.isPoisoned d (first + i) = false ∧ (pair = true → s.here.eng.isPoisoned (d + 1) (first + i) = false)) →
        ∃ t, exec (.astr d a b) s = .next t ∧ EngineTakes (4 + n)
          { s.here.eng with outs := s.here.eng.outs ++ [⟨s.ids, s.me.handle, x,
              (List.range n).flatMap fun i => rowOf d pair s.here.eng (first + i)⟩] }
          [⟨s.ids, s.me.handle, [], [run x (n * size)], false, false, true⟩] s t) ∧
      ∀ r, engineWaits s.here [] [run x (n * size)] = false → s.here.eng.isPoisoned d (first + r) = true → r < n → pair = false →
        (∀ i < r, s.here.eng.isPoisoned d (first + i) = false) →
        ∃ t u, exec (.astr d a b) s = .next t ∧ t = trapE .accPoisoned (BitVec.ofNat 64 (d + 2 ^ 3 * (first + r))) u ∧
          u.me = { s.me with wait := none } ∧ u.here.ls = s.here.ls ∧ u.here.eng = s.here.eng) ∧
    let outSize := 32 * (typeBits ((elemType (outFormat w)).getD 9) / 8)
    (bits w.toNat 12 4 = 0 → w.toNat < 2 ^ 30 → isFormat (outFormat w) = true → outAllowed w = true →
      x + n * outSize ≤ lsLimit s.actor.core → engineWaits s.here [] [run x (n * outSize)] = false →
      (∀ i < n, s.here.eng.isPoisoned d (first + i) = false ∧ (pair = true → s.here.eng.isPoisoned (d + 1) (first + i) = false)) →
      ∃ t, exec (.aout d a b) s = .next t ∧ EngineTakes (4 + n)
        { s.here.eng with outs := s.here.eng.outs ++ [⟨s.ids, s.me.handle, x,
            (List.range n).flatMap fun i => outRow d w s.here.eng (first + i)⟩] }
        [⟨s.ids, s.me.handle, [], [run x (n * outSize)], false, false, true⟩] s t)) ∧
  ∀ (s : State) (k : Nat) (o : WriteOut) (rest : List WriteOut), s.args = [k] → (s.core k).frozen = false →
    (s.core k).eng.outs = o :: rest → lsSound s k o.addr o.bytes.length →
    ∃ t, exec .accumulatorWriteOut s = .next t ∧ EngineActs k { (s.core k).eng with outs := rest } s t ∧
      ∀ x, Map.get 0 (t.core k).ls x =
        if o.addr ≤ x ∧ x < o.addr + o.bytes.length then o.bytes.getD (x - o.addr) 0 else Map.get 0 (s.core k).ls x

namespace Sys2Proof.Claims

/-- The transforms that hold their context until the head of the queue (R296), by the number of their operation. -/
def holdForms (d a b : Nat) : List (Instr × Nat × Nat) :=
  [(.fbrev d b, 0, 0), (.fpass d b, 1, 0), (.ftwm d b, 3, 0), (.fcmul d a b, 4, a)]

/-- Element `j` of the complex layout at base plane `d` (R290): a real code and an imaginary code, 16 elements a row. -/
def pointOf (s : State) (k d j : Nat) : Cx :=
  (accWord s k (d + j / 512) (j % 512 / 16) (2 * (j % 16)), accWord s k (d + j / 512) (j % 512 / 16) (2 * (j % 16) + 1))

end Sys2Proof.Claims

/-- R290 to R302: a transform with a legal control word enters the engine queue; at its turn FBREV permutes the points of its
layout, FPASS performs one pass, FTWG writes twiddles, FTWM multiplies by them, and FCMUL multiplies two layouts; each
point is written once, from the points before, and no other accumulator word changes. -/
def Obligations.Transforms : Prop :=
  (∀ (s : State) (d a b : Nat), mayMatrix s [b] →
    let w := s.me.rg b
    let legal (fn a : Nat) : Prop :=
      xfBadSize fn w = false ∧ d % layoutPlanes (xfM w) = 0 ∧ (fn = 4 → a % layoutPlanes (xfM w) = 0)
    (legal 2 0 → s.here.eng.queue.length < 8 → ∃ t, exec (.ftwg d b) s = .next t ∧ EngineTakes 4
      { s.here.eng with queue := s.here.eng.queue ++ [⟨s.ids, s.me.handle, .xform 2 d 0 w⟩] } [] s t) ∧
    ∀ f ∈ holdForms d a b, legal f.2.1 f.2.2 → s.here.eng.queue = [] → s.here.eng.rows = [] →
      (∀ p ∈ xfPlanes f.2.1 d f.2.2 (xfM w), ∀ r < layoutRows (xfM w), s.here.eng.isPoisoned p r = false) →
      ∃ t, exec f.1 s = .next t ∧ EngineTakes 4
        { s.here.eng with queue := [⟨s.ids, s.me.handle, .xform f.2.1 d f.2.2 w⟩] } [] s t) ∧
  ∀ (s : State) (k id o fn d a : Nat) (w : Word) (rest : List EngineEntry), s.args = [k] → (s.core k).frozen = false →
    (s.core k).eng.queue = ⟨id, o, .xform fn d a w⟩ :: rest → (s.core k).eng.rows = [] → fn < 5 →
    let m := xfM w
    let x (j : Nat) : Cx := pointOf s k d j
    let y (j : Nat) : Cx := pointOf s k a j
    let f (j : Nat) : Cx :=
      if fn = 0 then x (bitRev m j)
      else if fn = 1 then (if xfRad4 w then radix4 w x j else radix2 w x j)
      else if fn = 2 then twiddle (xfInv w) ((xfE0 w + j * xfStep w) % 2 ^ xfMt w) (xfMt w)
      else if fn = 3 then mulTw (xfInv w) (xfE0 w * j) (xfMt w) (x j)
      else mulCx (x j) (if xfInv w then ((y j).1, flipCode (y j).2) else y j)
    ∃ t, exec .transformExecute s = .next t ∧ (t.core k).eng.queue = rest ∧ OtherCores k s t ∧
      (t.core k).ls = (s.core k).ls ∧ (∀ j < 2 ^ m, pointOf t k d j = ((f j).1 % 2 ^ 32, (f j).2 % 2 ^ 32)) ∧
      ∀ p r c, r < 32 → c < 32 → (∀ j < 2 ^ m, p ≠ d + j / 512 ∨ r ≠ j % 512 / 16 ∨ c / 2 ≠ j % 16) →
        accWord t k p r c = accWord s k p r c

/-- R309 to R316: CHBIND binds its directions, keeping g28 and g29 while bound and giving them back; ENQ and DEQ move one value
or report that they cannot; CHWM returns a channel's status and may set its watermarks; an arriving value joins its channel, which
throttles above HI; a returning credit may be spent again; threads that wait on one another's channels in a cycle for 2^20
cycles receive CHANNEL_DEADLOCK. -/
def Sys2Proof.Claims.Channels : Prop :=
  (∀ (s : State) (u v : Nat), acts s → isHub s.actor.core = false → u ≤ 4 → v ≤ 4 → bindFault s u v = none →
    ∃ t, exec (.chbind u v) s = .next t ∧ t.me.bindU = u ∧ t.me.bindV = v ∧ Completed 4 8 s t ∧
      (∀ r, r ≠ 28 → r ≠ 29 → t.me.rg r = s.me.rg r) ∧
      (s.me.bound = false → (u ≠ 4 ∨ v ≠ 4) → t.me.held28 = s.me.rg 28 ∧ t.me.held29 = s.me.rg 29) ∧
      (s.me.bound = true → u = 4 → v = 4 → t.me.rg 28 = s.me.held28 ∧ t.me.rg 29 = s.me.held29) ∧
      OtherCores s.actor.core s t ∧ t.here.ls = s.here.ls) ∧
  (∀ (s : State) (a q n : Nat), acts s → isHub s.actor.core = false → q ≠ 0 → s.me.bindV < 4 → a ≠ 28 → a ≠ 29 →
    neighbour s.actor.core s.me.bindV = some n →
    (s.here.creditsLeft s.me.bindV ≠ 0 → ∃ t, exec (.enq a q) s = .next t ∧ t.me.rp q = okMask true ∧ Completed 4 4 s t ∧
      t.me.g = s.me.g ∧ t.here.creditsLeft s.me.bindV = s.here.creditsLeft s.me.bindV - 1 ∧
      t.net = s.net ++ [⟨s.ids, .channel, s.actor.core, n, 0, .push (opposite s.me.bindV) (s.me.rg a), s.me.eff⟩] ∧
      OtherThreads s t ∧ OtherCores s.actor.core s t) ∧
    (s.here.creditsLeft s.me.bindV = 0 → ∃ t, exec (.enq a q) s = .next t ∧ t.me.rp q = okMask false ∧ Completed 4 4 s t ∧
      t.me.g = s.me.g ∧ OnlyThread s t)) ∧
  (∀ (s : State) (d q : Nat), acts s → isHub s.actor.core = false → q ≠ 0 → s.me.bindU < 4 → d ≠ 28 → d ≠ 29 →
    let ch := s.here.chan s.me.bindU
    ch.reserved = none →
    (∀ x rest, ch.values = x :: rest → ∃ t, exec (.deq d q) s = .next t ∧ WritesG d x s t ∧ t.me.rp q = okMask true ∧
      Completed 4 4 s t ∧ (t.here.chan s.me.bindU).values = rest ∧ t.here.ls = s.here.ls) ∧
    (ch.values = [] → ∃ t, exec (.deq d q) s = .next t ∧ t.me.rp q = okMask false ∧ t.me.g = s.me.g ∧ Completed 4 4 s t ∧
      OnlyThread s t)) ∧
  (∀ (s : State) (d a c : Nat), acts s → isHub s.actor.core = false → plainRegs s [d, a] → c < 4 →
    chwmOk (s.me.rg a).toNat = true →
    let ch := s.here.chan c
    ∃ t, exec (.chwm d a c) s = .next t ∧ Completed 4 4 s t ∧
      WritesG d (BitVec.ofNat 64 (ch.values.length + 2 ^ 8 * ch.lo + 2 ^ 16 * ch.hi + (if ch.throttle then 2 ^ 23 else 0))) s t ∧
      (t.here.chan c).values = ch.values ∧ (∀ u, u ≠ c → t.here.chan u = s.here.chan u) ∧
      if (s.me.rg a).getLsbD 31 then
        (t.here.chan c).lo = (s.me.rg a).toNat / 2 ^ 8 % 2 ^ 7 ∧ (t.here.chan c).hi = (s.me.rg a).toNat / 2 ^ 16 % 2 ^ 7
      else t.here.chan c = ch ∧ OnlyThread s t) ∧
  (∀ (s : State) (f : Flight) (u : Nat) (x : Word), s.arriving (s.arg 0) = some f → f.payload = .push u x →
    let ch := (s.core f.dst).chan u
    ∃ t, exec .channelPushArrival s = .next t ∧
      (t.core f.dst).chan u =
        { ch with values := ch.values ++ [x], throttle := ch.throttle || decide (ch.hi < ch.values.length + 1) } ∧
      (∀ w, w ≠ u → (t.core f.dst).chan w = (s.core f.dst).chan w) ∧ OtherCores f.dst s t ∧
      ∀ n c, s.ctx? ⟨f.dst, n⟩ = some c → ∃ c', t.ctx? ⟨f.dst, n⟩ = some c' ∧ c'.g = c.g ∧ c'.pc = c.pc) ∧
  (∀ (s : State) (f : Flight) (v : Nat), s.arriving (s.arg 0) = some f → f.payload = .credit v →
    ∃ t, exec .channelCreditReturn s = .next t ∧
      Map.get 0 (t.core f.dst).credits v = Map.get 0 (s.core f.dst).credits v - 1 ∧
      (∀ w, w ≠ v → Map.get 0 (t.core f.dst).credits w = Map.get 0 (s.core f.dst).credits w) ∧ OtherCores f.dst s t) ∧
  ∀ (s : State) (a : Actor), s.args = [a.core, a.thread] →
    (isStuck s a = false → exec .channelDeadlock s = .next s) ∧
    (isStuck s a = true → (waitsFor s a).contains a = true → (s.ctx? a).isSome = true → (s.ctx a).pend.length < 4 →
      ∃ t, exec .channelDeadlock s = .next t ∧ (t.ctx a).pc = (s.ctx a).pc ∧ (t.ctx a).pend = (s.ctx a).pend ++
        [⟨causeCode .async .channelDeadlock, BitVec.ofNat 64 (bits (s.ctx a).park.toNat 8 24), 9, 0⟩])

/-- R317, R318: SEND sends its pair with the sender's name and parks; the inbox takes it while it holds fewer than 64, and
answers; the reply ends the park with the outcome; RECV takes the oldest message or reports an empty inbox. -/
def Sys2Proof.Claims.Messages : Prop :=
  (∀ (s : State) (a b q k : Nat), acts s → plainRegs s [a, b, b + 1] → q ≠ 0 → b % 2 = 0 →
    let n := (s.me.rg a).toNat
    n < 2 ^ 33 → bits n 0 6 = 0 → (bits n 32 1 = 1 → bits n 16 2 = 0) → nameDevice n = s.plat.devid → nameCore n = some k →
    s.mayName s.actor.core k = true →
    ∃ t, exec (.send a b q) s = .next t ∧ ParksForReply s t ∧ OnlySends s t ∧
      Sends .message s.actor.core k s.me.handle (.message s.actor q (s.me.rg b) (s.me.rg (b + 1))
        (BitVec.ofNat 64 (s.me.handle + 2 ^ 32 * s.plat.devid))) .messageArrival s t) ∧
  (∀ (s : State) (f : Flight) (a : Actor) (q : Nat) (m0 m1 sender : Word), s.arriving (s.arg 0) = some f →
    f.payload = .message a q m0 m1 sender → switchedOut (s.landed f.id) f.dst = none →
    ((s.core f.dst).inbox.length < 64 → ∃ t, exec .messageArrival s = .next t ∧
      (t.core f.dst).inbox = (s.core f.dst).inbox ++ [⟨m0, m1, sender⟩] ∧ OtherCores f.dst s t ∧
      Answers f.id .message f.dst a.core 0 (.messageReply a q 1 0) s t ∧
      ∀ n c, s.ctx? ⟨f.dst, n⟩ = some c → c.parkReason = 3 → c.isLimited = false → c.throttled = false →
        ∃ c', t.ctx? ⟨f.dst, n⟩ = some c' ∧ c'.status = .running ∧ c'.pc = c.pc ∧ c'.g = c.g) ∧
    (64 ≤ (s.core f.dst).inbox.length → ∃ t, exec .messageArrival s = .next t ∧ t.cores = s.cores ∧
      Answers f.id .message f.dst a.core 0 (.messageReply a q 0 0) s t)) ∧
  (∀ (s : State) (f : Flight) (a : Actor) (q ans : Nat) (name : Word) (c : Ctx), s.arriving (s.arg 0) = some f →
    f.payload = .messageReply a q ans name → ans < 2 → s.ctx? a = some c → c.status = .parked → q ≠ 0 →
    ∃ t c', exec .messageReply s = .next t ∧ t.ctx? a = some c' ∧ ResumesWith q (ans == 1) c c' ∧ c'.g = c.g ∧
      OthersOf a.core a.thread s t) ∧
  ∀ (s : State) (d b q : Nat), acts s → plainRegs s [d, d + 1, b] → q ≠ 0 → d % 2 = 0 →
    (∀ m rest, s.here.inbox = m :: rest → ∃ t, exec (.recv d b q) s = .next t ∧ t.here.inbox = rest ∧
      t.me.rp q = okMask true ∧ (b ≠ 0 → t.me.rg b = m.sender) ∧ (d ≠ 0 → d ≠ b → t.me.rg d = m.m0) ∧
      (d + 1 ≠ b → t.me.rg (d + 1) = m.m1) ∧ (∀ r, r ≠ d → r ≠ d + 1 → r ≠ b → t.me.rg r = s.me.rg r) ∧ Completed 4 4 s t ∧
      OtherThreads s t ∧ OtherCores s.actor.core s t ∧ t.here.ls = s.here.ls) ∧
    (s.here.inbox = [] → ∃ t, exec (.recv d b q) s = .next t ∧ t.me.rp q = okMask false ∧ t.me.g = s.me.g ∧
      Completed 4 4 s t ∧ OnlyThread s t)

/-- R308 to R318: channels and messages. -/
def Obligations.ChannelsAndMessages : Prop := Sys2Proof.Claims.Channels ∧ Sys2Proof.Claims.Messages


namespace Sys2Proof.Claims

/-- The acting thread is a running role of its core's stage, in no gang. -/
def isRoleOf (s : State) (key : Nat) (st : Stage) : Prop :=
  acts s ∧ isHub s.actor.core = false ∧ s.me.gang = none ∧ s.me.role = some key ∧ s.here.stage = some st

/-- The dispatcher of core `k` has a stage with nothing of its own to do: no spill, no role to resume, not ending. -/
def stageQuiet (s : State) (k : Nat) (st : Stage) : Prop :=
  s.args = [k] ∧ (s.core k).stage = some st ∧ st.spills = [] ∧ st.spilling = [] ∧ st.ending = false ∧
    (∀ e ∈ (s.core k).roles, e.2.suspended = false) ∧ orphanKey (s.core k) st = none

end Sys2Proof.Claims

/-- R319 to R324: STAGEDEF defines a stage from its script descriptor, or ends it; the dispatcher gives a record to the role of
its key, makes a new role for a key without one, and reports a malformed record; a role is written to its spill slot and
comes back from it with its registers; an idle role enters the finale. -/
def Sys2Proof.Claims.Stages : Prop :=
  (∀ (s : State) (a b q : Nat), acts s → isHub s.actor.core = false → s.me.gang = none → s.actor.thread = 0 → q = 0 ∨ q = 4 →
    (a ≤ 4 → b < 4 → s.here.stage = none →
      scriptOk (lsLimit s.actor.core) (s.me.re q).toNat (s.me.re (q + 1)).toNat (s.me.re (q + 2)).toNat
        (s.me.re (q + 3)).toNat = true →
      dirFault s b = none → (a = 4 ∨ dirFault s a = none) → (∀ e ∈ s.here.threads, e.2.bindU ≠ b) →
      ∃ t st, exec (.stagedef a b q) s = .next t ∧ t.here.stage = some st ∧
        st.desc = [s.me.re q, s.me.re (q + 1), s.me.re (q + 2), s.me.re (q + 3)] ∧ st.input = b ∧ st.output = a ∧
        st.codeId = s.me.codeId.toNat ∧ st.prio = s.me.priority ∧ st.slots = [] ∧ st.spills = [] ∧ st.ending = false ∧
        Completed 4 16 s t ∧ t.me.g = s.me.g ∧ OtherCores s.actor.core s t) ∧
    ∀ st, a = 4 → b = 4 → s.here.stage = some st → ∃ t, exec (.stagedef a b q) s = .next t ∧
      t.here.stage = some { st with ending := true } ∧ t.me.status = .parked ∧ t.me.park = 9 ∧ t.me.pc = s.me.pc + 4 ∧
      t.me.g = s.me.g ∧ OtherCores s.actor.core s t ∧ OtherThreads s t) ∧
  (∀ (s : State) (k key : Nat) (st : Stage) (r : Record), stageQuiet s k st →
    nextRecord ((s.core k).chan st.input) = some r → key = r.header.toNat % 2 ^ 24 →
    let rest := ((s.core k).chan st.input).values.drop (1 + r.payload.length)
    (r.header.toNat / 2 ^ 27 % 2 ^ 5 ≠ 0 → (s.ctx? ⟨k, 0⟩).isSome = true → (s.ctx ⟨k, 0⟩).pend.length < 4 →
      ∃ t, exec .recordDispatch s = .next t ∧ ((t.core k).chan st.input).values = rest ∧
        (t.ctx ⟨k, 0⟩).pend = (s.ctx ⟨k, 0⟩).pend ++ [⟨causeCode .async .stageRecordMalformed, r.header, 9, 0⟩]) ∧
    (r.header.toNat / 2 ^ 27 % 2 ^ 5 = 0 → key ≠ 0xFFFFFF → ((s.core k).roleOf key).isSome = true →
      (st.pending key).length < 4 →
      ∃ t st', exec .recordDispatch s = .next t ∧ (t.core k).stage = some st' ∧ st'.pending key = st.pending key ++ [r] ∧
        (∀ j, j ≠ key → st'.pending j = st.pending j) ∧ ((t.core k).chan st.input).values = rest) ∧
    ∀ n im, r.header.toNat / 2 ^ 27 % 2 ^ 5 = 0 → key ≠ 0xFFFFFF → (s.core k).roleOf key = none →
      (s.core k).roles.length < st.capacity → (s.core k).freeThread = some n →
      im = getBytes (s.core k).ls st.imageAt 1024 → (s.core k).badWord st.imageAt 1024 = none → checkImage im 0 = none →
      ∃ t c, exec .recordDispatch s = .next t ∧ t.ctx? ⟨k, n⟩ = some c ∧ c.role = some key ∧ c.pc = st.entryPc ∧
        c.codeId = BitVec.ofNat 16 st.codeId ∧ c.status = .running ∧ c.rg 8 = r.header ∧
        (∀ i < 7, c.rg (9 + i) = r.payload.getD i 0) ∧ (∀ i < 7, c.rg (1 + i) = word (imageNat im (8 * i) 8)) ∧
        c.bindV = st.output ∧ ((t.core k).chan st.input).values = rest) ∧
  (∀ (s : State) (k n key : Nat) (st : Stage) (p : Spill) (c : Ctx) (tr : TlbEntry), s.args = [k, key] →
    (s.core k).stage = some st → st.spilling.find? (fun p => p.key == key) = some p → (s.core k).roleOf key = some (n, c) →
    s.ctx? ⟨k, n⟩ = some c → c.suspended = true → mapped s k tr 2 (st.slotAddr p.slot) 1024 →
    ∃ t st', exec .roleSpill s = .next t ∧ t.ctx? ⟨k, n⟩ = none ∧ OthersOf k n s t ∧ (t.core k).stage = some st' ∧
      st'.isSpilled key = true ∧ st'.isSpilling key = false ∧
      ∀ a, t.physByte a =
        let first := tr.physOf (st.slotAddr p.slot)
        if first ≤ a ∧ a < first + 1024 then (imageOf c).getD (a - first) 0 else s.physByte a) ∧
  (∀ (s : State) (k n key : Nat) (st : Stage) (p : Spill) (tr : TlbEntry) (im : List Byte), s.args = [k, key] →
    (s.core k).stage = some st → st.spills.find? (fun p => p.key == key && p.fetching) = some p → p.finale = 0 →
    st.pending key = [] → (s.core k).freeThread = some n → wingsCount (s.core k) < 48 → mapped s k tr 1 (st.slotAddr p.slot) 1024 →
    im = (List.range 1024).map (fun i => s.physByte (tr.physOf (st.slotAddr p.slot + i))) → checkImage im 0 = none →
    ∃ t c st', exec .roleFetchBack s = .next t ∧ t.ctx? ⟨k, n⟩ = some c ∧ OthersOf k n s t ∧ (t.core k).stage = some st' ∧
      st'.isSpilled key = false ∧ c.role = some key ∧ c.suspended = true ∧ c.pc = word (imageNat im 0x0F8 8) ∧
      ∀ r, 1 ≤ r → r ≤ 31 → c.rg r = word (imageNat im (8 * (r - 1)) 8)) ∧
  ∀ (s : State) (k n key : Nat) (st : Stage) (c : Ctx), s.args = [k, key] → (s.core k).stage = some st → st.idle ≠ 0 →
    st.pending key = [] → st.isSpilling key = false → (s.core k).roleOf key = some (n, c) → s.ctx? ⟨k, n⟩ = some c →
    c.suspended = true → c.suspendedAt + st.idle ≤ s.time →
    ∃ t c', exec .idleLimitExpiry s = .next t ∧ t.ctx? ⟨k, n⟩ = some c' ∧ OthersOf k n s t ∧ c'.suspended = false ∧
      c'.finale = true ∧ c'.pc = st.finalePc ∧ c'.rg 8 = BitVec.ofNat 64 (2 ^ 56 + key) ∧ ∀ i < 7, c'.rg (9 + i) = 0

/-- R325, R326: KRECV and KYIELD take the role's oldest pending record into g8 to g15; with none, KRECV reports it and KYIELD
suspends the role; KRETIRE, and KYIELD in the finale, end the role; KLOOK reports a key's role, records and spill. -/
def Sys2Proof.Claims.Roles : Prop :=
  (∀ (s : State) (key q : Nat) (st : Stage), isRoleOf s key st → q ≠ 0 →
    let takes (i : Instr) (ok : State → Prop) (r : Record) (rest : List Record) : Prop :=
      ∃ t st', exec i s = .next t ∧ ok t ∧ t.here.stage = some st' ∧ st'.pending key = rest ∧
        t.me.rg 8 = r.header ∧ (∀ i < 7, t.me.rg (9 + i) = r.payload.getD i 0) ∧
        (∀ j, j < 8 ∨ 16 ≤ j → t.me.rg j = s.me.rg j) ∧ Completed 4 4 s t ∧ OtherCores s.actor.core s t ∧ OtherThreads s t
    (∀ r rest, st.pending key = r :: rest → takes (.krecv q) (fun t => t.me.rp q = okMask true) r rest ∧
      (s.me.finale = false → takes .kyield (fun t => t.me.p = s.me.p ∧ t.me.suspended = s.me.suspended) r rest)) ∧
    (st.pending key = [] → (∃ t, exec (.krecv q) s = .next t ∧ t.me.rp q = okMask false ∧ t.me.g = s.me.g ∧
        Completed 4 4 s t ∧ OnlyThread s t) ∧
      (s.me.finale = false → ∃ t, exec .kyield s = .next t ∧ t.me.suspended = true ∧ t.me.suspendedAt = s.time ∧
        t.me.g = s.me.g ∧ Completed 4 4 s t ∧ OtherCores s.actor.core s t ∧ OtherThreads s t)) ∧
    (s.here.holds s.actor.thread = false →
      ∀ i ∈ (if s.me.finale then [Instr.kretire, .kyield] else [.kretire]), ∃ t, exec i s = .next t ∧
        t.me.status = .draining .retire 0 ∧ t.me.isMember = false ∧ t.me.bindU = 4 ∧ t.me.bindV = 4 ∧
        (⟨s.now, .quitDrainEnd, [s.actor.core, s.actor.thread]⟩ : Due) ∈ t.agenda)) ∧
  ∀ (s : State) (d a : Nat) (st : Stage), isHub s.actor.core = false → plainRegs s [d, a] →
    (s.me.rg a).toNat < 0xFFFFFF → s.here.stage = some st →
    let key := (s.me.rg a).toNat
    let base := 4 * (st.pending key).length + 2 ^ 8 * (s.here.roles.length + st.spills.countP (·.fetching))
    ∃ t, exec (.klook d a) s = .next t ∧ RegisterResult 4 8 d (BitVec.ofNat 64
      (match s.here.roleOf key with
        | some e => base + (if e.2.suspended then 2 else 1) + (if e.2.finale then 32 else 0) + 2 ^ 32 * e.2.handle
        | none => base + (if st.isSpilled key then 3 else 0))) s t

/-- R319 to R330: stages and their roles. -/
def Obligations.StagesAndRoles : Prop := Sys2Proof.Claims.Stages ∧ Sys2Proof.Claims.Roles


namespace Sys2Proof.Claims

/-- An answer to a thread's parking instruction is on its way: a value for g[d], and success or failure. -/
def Answered (a : Actor) (d q : Nat) (value : Word) (ok : Bool) (t : State) : Prop :=
  ∃ f ∈ t.net, f.dst = a.core ∧ f.payload = .status a d q value ok

/-- The ticket names a posted task of the partition: its entry and its generation (R346). -/
def namesTask (s : State) (part tk : Nat) (u : Task) : Prop :=
  Tbl.get? s.hub.tasks (tk % 2 ^ 13) = some u ∧ u.part = part ∧ tk = tk % 2 ^ 13 + 2 ^ 13 * u.gen + 2 ^ 31

/-- The word of R351 for a ticket, or for none: STATE, SPEC, EARLY and ABORTS of the task that it names, 0 where it names none;
INFLIGHT; and the reserved bits 0. -/
def IsTaskWord (s : State) (part : Nat) (ticket : Option Nat) (v : Nat) : Prop :=
  v / 2 ^ 32 = (s.hub.tasks.filter fun t => t.2.part == part).length ∧
  (∀ tk u, ticket = some tk → namesTask s part tk u →
    v % 4 = (match u.state with
      | .waiting => 1
      | .dispatched => 2
      | .finished => 3) ∧
    v / 2 ^ 2 % 2 = (if oldestTask s.hub.tasks part = some (tk % 2 ^ 13) then 0 else 1) ∧
    v / 2 ^ 3 % 2 = (if u.withEdge then 1 else 0) ∧ v / 2 ^ 4 % 2 ^ 4 = 0 ∧
    v / 2 ^ 8 % 2 ^ 8 = min u.aborts 255 ∧ v / 2 ^ 16 % 2 ^ 16 = 0) ∧
  ((∀ tk u, ticket = some tk → ¬ namesTask s part tk u) → v % 2 ^ 32 = 0)

/-- The bytes at a mapped range. -/
def bytesAt (s : State) (tr : TlbEntry) (va n : Nat) : List Byte := (List.range n).map fun i => s.physByte (tr.physOf (va + i))

end Sys2Proof.Claims

/-- R345 to R355, R360 to R364: TFOOT writes a footprint block; TPOST sends its record and parks; the hub refuses it, or posts it
with a ticket; TSTAT reports a task in the layout of R351; TWAIT and TDONE act as R350 and R352 say; the earliest dispatchable task becomes a thread; the oldest
finished task commits, its held puts performed; room for the oldest is made by aborting the latest holder. That a commit is
one step, and which task gives way for room, is the model's reading (log entry 29). -/
def Obligations.Tasks : Prop :=
  (∀ (s : State) (a n q : Nat), plainRegs s [a] → n ≤ 4 → q = 0 ∨ q = 4 → lsReady s (s.me.rg a).toNat 32 →
    (∀ j < n, regionBad (s.me.re (q + j)) = false) →
    let x := (s.me.rg a).toNat
    ∃ t, exec (.tfoot a n q) s = .next t ∧ Completed 4 4 s t ∧ CtxKept s t ∧ OnlyStore s t ∧
      ∀ y, lsByte t y = if x ≤ y ∧ y < x + 32 then
          (if (y - x) / 8 < n then (s.me.re (q + (y - x) / 8)).extractLsb' (8 * ((y - x) % 8)) 8 else 0) else lsByte s y) ∧
  (∀ (s : State) (d a q : Nat), acts s → plainRegs s [d, a] → s.me.ticket = none → q ≠ 0 →
    let x := (s.me.rg a).toNat
    x + 96 ≤ lsLimit s.actor.core → x % 64 = 0 → watchHit s.here x 96 true false = false →
    awaits s.here [run x 96] [] = false → lsSound s s.actor.core x 96 →
    recordOk s (lsWords s.here x 8) = true → (∀ r ∈ lsWords s.here (x + 64) 4, regionBad r = false) →
    ∃ t, exec (.tpost d a q) s = .next t ∧ ParksForReply s t ∧ OnlySends s t ∧
      Sends .control s.actor.core umpireKey s.me.handle (.post s.actor d q (lsWords s.here x 8) (lsWords s.here (x + 64) 4)
        (s.spaceOf s.actor.core)) .taskPostAtHub s t) ∧
  (∀ (s : State) (f : Flight) (a : Actor) (d q part : Nat) (r fp : List Word), s.arriving (s.arg 0) = some f →
    f.payload = .post a d q r fp part → (s.ctx a).isDraining = false →
    (freeRecord s.hub = none → ∃ t, exec .taskPostAtHub s = .next t ∧ Answered a d q 1 false t ∧ t.hub = s.hub) ∧
    (freeRecord s.hub ≠ none → recordTs r ≤ floorOf s part →
      ∃ t, exec .taskPostAtHub s = .next t ∧ Answered a d q 2 false t ∧ t.hub = s.hub) ∧
    ∀ e, freeRecord s.hub = some e → floorOf s part < recordTs r →
      ∃ t u, exec .taskPostAtHub s = .next t ∧ Tbl.get? t.hub.tasks e = some u ∧ u.part = part ∧ u.ts = recordTs r ∧
        u.entry = r.getD 0 0 ∧ u.state = .waiting ∧ u.poster = (s.ctx a).ticket ∧
        Answered a d q (BitVec.ofNat 64 (e + 2 ^ 13 * u.gen + 2 ^ 31)) true t ∧ t.cores = s.cores ∧
        (⟨s.now, .taskDispatch, [part]⟩ : Due) ∈ t.agenda) ∧
  (∀ (s : State) (d a : Nat), acts s → plainRegs s [d, a] →
    let x := (s.me.rg a).toNat
    (x = 0 ∨ (x < 2 ^ 32 ∧ bits x 28 4 = 8) → ∃ t v, exec (.tstat d a) s = .next t ∧ ParksForReply s t ∧ OnlySends s t ∧
      Sends .control umpireKey s.actor.core 0 (.plain s.actor d (BitVec.ofNat 64 v)) .hubAnswer s t ∧
      IsTaskWord s (s.spaceOf s.actor.core) (if x = 0 then s.me.ticket else some x) v)) ∧
  (∀ (s : State) (a b : Nat) (tr : TlbEntry), plainRegs s [a, b] → s.me.wait = none →
    let x := (s.me.rg a).toNat
    let now := BitVec.ofNat 64 (natOfBytes (bytesAt s tr x 8))
    x < 2 ^ 57 → x % 8 = 0 → mapped s s.actor.core tr 1 x 8 →
    ((now - s.me.rg b).msb = false → ∃ t, exec (.twait a b) s = .next t ∧ NoResult (s.me.pc + 4) 4 s t) ∧
    ((now - s.me.rg b).msb = true → ∃ t, exec (.twait a b) s = .next t ∧ t.me.status = .parked ∧ t.me.park = 9 ∧
      t.me.pc = s.me.pc ∧ t.me.g = s.me.g ∧ OtherThreads s t ∧ OtherCores s.actor.core s t)) ∧
  (∀ (s : State) (k : Nat), acts s → s.me.ticket = some k → s.here.holds s.actor.thread = false →
    ∃ t, exec .tdone s = .next t ∧ t.me.status = .draining .tdone 0 ∧
      (⟨s.now, .quitDrainEnd, [s.actor.core, s.actor.thread]⟩ : Due) ∈ t.agenda) ∧
  (∀ (s : State) (part e k n : Nat) (u : Task) (core : Core), s.args = [part] → nextTask s part = some (e, u) →
    bestTaskCore s part = some (k, core) → s.core k = core → core.freeThread = some n → u.aborts < u.limit →
    ∃ t c u', exec .taskDispatch s = .next t ∧ t.ctx? ⟨k, n⟩ = some c ∧ OthersOf k n s t ∧ c.pc = u.entry ∧
      (∀ i < 4, c.rg (4 + i) = u.args.getD i 0) ∧ c.rg 8 = BitVec.ofNat 64 (e + 2 ^ 13 * u.gen + 2 ^ 31) ∧
      c.rg 9 = BitVec.ofNat 64 u.ts ∧ c.rg 10 = BitVec.ofNat 64 u.user ∧ c.ticket = some (e + 2 ^ 13 * u.gen + 2 ^ 31) ∧
      c.status = .running ∧ Tbl.get? t.hub.tasks e = some u' ∧ u'.state = .dispatched ∧ u'.actor = some ⟨k, n⟩) ∧
  (∀ (s : State) (part e : Nat) (u : Task), s.args = [part] → oldestTask s.hub.tasks part = some e →
    Tbl.get? s.hub.tasks e = some u → u.part = part → u.state = .finished → u.note = none →
    (u.puts = [] → ∃ t, exec .taskCommit s = .next t ∧ Tbl.get? t.hub.tasks e = none ∧
      (∀ x ∈ t.hub.tasks, e ∉ x.2.edges) ∧ (t.part part).floor = u.ts ∧ t.dram = s.dram) ∧
    ∀ k n va bs en tr, u.puts = [(k, en.id)] → hasEntry s k en → en.state = .heldPut → en.held = [(va, bs)] →
      en.counter = some n → bs ≠ [] → isServed s (.entry k en.id) = false →
      mappedIn s (clusterOf k) part tr 2 va bs.length → (∀ x ∈ s.hub.tasks, x.2.readSet = []) →
      ∃ t, exec .taskCommit s = .next t ∧ Tbl.get? t.hub.tasks e = none ∧ t.entry? k en.id = none ∧
        Map.get 0 (t.core k).kval n = Map.get 0 (s.core k).kval n + 1 ∧
        ∀ a, t.physByte a =
          if tr.physOf va ≤ a ∧ a < tr.physOf va + bs.length then bs.getD (a - tr.physOf va) 0 else s.physByte a) ∧
  ∀ (s : State) (part e v : Nat) (t0 u : Task), s.args = [part] → oldestTask s.hub.tasks part = some e →
    Tbl.get? s.hub.tasks e = some t0 → wantsThread s part e t0 = true → (∀ x ∈ s.hub.tasks, x.2.poster = none) →
    latestTask (s.hub.tasks.filter fun x => x.2.part == part && x.1 != e && x.2.actor.isSome) = some v →
    Tbl.get? s.hub.tasks v = some u →
    ∃ t, exec .roomAbort s = .next t ∧ Tbl.get? t.hub.tasks v =
      some { u with state := .waiting, withEdge := false, actor := none, readSet := [], puts := [] }

namespace Sys2Proof.Claims

/-- The queue in this slot has a packet, `b`, at its head, which the Umpire has chosen to act on. -/
def packetChosen (s : State) (slot : Nat) (q : Queue) (b : List Byte) (tr : TlbEntry) : Prop :=
  s.args = [slot] ∧ Tbl.get? s.hub.queues slot = some q ∧ q.busy = true ∧ q.read ≠ q.write ∧ allCold s ∧
    mappedIn s 256 q.space tr 1 q.packetAt 64 ∧ b = bytesAt s tr q.packetAt 64

/-- The queue has passed its packet: READ is one more, in its QCB too. -/
def Passed (slot : Nat) (q : Queue) (t : State) : Prop :=
  Tbl.get? t.hub.queues slot =
    some { q with read := (q.read + 1) % 2 ^ 64, busy := false, tested := 0, seeds := [] } ∧
  t.physRead (q.qcb + 16) 8 = (q.read + 1) % 2 ^ 64

/-- Eight bytes of memory lie apart from the READ field of a queue's QCB. -/
def apart (x : Nat) (q : Queue) : Prop := x + 8 ≤ q.qcb + 16 ∨ q.qcb + 24 ≤ x

end Sys2Proof.Claims

/-- R120, R333 to R342: a legal QCB takes a free slot and its STATE, ERROR and SLOT fields say so, an illegal one is marked; a
doorbell takes up WRITE; the selection gives the first ready queue its step; WAIT passes once its timeline has reached its
value; SIGNAL writes the timeline and wakes the threads that wait in TWAIT; SEED posts its records; an acted packet raises READ.
(Who must hold the frame of a QCB, and what an admission writes there, are the model's reading, log entry 17; that the Umpire waits
while a stack accepts no command, log entry 34; where a control queue's tasks go, log entry 64.) -/
def Obligations.Queues : Prop :=
  (∀ (s : State) (m addr : Nat), s.args = [m, addr] → allCold s → (∀ q ∈ heldQueues s.hub, q.qcb ≠ addr) →
    (∀ q slot, readQcb s m addr = some q → (∀ x ∈ heldQueues s.hub, x.qid ≠ q.qid) → (∀ x ∈ s.hub.halted, x.1 = q.qid → x.2 = addr) →
      freeQueueSlot s.hub = some slot →
      ∃ t q', exec .qadmit s = .next t ∧ Tbl.get? t.hub.queues slot = some q' ∧ q'.qid = q.qid ∧ q'.qcb = addr ∧
        q'.read = s.physRead (addr + 16) 8 ∧ q'.write = s.physRead (addr + 24) 8 ∧ q'.busy = false ∧
        t.physRead (addr + 14) 1 = 1 ∧ t.physRead (addr + 15) 1 = 0 ∧ t.physRead (addr + 52) 2 = slot ∧ t.cores = s.cores) ∧
    (readQcb s m addr = none → inRanges (frameOf (addr + 14)) = true → inRanges (frameOf (addr + 15)) = true →
      ∃ t, exec .qadmit s = .next t ∧ t.hub.queues = s.hub.queues ∧ t.physRead (addr + 14) 1 = 3 ∧
        t.physRead (addr + 15) 1 = 1 ∧ t.cores = s.cores)) ∧
  (∀ (s : State) (slot : Nat) (q : Queue), s.args = [q.qid] → s.hub.queues.find? (fun x => x.2.qid == q.qid) = some (slot, q) → allCold s →
    ∃ t, exec .doorbell s = .next t ∧ Tbl.get? t.hub.queues slot = some { q with write := s.physRead (q.qcb + 24) 8 } ∧
      t.dram = s.dram ∧ t.cores = s.cores) ∧
  (∀ (s : State) (slot : Nat) (rest : List Nat) (q : Queue) (tr : TlbEntry) (type : Nat), inReset s = false →
    (s.hub.queues.any fun x => x.2.busy) = false → s.plat.staged = none → s.linkAllowed q.space = true → allCold s →
    s.hub.admitList = [] →
    queueOrder s.hub = slot :: rest →
    Tbl.get? s.hub.queues slot = some q → (q.write + 2 ^ 64 - q.read) % 2 ^ 64 ≤ 2 ^ q.log2n →
    mappedIn s 256 q.space tr 1 q.packetAt 64 →
    let b := bytesAt s tr q.packetAt 64
    type = field b 0 1 → 1 ≤ type → type ≤ 4 → field b 0 8 < 2 ^ 8 ∨ (type = 1 ∧ field b 0 8 < 2 ^ 9) →
    isReady s q type = true →
    ∃ t, exec .umpireQueueSelect s = .next t ∧ Tbl.get? t.hub.queues slot = some { q with busy := true } ∧
      t.dram = s.dram ∧ t.cores = s.cores ∧
      t.agenda = s.agenda ++ [⟨s.now, packetStep type, [slot]⟩]) ∧
  (∀ (s : State) (slot : Nat) (q : Queue) (b : List Byte) (tr tw : TlbEntry), packetChosen s slot q b tr → field b 0 1 = 2 →
    let va := field b 8 8
    let now := BitVec.ofNat 64 (natOfBytes (bytesAt s tw va 8))
    (∀ x ∈ b.drop 24, x = 0) → va % 8 = 0 → va < 2 ^ 57 → mappedIn s 256 q.space tw 1 va 8 →
    ((now - BitVec.ofNat 64 (field b 16 8)).msb = false → ∃ t, exec .wait s = .next t ∧ Passed slot q t) ∧
    ((now - BitVec.ofNat 64 (field b 16 8)).msb = true → ∃ t, exec .wait s = .next t ∧
      Tbl.get? t.hub.queues slot = some { q with busy := false, tested := 2 } ∧ t.dram = s.dram)) ∧
  (∀ (s : State) (slot : Nat) (q : Queue) (b : List Byte) (tr tw : TlbEntry), packetChosen s slot q b tr → field b 0 1 = 3 →
    isReady s q 3 = true → (∀ x ∈ b.drop 16, x = 0) →
    let first := tw.physOf q.timeline.toNat
    let old := natOfBytes (bytesAt s tw q.timeline.toNat 8)
    let diff := BitVec.ofNat 64 (field b 8 8) - BitVec.ofNat 64 old
    mappedIn s 256 q.space tw 3 q.timeline.toNat 8 → diff ≠ 0 → diff.msb = false → apart first q →
    ∃ t, exec .signal s = .next t ∧ t.physRead first 8 = field b 8 8 ∧ (∃ q', Tbl.get? t.hub.queues slot = some q' ∧
      q'.read = (q.read + 1) % 2 ^ 64 ∧ q'.busy = false) ∧
      ∀ a c, s.ctx? a = some c → c.parkReason = 9 → (c.wait.any fun w => w.key == twaitKey) = true →
        ∃ c', t.ctx? a = some c' ∧ c'.status = .running ∧ c'.pc = c.pc ∧ c'.g = c.g) ∧
  ∀ (s : State) (slot e : Nat) (q : Queue) (b bs : List Byte) (tr tw : TlbEntry), packetChosen s slot q b tr →
    field b 0 1 = 4 → q.seeds = [] → (∀ x ∈ b.drop 20, x = 0) → field b 16 4 = 1 →
    let va := field b 8 8
    va % 64 = 0 → va + 128 ≤ 2 ^ 57 → mappedIn s 256 q.space tw 1 va 128 → bs = bytesAt s tw va 128 →
    seedsOk s q.space (seedEntries bs 1) = true → freeRecord s.hub = some e →
    ∃ t u, exec .seed s = .next t ∧ Passed slot q t ∧ Tbl.get? t.hub.tasks e = some u ∧ u.part = q.space ∧
      u.ts = field bs 40 8 ∧ u.entry = BitVec.ofNat 64 (field bs 0 8) ∧ u.state = .waiting ∧ u.poster = none

/-- R81, R120 to R123, R338: an accepted LAUNCH is listed with what its packet and descriptor say; an idle core is reserved for
it and its command sent; the Cox loads the core's store and contexts, gated where the launch is; the gate's lift starts them; a
complete launch writes its timeline and is over.
(What becomes of a launch that its descriptor, its count of cores or its load breaks, and that one without crew slots waits, are
the model's choices, log entries 18 and 46; which descriptors and which run of crew slots, log entries 54 and 55.) -/
def Obligations.Launches : Prop :=
  (∀ (s : State) (slot base : Nat) (q : Queue) (b d : List Byte) (tr td : TlbEntry), packetChosen s slot q b tr →
    field b 0 1 = 1 → isReady s q 1 = true → field b 20 4 = 0 → field b 8 8 + 64 ≤ 2 ^ 57 →
    mappedIn s 256 q.space td 1 (field b 8 8) 64 → d = bytesAt s td (field b 8 8) 64 → descriptorOk d q.control = true →
    1 ≤ field b 16 4 → field b 16 4 ≤ (queueCores s q).length → (∀ k ∈ queueCores s q, (s.core k).unmapped = false) →
    (bits (field d 6 2) 1 1 = 0 ∨ q.control = true ∨ tokenOpen (s.part q.part) = true) →
    freeCrews s.hub (field d 39 1) = some base →
    let id := s.hub.launchCount + 1
    ∃ t l, exec .launch s = .next t ∧ Passed slot q t ∧ t.hub.launchCount = id ∧ Tbl.get? t.hub.launches id = some l ∧
      l.entry = BitVec.ofNat 64 (field d 8 8) ∧ l.codeId = field d 4 2 ∧ l.lsAddr = BitVec.ofNat 64 (field d 16 8) ∧
      l.lsSize = field d 24 4 ∧ l.lsTotal = field d 28 4 ∧ l.stack = field d 32 4 ∧ l.threads = field d 36 1 ∧
      l.prio = field d 37 1 ∧ l.ceil = field d 38 1 ∧ l.cores = field b 16 4 ∧ l.qid = q.qid ∧ l.part = q.part ∧
      l.args = wordsAt b 24 4 ∧ l.done = BitVec.ofNat 64 (field b 56 8) ∧ l.lifted = false ∧
      (⟨s.now, .launchPlacement, [id]⟩ : Due) ∈ t.agenda ∧ t.cores = s.cores) ∧
  (∀ (s : State) (id k : Nat) (l : Launch) (rest : List Nat), s.args = [id] → Tbl.get? s.hub.launches id = some l →
    l.cores = 1 → l.toSend = [] → (launchCores s l).filter (isIdle s) = k :: rest → (s.cluster (clusterOf k)).permits < 8 →
    ∃ t, exec .launchPlacement s = .next t ∧ (t.core k).launch = some (l.onCore id) ∧ OtherCores k s t ∧
      Tbl.get? t.hub.launches id = some { l with cores := 0, loading := l.loading ++ [k] } ∧
      (t.cluster (clusterOf k)).permits = (s.cluster (clusterOf k)).permits + 1 ∧
      (⟨s.now, .placementCommand, [id, k]⟩ : Due) ∈ t.agenda) ∧
  (∀ (s : State) (id k : Nat) (l : Launch) (tr : TlbEntry), s.args = [id, k] → Tbl.get? s.hub.launches id = some l →
    k ∈ l.loading → inReset s = false → (s.core k).retired = false → (s.core k).stopped = false → l.lsSize ≤ l.lsTotal → mapped s k tr 1 l.lsAddr.toNat l.lsSize →
    ∃ t, exec .placementCommand s = .next t ∧ OtherCores k s t ∧
      (∀ x < l.lsTotal, Map.get 0 (t.core k).ls x =
        if x < l.lsSize then s.physByte (tr.physOf (l.lsAddr.toNat + x)) else 0) ∧
      (∀ w, 4 * w + 3 < l.lsTotal → (t.core k).wordState w = 1) ∧
      (∀ x, l.lsTotal ≤ x → Map.get 0 (t.core k).ls x = Map.get 0 (s.core k).ls x) ∧
      Tbl.get? t.hub.launches id = some { l with loading := l.loading.filter (· != k), loaded := l.loaded ++ [k] } ∧
      (∀ i < 64, l.mask.getLsbD i = true → Map.get 0 (t.core k).kval i = 0 ∧ Map.get 0 (t.core k).kout i = 0) ∧
      ∀ j < l.threads, ∃ c, t.ctx? ⟨k, j⟩ = some c ∧ c.pc = l.entry ∧ (∀ i < 4, c.rg (4 + i) = l.args.getD i 0) ∧
        c.codeId = BitVec.ofNat 16 l.codeId ∧ c.mode = (if l.control then 1 else 0) ∧ c.place = .live j ∧
        c.rg 2 = BitVec.ofNat 64 (lsLimit k - j * l.stack) ∧
        c.status = (if (l.coresident || l.gate) && !l.lifted then .parked else .running)) ∧
  (∀ (s : State) (id : Nat) (l : Launch), s.args = [id] → Tbl.get? s.hub.launches id = some l → l.isGated = true →
    gateOpen s l = true →
    ∃ t, exec .launchGateLift s = .next t ∧ Tbl.get? t.hub.launches id = some { l with lifted := true } ∧ t.dram = s.dram ∧
      (∀ j, j ∉ l.loaded → t.core j = s.core j) ∧
      ∀ k ∈ l.loaded, ∀ n c, s.ctx? ⟨k, n⟩ = some c → ∃ c', t.ctx? ⟨k, n⟩ = some c' ∧ c'.pc = c.pc ∧ c'.g = c.g ∧
        if c.parkReason = 11 then c'.status = .running else c' = c) ∧
  ∀ (s : State) (id : Nat) (l : Launch), s.args = [id] → Tbl.get? s.hub.launches id = some l → isComplete s id l = true →
    (l.done = 0 → ∃ t, exec .launchComplete s = .next t ∧ Tbl.get? t.hub.launches id = none ∧ t.dram = s.dram ∧
      ∀ k, t.core k =
        if (s.core k).launch.any (fun m => m.id == id) then { s.core k with launch := none } else s.core k) ∧
    ∀ tr,
      let space := if l.control then 64 + l.kernel else l.part
      let first := tr.physOf l.timeline.toNat
      mappedIn s 256 space tr 3 l.timeline.toNat 8 → l.done ≠ 0 →
      l.stalled = false →
      (l.done - BitVec.ofNat 64 (natOfBytes (bytesAt s tr l.timeline.toNat 8))).msb = false →
      l.done ≠ BitVec.ofNat 64 (natOfBytes (bytesAt s tr l.timeline.toNat 8)) →
      ∃ t, exec .launchComplete s = .next t ∧ Tbl.get? t.hub.launches id = none ∧ t.physRead first 8 = l.done.toNat ∧
        (∀ a, a < first ∨ first + 8 ≤ a → t.physByte a = s.physByte a) ∧
        t.msis = s.msis ++ (if l.msi then [(l.msiAddr, l.msiData)] else [])

namespace Sys2Proof.Claims

/-! ### Traps and control registers -/

/-- A record is given to a kernel: it waits for room in the kernel's queue (kernel 0's goes to the host ring), numbered by its
die. -/
def Recorded (kernel : Nat) (r : FRecord) (s t : State) : Prop :=
  let r := { r with seq := (s.die r.die).seq }
  if kernel = 0 then t.hub.hostRecords = s.hub.hostRecords ++ [r]
  else (t.faultQueue kernel).waiting = (s.faultQueue kernel).waiting ++ [r]

/-- The entry at a thread's own handler (R372, R373): the trap registers, INTRAP, the PC, and PRIO in S and M. -/
def EntersHandler (cause : Nat) (x stop : Word) (c c' : Ctx) : Prop :=
  c'.pc = c.xvec &&& BitVec.ofNat 64 (2 ^ 57 - 2) ∧ c'.xpc = stop ∧ c'.xcause = BitVec.ofNat 32 cause ∧ c'.xval = x ∧
    c'.status = .running ∧
    (∀ i < 32, c'.xstat.getLsbD i =
      if i < 2 then c.xstat.getLsbD i else if i < 4 then c.xstat.getLsbD (i - 2) else if i < 8 then c.prio.getLsbD (i - 4)
      else if i = 10 then true else c.xstat.getLsbD i) ∧
    (if c.mode = 0 then c'.prio = c.prio else c'.priority = (if c.mode = 3 then 11 else 10) ∧ c'.ceil = c.ceil)

/-- A thread in no gang takes a cause at `stop` (R372 to R374): at its own handler, or, in S or M without one, its core stops, or
it is held and its kernel is told. Its registers, its core and memory are else as they were. -/
def TrapTaken (a : Actor) (cause : Nat) (x stop : Word) (s t : State) : Prop :=
  let c := s.ctx a
  let c' := t.ctx a
  let r : FRecord := { plainRecord cause (s.recordPart a.core) 7 c.handle x (dieOf a.core) with flags := 1 }
  let own := c.mode ≠ 0 ∨ (delegated (s.core a.core).xdeleg (cause % 128) = true ∧ c.intrap = false)
  (own → bits c.xvec.toNat 1 56 ≠ 0 → EntersHandler cause x stop c c') ∧
  (c.mode ≠ 0 → bits c.xvec.toNat 1 56 = 0 → (t.core a.core).stopped = true ∧ c'.pc = stop ∧
    Recorded (s.kernelOf a.core) (plainRecord (causeCode .async .machineCheck) (s.recordPart a.core) 9 c.handle 0 (dieOf a.core)) s t) ∧
  (c.mode = 0 → ¬ (own ∧ bits c.xvec.toNat 1 56 ≠ 0) →
    c'.status = .held (dieOf a.core) (s.die (dieOf a.core)).seq ∧ c'.pc = stop ∧ c'.xpc = stop ∧
      c'.xcause = BitVec.ofNat 32 cause ∧ c'.xval = x ∧ c'.xstat = c.xstat ∧ c'.prio = c.prio ∧
      Recorded (s.kernelOf a.core) r s t) ∧
  c' = { c with
    pc := c'.pc, xpc := c'.xpc, xcause := c'.xcause, xval := c'.xval, xstat := c'.xstat, prio := c'.prio,
    status := c'.status, readyAt := c'.readyAt, wait := none, park := 0, pend := c'.pend } ∧
  t.dram = s.dram ∧ OthersOf a.core a.thread s t ∧
  t.core a.core = { s.core a.core with
    threads := (t.core a.core).threads, lastSlot := (t.core a.core).lastSlot, nextIssue := (t.core a.core).nextIssue,
    stopped := (t.core a.core).stopped }

/-- The acting thread's instruction raises a cause with origin EXECUTE or ACCESS: XPC is the instruction itself. -/
def Traps (cause : Nat) (x : Word) (s t : State) : Prop :=
  TrapTaken s.actor cause x s.me.pc s t ∧ (t.me.pend = s.me.pend)

/-- The monitor call that g4 names (R433). -/
def monitorCall (g4 : Word) : Instr :=
  if g4 = 0 then .monitorVersion else if g4 = 1 then .policyload else if g4 = 2 then .monstage else if g4 = 3 then .thermal
  else .monitorUnknownCall

/-- The instructions that only S and M mode may issue (R32). -/
def privilegedForms (d a b q : Nat) : List Instr := [
  .ctxsave a b q, .ctxload a b q, .tlbinv a b, .doffer d a b q, .daccept d a q, .dreject d a q, .dlend d a b q, .drecall d a q,
  .drelease d a q, .dquery d a, .psplit d a b q, .pmerge d a q, .heatset d a b q, .curtain d a b q, .token d a b q]

/-- The control registers by number: value, and the bits that are no reserved bits (R36, R369). -/
def controlRegisters (s : State) : List (Nat × Word × Nat) := [
  (0x00, s.me.fpc.setWidth 64, 0x1F1F0F), (0x01, s.me.prio.setWidth 64, 0xFFF),
  (0x02, s.me.ctxid.setWidth 64, 0x7FFFFFF), (0x03, s.me.rank.setWidth 64, 0x1FFFFF),
  (0x04, s.me.gsize.setWidth 64, 0xF), (0x05, s.me.crewsz.setWidth 64, 0x7FFFF),
  (0x06, s.me.felim.setWidth 64, 0x1FFFF), (0x07, s.me.xvec, 0x1FFFFFFFFFFFFFE), (0x08, s.me.xpc, 2 ^ 64 - 1),
  (0x09, s.me.xcause.setWidth 64, 0x1FF), (0x0A, s.me.xval, 2 ^ 64 - 1), (0x0B, s.me.xstat.setWidth 64, 0xFFF),
  (0x10, BitVec.ofNat 64 s.time, 2 ^ 64 - 1), (0x11, BitVec.ofNat 64 (s.now - s.resetAt), 2 ^ 64 - 1),
  (0x12, s.here.instret, 2 ^ 64 - 1), (0x20, s.here.xdeleg, 2 ^ 64 - 1)]

/-- The control registers that a thread in U mode may only read (R36). -/
def readOnlyRegisters : List Nat := [2, 3, 4, 5, 0x10, 0x11, 0x12]

/-- The CSR instructions that write, with the new value from the old one and the operand. -/
def csrForms (d a hi lo : Nat) (old x : Word) : List (Instr × Word) :=
  [(.csrw d a hi lo, x), (.csrs d a hi lo, old ||| x), (.csrc d a hi lo, old &&& ~~~x)]

/-- The new contents of control register `n` after a write of `x`: the fields that may be written. -/
def Written (n : Nat) (x : Word) (s t : State) : Prop :=
  let x32 : W32 := x.setWidth 32
  t.me = { s.me with
    g := t.me.g, pc := t.me.pc, readyAt := t.me.readyAt, wait := t.me.wait
    fpc := if n = 0 then x32 else s.me.fpc
    felim := if n = 6 then x32 else s.me.felim
    xvec := if n = 7 then x else s.me.xvec
    xpc := if n = 8 then x else s.me.xpc
    xcause := if n = 9 then x32 else s.me.xcause
    xval := if n = 0xA then x else s.me.xval
    prio := if n = 1 then t.me.prio else s.me.prio
    xstat := if n = 0xB then t.me.xstat else s.me.xstat } ∧
  (n = 1 → t.me.priority = min (x.toNat % 16) s.me.ceil ∧ t.me.ceil = s.me.ceil) ∧
  (n = 0xB → ∀ i < 32, t.me.xstat.getLsbD i =
    if 4 ≤ i ∧ i < 8 ∨ i = 10 ∨ i = 11 ∨ (s.me.mode ≠ 0 ∧ 2 ≤ i ∧ i < 4) then x.getLsbD i else s.me.xstat.getLsbD i) ∧
  t.here = { s.here with
    threads := t.here.threads, instret := t.here.instret, lastSlot := t.here.lastSlot, nextIssue := t.here.nextIssue
    xdeleg := if n = 0x20 then x else s.here.xdeleg }

/-- An operation of the hub's answers later: the thread parks for it (R403), and the answer is on its way. -/
def AnsweredLater (d q : Nat) (value : Word) (ok : Bool) (s t : State) : Prop :=
  ParksForReply s t ∧ ∃ f ∈ t.net, f.payload = .status s.actor d q value ok ∧ f.dst = s.actor.core ∧ f.cls = .control ∧
    (⟨s.now, .hubAnswer, [f.id]⟩ : Due) ∈ t.agenda

/-- CTXSAVE or CTXLOAD of the thread `x`: S or M mode, a handle and an address that are legal, a thread that is held or
halted, and an image that lies in one mapped page. -/
def mayHandle (s : State) (a b q : Nat) (x : Actor) (tr : TlbEntry) (need : Nat) : Prop :=
  s.me.mode ≠ 0 ∧ plainRegs s [a, b] ∧ q ≠ 0 ∧ (s.me.rg a).toNat < 2 ^ 27 ∧ x ≠ s.actor ∧
    s.threadOf (s.me.rg a).toNat = some x ∧ s.mayName s.actor.core x.core = true ∧
    isHeldOrHalted s x = true ∧
    (s.me.rg b).toNat % 1024 = 0 ∧ (s.me.rg b).toNat < 2 ^ 57 ∧ mapped s s.actor.core tr need (s.me.rg b).toNat 1024

end Sys2Proof.Claims

/-- R380, R370, R372 to R374, R376, R28: TRAP, ECALL in U and M mode, EBREAK, and a word that fails a decode check raise their
cause at the instruction itself; ECALL in S mode waits for the monitor; a pending cause is taken at the next instruction, in
the order of R376. ECALL's cause in M mode and a refused word's have free values (log entry 11). -/
def Sys2Proof.Claims.TrapEntry : Prop :=
  (∀ (x : Word) (r : Nat), delegated x r =
    (decide (r ≠ 12 ∧ r ≠ 31 ∧ r ≠ 61 ∧ r < 79) && x.getLsbD (if r < 48 then r else 48 + (r - 48) / 2))) ∧
  (∀ (s : State) (a : Nat), s.me.gang = none → plainRegs s [a] →
    (∃ t, exec (.trap a) s = .next t ∧ Traps 11 (s.me.rg a) s t) ∧
    (∃ t, exec .ebreak s = .next t ∧ Traps 8 0 s t) ∧
    (s.me.mode = 0 → ∃ t, exec .ecall s = .next t ∧ Traps 12 (s.me.rg 4) s t) ∧
    (s.me.mode = 3 → ∃ t x, exec .ecall s = .next t ∧ Traps 0 x s t) ∧
    (s.me.mode = 1 → ∃ t, exec .ecall s = .next t ∧
      t.me = { s.me with
        status := .waiting, pc := s.me.pc + 4, readyAt := t.me.readyAt, wait := none
        calling := some (s.me.rg 4).toNat } ∧
      t.agenda = s.agenda ++ [⟨s.now, monitorCall (s.me.rg 4), [s.actor.core, s.actor.thread]⟩] ∧ t.dram = s.dram) ∧
    ∀ (len w : Nat) (e : DecodeError), s.args = [len, w] → decodeWord len w = .error e →
      ∃ t x, exec .illegalEncodingDecode s = .next t ∧
        (e ≠ .reservedField → Traps 0 x s t) ∧ (e = .reservedField → isHub s.actor.core = false → Traps 1 x s t)) ∧
  ∀ (s : State) (k n : Nat) (c : Ctx), s.args = [k, n] → s.ctx? ⟨k, n⟩ = some c → c.gang = none →
    atBoundary s.now (s.core k) n c = true → (∀ p ∈ c.pend, p.cause ≠ causeCode .async .preempt) →
    (c.pend.any fun p => takeable (s.core k) c p.cause) = true →
    ∃ t, ∃ p ∈ c.pend, exec .causeTaken s = .next t ∧ TrapTaken ⟨k, n⟩ p.cause p.xval c.pc s t ∧
      takeable (s.core k) c p.cause = true ∧ (t.ctx ⟨k, n⟩).pend = c.pend.erase p ∧
      ∀ o ∈ c.pend, takeable (s.core k) c o.cause = true → causeRank p.cause ≤ causeRank o.cause

/-- R192, R194, R197: at a wait limit of 0 with the trapping policy a load of a word that is not full raises FE_WAIT_LIMIT; STF of
an empty-watched word stores, leaves it full, and raises FE_WATCHED_WRITE at the next instruction; FEQ.TAKE takes the oldest
watch entry of its word. -/
def Sys2Proof.Claims.WatchedWords : Prop :=
  ∀ (s : State) (d a q : Nat), acts s → plainRegs s [d, a] → noneWoken s → s.me.gang = none →
    let x := (s.me.rg a).toNat
    let n := if q % 4 = 3 then 8 else 4
    (lsReady s x n → s.me.felim.toNat % 2 ^ 16 = 0 → s.me.felim.getLsbD 16 = true → ∀ w, inWords x n w → wordCode s w ≠ 1 →
      ∀ j ∈ [Instr.ldfe d a q, .ldf d a q], ∃ t, exec j s = .next t ∧ Traps 32 (s.me.rg a) s t ∧ t.here.ls = s.here.ls ∧
        t.here.lsState = s.here.lsState) ∧
    (lsReady s x n → s.me.mode = 0 → delegated s.here.xdeleg 33 = false → (∃ w, inWords x n w ∧ wordCode s w = 2) →
      ∃ t, exec (.stf d a q) s = .next t ∧ StoresBytes x n (s.me.rg d) s t ∧ SetsStates x n 1 s t ∧
        (∃ k i, t.me.status = .held k i) ∧ t.me.xpc = s.me.pc + 4 ∧ t.me.xcause = 33 ∧ t.me.xval = s.me.rg a ∧
        t.me.g = s.me.g ∧ t.dram = s.dram) ∧
    ∀ e rest, lsReady s x 4 → s.here.watch = e :: rest → e.addr = x → ∃ t, exec (.feqTake d a) s = .next t ∧
      WritesG d (BitVec.ofNat 64 (2 ^ 63 + e.handle)) s t ∧ t.here.watch = rest ∧ Completed 4 4 s t ∧ CtxKeptButG s t ∧
      OtherThreads s t ∧ OtherCores s.actor.core s t

/-- R181, R188 to R197: the full and empty words. -/
def Obligations.FullEmpty : Prop := Sys2Proof.Claims.FullEmptyLoads ∧ Sys2Proof.Claims.FullEmptyStores ∧ Sys2Proof.Claims.FullEmptyWaits ∧ Sys2Proof.Claims.WatchedWords


/-- R381: XRET goes to XPC; the mode becomes PMODE outside U mode, CEIL is at most 9 in U mode, PRIO is PPRIO within CEIL,
INTRAP is cleared, and nothing else changes; an XPC that is no canonical even address traps. -/
def Sys2Proof.Claims.TrapReturn : Prop :=
  ∀ s : State,
    let pmode := if s.me.mode = 0 then 0 else s.me.xstat.toNat / 4 % 4
    let ceil := if pmode = 0 then min s.me.ceil 9 else s.me.ceil
    (goodTarget s.me.xpc → ∃ t, exec .xret s = .next t ∧ CompletedAt s.me.xpc 4 s t ∧ OnlyThread s t ∧
      t.me = { s.me with
        xstat := t.me.xstat, prio := t.me.prio, pc := t.me.pc, readyAt := t.me.readyAt, wait := t.me.wait } ∧
      t.me.mode = pmode ∧ t.me.intrap = false ∧
      (∀ i < 32, 2 ≤ i → i ≠ 10 → t.me.xstat.getLsbD i = s.me.xstat.getLsbD i) ∧
      t.me.ceil = ceil ∧ t.me.priority = min (s.me.xstat.toNat / 16 % 16) ceil) ∧
    (2 ^ 57 ≤ s.me.xpc.toNat → exec .xret s = .next (trapE .addressNoncanonical s.me.xpc s)) ∧
    (s.me.xpc.toNat < 2 ^ 57 → s.me.xpc.toNat % 2 = 1 → exec .xret s = .next (trapE .fetchMisaligned s.me.xpc s))

/-- R368 to R381: taking a cause and returning from one. -/
def Obligations.TrapAndReturn : Prop := Sys2Proof.Claims.TrapEntry ∧ Sys2Proof.Claims.TrapReturn


/-- R36, R382, R369, R370: CSRR reads a listed register, zero-extended; the others write the new value's RW fields and read the
old one; a register that is not listed, a reserved bit set, and in U mode XDELEG or a write of a read-only register, trap. That
a 1 in bits 63 to 32 of the operand for a 32-bit register counts as a reserved bit is the model's choice (log entry 41). -/
def Obligations.ControlRegisters : Prop :=
  ∀ (s : State) (d a hi lo : Nat), plainRegs s [d, a] →
    (∀ e ∈ controlRegisters s, e.1 = 8 * hi + lo → (s.me.mode = 0 → e.1 ≠ 0x20) →
      (∃ t, exec (.csrr d hi lo) s = .next t ∧ RegisterResult 4 4 d e.2.1 s t) ∧
      ∀ f ∈ csrForms d a hi lo e.2.1 (s.me.rg a),
        (s.me.mode = 0 → e.1 ∈ readOnlyRegisters → exec f.1 s = .next (trapOpen .privileged s)) ∧
        ((s.me.mode = 0 → e.1 ∉ readOnlyRegisters) →
          let legal := f.2 &&& ~~~(BitVec.ofNat 64 e.2.2) = 0 ∧
            (e.1 = 0xB → s.me.mode ≠ 0 → f.2.toNat / 4 % 4 ≠ 2 ∧ f.2.toNat / 4 % 4 ≤ s.me.mode)
          (¬ legal → exec f.1 s = .next (trapOpen .reservedField s)) ∧
          (legal → ∃ t, exec f.1 s = .next t ∧ WritesG d e.2.1 s t ∧ Completed 4 4 s t ∧ Written e.1 f.2 s t ∧
            OnlyCores s t ∧ OtherCores s.actor.core s t ∧ OtherThreads s t))) ∧
    (s.me.mode = 0 → 8 * hi + lo = 0x20 → ∀ i ∈ [Instr.csrr d hi lo, .csrw d a hi lo, .csrs d a hi lo, .csrc d a hi lo],
      exec i s = .next (trapOpen .privileged s)) ∧
    ((∀ e ∈ controlRegisters s, e.1 ≠ 8 * hi + lo) →
      ∀ i ∈ [Instr.csrr d hi lo, .csrw d a hi lo, .csrs d a hi lo, .csrc d a hi lo],
        exec i s = .next (trapOpen .registerInvalid s))

/-- R32: an instruction that only S and M mode may issue raises PRIVILEGED in U mode (its value is free, log entry 11). -/
def Sys2Proof.Claims.PrivilegeTraps : Prop :=
  ∀ (s : State) (d a b q : Nat), s.me.mode = 0 → ∀ i ∈ privilegedForms d a b q, exec i s = .next (trapOpen .privileged s)

/-- R29, R32, R136, R137: forms that the thread, trap and supervisor classes refuse. -/
def Obligations.RefusedForms : Prop := Sys2Proof.Claims.ThreadTraps ∧ Sys2Proof.Claims.PrivilegeTraps


/-- R384 to R387: a context image holds each register at its offset; CTXSAVE writes the image of a held or halted thread, CTXLOAD
loads one that passes its check into such a thread, which stays as it is; TLBINV drops the translations that its scope names
from every cluster. All three answer later. -/
def Obligations.ContextImages : Prop :=
  (∀ c : Ctx, let im := imageOf c
    im.length = 1024 ∧ (∀ r, 1 ≤ r → r < 32 → imageNat im (8 * (r - 1)) 8 = (c.rg r).toNat) ∧ imageNat im 0xF8 8 = c.pc.toNat ∧
    (∀ r < 16, imageNat im (0x100 + 32 * r) 32 = (c.rv r).toNat) ∧ (∀ r < 8, imageNat im (0x300 + 8 * r) 8 = (c.re r).toNat) ∧
    (∀ r, 1 ≤ r → r < 8 → imageNat im (0x340 + 4 * (r - 1)) 4 = (c.rp r).toNat) ∧ imageNat im 0x35C 4 = 0 ∧
    imageNat im 0x360 8 = c.xpc.toNat ∧ imageNat im 0x368 8 = c.xval.toNat ∧ imageNat im 0x370 8 = c.xvec.toNat ∧
    imageNat im 0x378 4 = c.xcause.toNat ∧ imageNat im 0x37C 4 = c.xstat.toNat ∧ imageNat im 0x380 4 = c.fpc.toNat ∧
    imageNat im 0x384 4 = c.prio.toNat ∧ imageNat im 0x388 4 = c.ctxid.toNat ∧ imageNat im 0x38C 4 = c.rank.toNat ∧
    imageNat im 0x390 4 = c.gsize.toNat ∧ imageNat im 0x394 4 = c.crewsz.toNat ∧ imageNat im 0x398 4 = c.felim.toNat ∧
    imageNat im 0x39C 2 = c.crewSlot.toNat ∧ imageNat im 0x39E 2 = c.codeId.toNat ∧
    imageNat im 0x3A0 4 = c.parkWord % 2 ^ 32 ∧ imageNat im 0x3A4 1 = (c.bindU + 8 * c.bindV) % 256 ∧ imageNat im 0x3A5 3 = 0 ∧
    imageNat im 0x3A8 8 = c.held28.toNat ∧ imageNat im 0x3B0 8 = c.held29.toNat ∧ imageNat im 0x3B8 8 = 0 ∧
    ∀ i < 4, imageNat im (0x3C0 + 16 * i) 8 = ((c.pend[i]?).map fun p => (p.cause + 2 ^ 15) % 2 ^ 64).getD 0 ∧
      imageNat im (0x3C8 + 16 * i) 8 = ((c.pend[i]?).map fun p => p.xval.toNat).getD 0) ∧
  (∀ (s : State) (a b q : Nat) (x : Actor) (tr : TlbEntry), mayHandle s a b q x tr 2 →
    ∃ t, exec (.ctxsave a b q) s = .next t ∧ AnsweredLater 0 q 0 true s t ∧ t.ctx? x = s.ctx? x ∧
      ∀ pa, t.physByte pa =
        if tr.physOf (s.me.rg b).toNat ≤ pa ∧ pa < tr.physOf (s.me.rg b).toNat + 1024
        then (imageOf (s.ctx x)).getD (pa - tr.physOf (s.me.rg b).toNat) 0 else s.physByte pa) ∧
  (∀ (s : State) (a b q : Nat) (x : Actor) (tr : TlbEntry) (im : List Byte), mayHandle s a b q x tr 1 → im.length = 1024 →
    (∀ i < 1024, s.physByte (tr.physOf (s.me.rg b).toNat + i) = im.getD i 0) → checkImage im (s.ctx x).mode = none →
    ∃ t, exec (.ctxload a b q) s = .next t ∧ AnsweredLater 0 q 0 true s t ∧ t.dram = s.dram ∧
      (∀ y, y ≠ x → y ≠ s.actor → t.ctx? y = s.ctx? y) ∧
      let c := s.ctx x
      let c' := t.ctx x
      (∀ r, 1 ≤ r → r < 32 → (c'.rg r).toNat = imageNat im (8 * (r - 1)) 8) ∧ c'.pc.toNat = imageNat im 0xF8 8 ∧
      (∀ r < 16, (c'.rv r).toNat = imageNat im (0x100 + 32 * r) 32) ∧ (∀ r < 8, (c'.re r).toNat = imageNat im (0x300 + 8 * r) 8) ∧
      (∀ r, 1 ≤ r → r < 8 → (c'.rp r).toNat = imageNat im (0x340 + 4 * (r - 1)) 4) ∧
      c'.xpc.toNat = imageNat im 0x360 8 ∧ c'.xval.toNat = imageNat im 0x368 8 ∧ c'.xvec.toNat = imageNat im 0x370 8 ∧
      c'.xcause.toNat = imageNat im 0x378 4 ∧ c'.xstat.toNat % 4096 = imageNat im 0x37C 4 ∧
      c'.fpc.toNat = imageNat im 0x380 4 ∧ c'.priority = min (imageNat im 0x384 4 % 16) c.ceil ∧ c'.ceil = c.ceil ∧
      c'.felim.toNat = imageNat im 0x398 4 ∧ c'.codeId.toNat = imageNat im 0x39E 2 ∧
      c' = { c with
        g := c'.g, v := c'.v, e := c'.e, p := c'.p, pc := c'.pc, xpc := c'.xpc, xval := c'.xval, xvec := c'.xvec,
        xcause := c'.xcause, xstat := c'.xstat, fpc := c'.fpc, prio := c'.prio, felim := c'.felim, codeId := c'.codeId,
        pend := imagePending im }) ∧
  ∀ (s : State) (a b part kind : Nat), s.me.mode ≠ 0 → plainRegs s [a, b] → (s.me.rg b).toNat = part + 64 * kind → part < 64 →
    kind < 3 → (s.part part).valid = true → (s.part part).kernel = s.kernelOf s.actor.core →
    ∃ t, exec (.tlbinv a b) s = .next t ∧ AnsweredLater 0 0 0 true s t ∧ t.dram = s.dram ∧
      ∀ g, (t.cluster g).tlb = (s.cluster g).tlb.filter fun e =>
        !(if kind = 0 then e.covers part (s.me.rg a).toNat else if kind = 1 then e.space == part else true)

namespace Sys2Proof.Claims

/-! ### Debugging, errors and the host -/

/-- The first two words of a snapshot block: TIME, and the tag with the cause above it (R436). -/
def BlockHead (s : State) (tag cause : Nat) (b : List Word) : Prop :=
  b.getD 0 0 = BitVec.ofNat 64 s.time ∧ b.getD 1 0 = BitVec.ofNat 64 (tag % 2 ^ 16 + 2 ^ 16 * cause)

/-- Every block of the snapshot window holds a new snapshot (R394, R436). -/
def Latched (tag cause : Nat) (s t : State) : Prop :=
  t.plat.lastFiring = some s.now ∧
    ∀ i, i < 4105 ∨ (4112 ≤ i ∧ i < 4382) → ∃ b, Tbl.get? t.plat.snapshot i = some b ∧ BlockHead s tag cause b

/-- The last firing is long enough ago. -/
def mayFire (s : State) : Prop := ∀ u, s.plat.lastFiring = some u → u + 65536 ≤ s.now

/-- The stack that holds an address takes no command: it has passed 105 °C (R14, R437). -/
def isCold (s : State) (a : Nat) : Prop := frameOf a < 294912 → (Map.get 0 s.plat.stackState (a / 4096 % 12)).testBit 2 = false

/-- The host reaches a range of memory: both ends pass the deed check of kernel 0, on a stack that takes commands. -/
def hostReaches (s : State) (addr n : Nat) : Prop :=
  0 < n ∧ n ≤ 8 ∧ inHub addr = false ∧
    ∀ a ∈ [addr, addr + n - 1], s.deedCheck 0 (frameOf a) = none ∧ s.refuses 0 (frameOf a) = false ∧ isCold s a

/-- Kernel `n` has a fault queue that is not absent (R375): BASE and LOG2N are set as it may be, and it holds the frame. -/
def hasQueue (s : State) (n : Nat) : Prop :=
  let b := (s.faultQueue n).base.toNat
  let base := b / 2 ^ 12 % 2 ^ 36 * 2 ^ 12
  base ≠ 0 ∧ 7 ≤ b / 2 ^ 48 % 16 ∧ s.deedCheck n (base / 2 ^ 21) = none

/-- A stack can hold a byte, on a page with the die-local attribute or without it (R14). -/
def onStack (stack a : Nat) : Prop := frameOf a < 294912 ∧ (a / 4096 % 12 = stack ∨ 3 * (stack / 3) + a / 4096 % 3 = stack)

/-- An entry of an access-control table lets a device with a domain tag read a frame (R439). -/
def letsRead (w0 w1 dev tag f : Nat) : Prop :=
  let base := w1 / 2 ^ 21 % 2 ^ 27
  let log2 := w1 / 2 ^ 48 % 64
  w0 % 2 = 1 ∧ (w0 / 2 ^ 15 % 2 = 1 ∨ w0 / 2 % 2 ^ 14 = dev) ∧ w0 / 2 ^ 16 % 2 ^ 16 = tag ∧ 21 ≤ log2 ∧ log2 ≤ 35 ∧
    base ≤ f ∧ f < base + 2 ^ (log2 - 21)

/-- A direct read that its stack serves: every byte lies on the stack, in a frame that is not ZERO_ON_READ and in the range of an
entry that allows it (R409, R439). -/
def mayReadDirect (s : State) (stack dev tag addr len : Nat) : Prop :=
  stack < 12 ∧ (Map.get 0 s.plat.stackState stack).testBit 2 = false ∧ ∀ a, addr ≤ a → a < addr + len →
    onStack stack a ∧ (s.deed (frameOf a)).state ≠ .zeroOnRead ∧ ∃ i < 256,
      letsRead (Map.get 0 s.plat.access (512 * stack + 2 * i)).toNat (Map.get 0 s.plat.access (512 * stack + 2 * i + 1)).toNat
        dev tag (frameOf a)

/-- Aligned 64-bit registers that a control core of kernel `k` may write, with the value that a read returns after a write of
`x` (R230, R375, R392, R394, R410, R418, R420). -/
def plainRegisters (k p n x : Nat) : List (Nat × Nat) :=
  [(0xF00000400000, x % 2 ^ 12), (0xF00000300000 + 0x20 * n, x % 2 ^ 52 / 2 ^ 12 * 2 ^ 12), (0xF00000300008 + 0x20 * n, x),
   (0xF00000300010 + 0x20 * n, x % 2 ^ 32), (0xF00000310000 + 8 * k, x % 2 ^ 48 / 2 ^ 12 * 2 ^ 12),
   (0xF00000600000 + 16 * p, x % 2 ^ 48 / 2 ^ 12 * 2 ^ 12), (0xF00000701000 + 8 * n, x)]

/-- The registers of a core's debug window that hold what is written to them: offset and the bits they keep (R392). -/
def debugRegisters : List (Nat × Nat) :=
  [(0x20, 57), (0x28, 57), (0x30, 57), (0x38, 57), (0x40, 28), (0x48, 28)]

/-- Writes that start a step of their own: address, and the step with its arguments for a master `m` and a value `x`. -/
def startingWrites (m x : Nat) : List (Nat × Due) :=
  [(0xF00000200000, ⟨0, .qadmit, [m, x % 2 ^ 48]⟩), (0xF00000200008, ⟨0, .doorbell, [x % 2 ^ 16]⟩),
   (0xF00000700000, ⟨0, .vipost, [x]⟩), (0xF00000B00000, ⟨0, .devidWrite, [m, x]⟩),
   (0xF00000A00000, ⟨0, if x / 2 ^ 4 % 8 = 0 then .mgmtRelease else .mgmtClaim, [m, x]⟩)]

end Sys2Proof.Claims

/-- R383, R392 to R395: SNAP fires the snapshot, in U mode only while UEN is set; a firing latches every block and tells the
kernel, or every kernel with a queue for the pin, and one within 65,536 cycles of the last is ignored; the halt bits and FREEZE
are set by those who may debug; a core that has held a ready thread and issued nothing for 2^24 cycles sends a WATCHDOG record.
(That a pin's firing has tag 0, and that the watchdog's count begins again with its record, are the model's choices, log entry
33.) -/
def Obligations.Debugging : Prop :=
  (∀ (s : State) (a : Nat), acts s → plainRegs s [a] →
    (s.me.mode = 0 → s.plat.snapctl.getLsbD 11 = false → ∃ t, exec (.snap a) s = .next t ∧ NoResult (s.me.pc + 4) 4 s t) ∧
    ((s.me.mode = 0 → s.plat.snapctl.getLsbD 11 = true) → ∃ t, exec (.snap a) s = .next t ∧
      t.agenda = s.agenda ++ [⟨s.now, .snapshotFiring, [(s.me.rg a).toNat % 2 ^ 16, 512, s.spaceOf s.actor.core]⟩] ∧
      NoResult (s.me.pc + 4) 4 s { t with agenda := s.agenda })) ∧
  (∀ (s : State) (tag p : Nat), s.args = [tag, 512, p] → p < 64 →
    (mayFire s → ∃ t, exec .snapshotFiring s = .next t ∧ Latched tag 0 s t ∧ t.cores = s.cores ∧ t.dram = s.dram ∧
      Recorded (s.part p).kernel (plainRecord (causeCode .async .snapshotTaken) p 9 0 (BitVec.ofNat 64 tag) 0) s t) ∧
    (¬ mayFire s → exec .snapshotFiring s = .next s)) ∧
  (∀ s : State, s.plat.snapctl.getLsbD 10 = true → mayFire s →
    ∃ t, exec .snapshotPin s = .next t ∧ Latched 0 0 s t ∧ t.cores = s.cores ∧
      ∀ n, 1 ≤ n → n < 16 →
        (hasQueue s n → ∃ r, (t.faultQueue n).waiting = (s.faultQueue n).waiting ++ [r] ∧
          r.cause = causeCode .async .snapshotTaken ∧ r.address = 0) ∧
        (¬ hasQueue s n → (t.faultQueue n).waiting = (s.faultQueue n).waiting)) ∧
  (∀ s : State, s.plat.snapctl.getLsbD 10 = false → exec .snapshotPin s = .next s) ∧
  (∀ (s : State) (m k v : Nat), s.args = [m, k, v] → mayDebug s m = true →
    (∃ t, exec .dbghalt s = .next t ∧ (t.core k).dbgHalt = BitVec.ofNat 64 v ∧ OtherCores k s t ∧ t.dram = s.dram ∧
      ∀ n, t.ctx? ⟨k, n⟩ = (s.ctx? ⟨k, n⟩).map fun c => { c with halted := c.halted && v.testBit n }) ∧
    ∃ t, exec .dbgctl s = .next t ∧ (t.core k).dbgCtl = BitVec.ofNat 64 (v % 4) ∧ OtherCores k s t ∧ t.dram = s.dram ∧
      t.core k = { s.core k with dbgCtl := (t.core k).dbgCtl }) ∧
  (∀ (s : State) (m k v : Nat), s.args = [m, k, v] → mayDebug s m = false →
    exec .dbghalt s = .next s ∧ exec .dbgctl s = .next s) ∧
  ∀ (s : State) (k : Nat) (e : Nat × Ctx) (rest : List (Nat × Ctx)), s.args = [k] → waitingThreads s k = e :: rest →
    ((s.core k).nextIssue + 2 ^ 24 ≤ s.now + 1 → (s.core k).readySince + 2 ^ 24 ≤ s.now → ∃ t, exec .watchdog s = .next t ∧
      t.core k = { s.core k with nextIssue := s.now + 1 } ∧ OtherCores k s t ∧
      Recorded (s.kernelOf k) (plainRecord (causeCode .async .watchdog) (s.recordPart k) 9 e.2.handle 0 (dieOf k)) s t) ∧
    (s.now + 1 < (s.core k).nextIssue + 2 ^ 24 ∨ s.now < (s.core k).readySince + 2 ^ 24 → exec .watchdog s = .next s)

namespace Sys2Proof.Claims

/-- A local store is retired: its threads stop, each at its next boundary, and those that drain go on; the step that stops those that
have not reached theirs is due again. -/
def Retires (k w : Nat) (s t : State) : Prop :=
  (t.core k).retired = true ∧ (t.core k).ls = (s.core k).ls ∧ ∀ n c, s.ctx? ⟨k, n⟩ = some c →
    (c.isDraining = true → t.ctx? ⟨k, n⟩ = some c) ∧
    (hasReached s ⟨k, n⟩ c = false → t.ctx? ⟨k, n⟩ = some c ∧ ⟨s.now + 1, .lsCorrectedWriteback, [k, w]⟩ ∈ t.agenda) ∧
    (c.isDraining = false → hasReached s ⟨k, n⟩ c = true → ∃ c', t.ctx? ⟨k, n⟩ = some c' ∧ c'.g = c.g ∧ c'.pc = c.pc ∧
      ∃ d q, c'.status = .held d q)

end Sys2Proof.Claims

/-- R183, R184, R442: a single-bit error marks its word, which is right again once written back; an uncorrectable error marks
its word. Either retires the store if it comes again after a healing write: its threads stop at their next boundary, those that
drain go on, and the kernel is told; a DRAM error marks its 8-byte word. (One record for the store, what it
names, the held threads' XVAL, and that a write-back counts as a healing write, are the model's choices, log entry 12.) -/
def Sys2Proof.Claims.MemoryErrors : Prop :=
  (∀ (s : State) (k w : Nat), s.args = [k, w, 0] → ∃ t, exec .localStoreEccError s = .next t ∧ w ∈ (t.core k).lsSingle ∧
    (∀ v, v ≠ w → (v ∈ (t.core k).lsSingle ↔ v ∈ (s.core k).lsSingle)) ∧ OtherCores k s t ∧ t.dram = s.dram ∧
    t.core k = { s.core k with lsSingle := (t.core k).lsSingle }) ∧
  (∀ (s : State) (k w : Nat), s.args = [k, w, 1] → w ∉ (s.core k).lsHealed →
    ∃ t, exec .localStoreEccError s = .next t ∧ w ∈ (t.core k).lsBad ∧
      (∀ v, v ≠ w → (v ∈ (t.core k).lsBad ↔ v ∈ (s.core k).lsBad)) ∧ OtherCores k s t ∧
      t.core k = { s.core k with lsBad := (t.core k).lsBad }) ∧
  (∀ (s : State) (k w : Nat), s.args = [k, w, 1] → w ∈ (s.core k).lsHealed → (s.core k).retired = false →
    (∀ e ∈ (s.core k).threads, e.2.gang = none) →
    ∃ t, exec .localStoreEccError s = .next t ∧ Retires k w s t ∧
      Recorded (s.kernelOf k) (plainRecord (causeCode .async .lsRetired) (s.recordPart k) 6 0 (word (4 * w)) (dieOf k)) s t) ∧
  (∀ (s : State) (k w : Nat), s.args = [k, w] → ∃ t, exec .lsCorrectedWriteback s = .next t ∧ w ∉ (t.core k).lsSingle ∧
    (∀ v, v ≠ w → (v ∈ (t.core k).lsSingle ↔ v ∈ (s.core k).lsSingle)) ∧
    (∀ v, v ∈ (t.core k).lsHealed ↔ v ∈ (s.core k).lsHealed ∨ (v = w ∧ w ∈ (s.core k).lsSingle)) ∧
    let again := w ∈ (s.core k).lsSingle ∧ w ∈ (s.core k).lsHealed
    ((s.core k).retired = false → ¬ again → OtherCores k s t ∧
      t.core k = { s.core k with lsSingle := (t.core k).lsSingle, lsHealed := (t.core k).lsHealed }) ∧
    ((s.core k).retired = true ∨ again → (∀ e ∈ (s.core k).threads, e.2.gang = none) → Retires k w s t) ∧
    ((s.core k).retired = false → again → (∀ e ∈ (s.core k).threads, e.2.gang = none) →
      Recorded (s.kernelOf k) (plainRecord (causeCode .async .lsRetired) (s.recordPart k) 6 0 (word (4 * w)) (dieOf k)) s t)) ∧
  ∀ (s : State) (a : Nat), s.args = [a] → ∃ t, exec .dramEccError s = .next t ∧ t = { s with dramBad := t.dramBad } ∧
    ∀ w, w ∈ t.dramBad ↔ w = a / 8 ∨ w ∈ s.dramBad

/-- R259, R401, R215, R232, R439, R8, R443: a host's access to memory that kernel 0 holds is performed, and one that it does not
hold is refused with an access fault; a window access reads or writes a core's local store and no word state; a direct read
returns memory if the stack holds it and its table allows it, once DEVID is written; a register keeps its RW bits, or its write
starts its step. (What a refused access returns, and that a host's access fails at a stack that takes no command, are the model's
choices, log entries 3, 34 and 36; what a window does at a bad word, log entry 12; that a stack serves a direct read under either
interleave, log entry 50.) -/
def Sys2Proof.Claims.HostAccess : Prop :=
  (∀ (s : State) (m addr n w v : Nat), s.args = [m, addr, n, w, v] → hostReaches s addr n →
    (∀ i < n, (addr + i) / 8 ∉ s.dramBad) →
    (w = 0 → ∃ t, exec .hostMemoryAccess s = .next t ∧ t.lastFault = false ∧
      t = { s with lastLoad := t.lastLoad, lastFault := false } ∧
      ∀ i < 64, t.lastLoad.getLsbD i = if i < 8 * n then (s.physByte (addr + i / 8)).getLsbD (i % 8) else false) ∧
    (w = 1 → ∃ t, exec .hostMemoryAccess s = .next t ∧ t.lastFault = false ∧ t.lastLoad = s.lastLoad ∧ t.cores = s.cores ∧
      ∀ a, t.physByte a =
        if addr ≤ a ∧ a < addr + n then BitVec.ofNat 8 (v / 256 ^ (a - addr)) else s.physByte a)) ∧
  (∀ (s : State) (m addr n w v : Nat), s.args = [m, addr, n, w, v] → inHub addr = false → 0 < n →
    (s.deedCheck 0 (frameOf addr)).isSome = true ∨ ¬ isCold s addr →
    ∃ t, exec .hostMemoryAccess s = .next t ∧ t = { s with lastLoad := t.lastLoad, lastFault := true } ∧
      (w = 0 → t.lastLoad = BitVec.ofNat 64 (2 ^ (8 * n) - 1)) ∧ (w ≠ 0 → t.lastLoad = s.lastLoad)) ∧
  (∀ (s : State) (addr n w v k off : Nat), s.args = [addr, n, w, v] → storeAt addr = some (k, off) → n ∈ [4, 8] → off % n = 0 →
    off + n ≤ lsLimit k → lsSound s k off n →
    (w = 0 → ∃ t, exec .lsWindowAccess s = .next t ∧ t = { s with lastLoad := t.lastLoad, lastFault := false } ∧
      ∀ i < 64, t.lastLoad.getLsbD i =
        if i < 8 * n then (Map.get 0 (s.core k).ls (off + i / 8)).getLsbD (i % 8) else false) ∧
    (w = 1 → ∃ t, exec .lsWindowAccess s = .next t ∧ OtherCores k s t ∧ t.dram = s.dram ∧
      t.core k = { s.core k with ls := (t.core k).ls } ∧
      ∀ a, Map.get 0 (t.core k).ls a =
        if off ≤ a ∧ a < off + n then BitVec.ofNat 8 (v / 256 ^ (a - off)) else Map.get 0 (s.core k).ls a)) ∧
  (∀ die n off : Nat, die < 4 → n < 1024 → off < 2 ^ 20 →
    storeAt (0xF20000000000 + 2 ^ 30 * die + 2 ^ 20 * n + off) = some (1024 * die + n, off)) ∧
  (∀ (s : State) (stack dev tag addr len : Nat), s.args = [stack, dev, tag, addr, len] → 0 < len →
    (s.plat.devidWritten = true → mayReadDirect s stack dev tag addr len → (∀ i < len, (addr + i) / 8 ∉ s.dramBad) →
      ∃ t bs, exec .directRead s = .next t ∧ t = { s with lastDirect := some bs } ∧ bs.length = len ∧
        ∀ i < len, bs.getD i 0 = s.physByte (addr + i)) ∧
    (s.plat.devidWritten = true → ¬ mayReadDirect s stack dev tag addr len → exec .directRead s = .next { s with lastDirect := none }) ∧
    (s.plat.devidWritten = false → exec .directRead s = .next s)) ∧
  (∀ (s : State) (m k p n x : Nat), isControlMaster m = true → s.controlKernel (m - 8) = k → 1 ≤ k → k < 16 → p < 64 →
    (s.part p).valid = true → (s.part p).kernel = k → 1 ≤ n → n < 16 → x < 2 ^ 64 →
    ∀ r ∈ plainRegisters k p n x, s.args = [m, r.1, 8, x] → ∃ t, exec .registerWrite s = .next t ∧
      hubRead t m r.1 8 = r.2 ∧ t.cores = s.cores ∧ t.dram = s.dram) ∧
  (∀ (s : State) (m die n x : Nat), mayDebug s m = true → die < 4 → n < 1024 → ∀ r ∈ debugRegisters,
    s.args = [m, 0xF30000000000 + 2 ^ 26 * die + 2 ^ 16 * n + r.1, 8, x] → ∃ t, exec .registerWrite s = .next t ∧
      hubRead t m (0xF30000000000 + 2 ^ 26 * die + 2 ^ 16 * n + r.1) 8 = x % 2 ^ r.2 ∧ OtherCores (1024 * die + n) s t ∧
      (t.core (1024 * die + n)).threads = (s.core (1024 * die + n)).threads) ∧
  (∀ (s : State) (m x : Nat), isControlMaster m = true → ∀ r ∈ startingWrites m x, s.args = [m, r.1, 8, x] →
    exec .registerWrite s = .next { s with agenda := s.agenda ++ [{ r.2 with at_ := s.now }] }) ∧
  ∀ (s : State) (m k p n x size : Nat), ∀ r ∈ plainRegisters k p n x, size ≠ 8 → n < 16 → p < 64 → k < 16 →
    s.args = [m, r.1, size, x] → exec .registerWrite s = .next s

/-- R183, R184, R215, R232, R259, R442, R443: memory errors, and what hosts and devices do to the machine. -/
def Obligations.HostAndErrors : Prop := Sys2Proof.Claims.MemoryErrors ∧ Sys2Proof.Claims.HostAccess


/-- R222: a TIERPF whose range is done is performed; a present page of the TIER kind in the other tier moves to a frame of the
kernel's pool: its bytes are copied, its leaf names the new frame, its cached translations go, and the entry moves on. -/
def Sys2Proof.Claims.TierMigration : Prop :=
  ∀ (s : State) (k len dir : Nat) (e : Entry), s.args = [k, e.id] → hasEntry s k e → e.op = .tierpf len dir → e.state = .sent →
    (len ≤ e.moved → ∃ t, exec .tierMigratePage s = .next t ∧ t.dram = s.dram ∧
      ∃ e', t.entry? k e.id = some e' ∧ e'.state = .performed) ∧
    ∀ (l : Leaf) (f : Nat), e.moved < len →
      let sp := s.spaceOf k
      let va := e.rem.toNat + e.moved
      sp < 64 → s.linkAllowed sp = true → allCold s → s.rootOf sp ≠ 0 → walkFrom s va 5 (s.rootOf sp) = .ok l → l.log2 = 21 → l.device = s.plat.devid →
      l.tier = true → inHub l.phys = false → (decide (524288 ≤ frameOf l.phys) == (dir == 1)) = false →
      s.physBad l.phys (2 ^ 21) = none → inRanges f = true →
      ((s.part sp).pool.filter fun x => decide (524288 ≤ x) == (dir == 1)) = [f] →
      (∀ i < 8, frameOf (l.at_ + i) ≠ f) →
      ∃ t e', exec .tierMigratePage s = .next t ∧
        (∀ i < 2 ^ 21, t.physByte (f * 2 ^ 21 + i) = s.physByte (l.phys + i)) ∧
        t.physRead l.at_ 8 / 2 ^ 8 % 2 ^ 40 = f * 2 ^ 13 ∧ t.physRead l.at_ 8 % 2 ^ 8 = s.physRead l.at_ 8 % 2 ^ 8 ∧
        f ∉ (t.part sp).pool ∧ (∀ g, t.cached g sp va = none) ∧ t.entry? k e.id = some e' ∧ e'.state = .sent ∧
        e'.rem = e.rem ∧ e.rem.toNat + e'.moved = (va / 2 ^ 21 + 1) * 2 ^ 21

/-- R211, R222 to R226: entries are served, migrate pages, complete and fail. -/
def Obligations.CopyPerformance : Prop := Sys2Proof.Claims.CopyService ∧ Sys2Proof.Claims.CopyEnds ∧ Sys2Proof.Claims.TierMigration


namespace Sys2Proof.Claims

/-! ### Deeds -/

/-- The codes of STATE (R400). -/
def stateCodes : List (DeedState × Nat) := [(.owned, 0), (.offered, 1), (.lent, 2), (.recalling, 3), (.zeroOnRead, 4)]

/-- A word shows a deed entry as DQUERY returns it (R400): OTHER is the offeree or borrower while there is one, else the last
borrower. -/
def ShowsDeed (w : Nat) (e : Deed) : Prop :=
  (e.state, w % 8) ∈ stateCodes ∧ w / 8 % 2 = (if e.transit then 1 else 0) ∧ w / 2 ^ 4 % 16 = e.owner ∧
    w / 2 ^ 8 % 16 = (if e.state ∈ [.offered, .lent, .recalling] then e.other else e.borrower) ∧ w / 2 ^ 12 % 4 = e.ended ∧ w / 2 ^ 14 % 2 = (if e.clear then 1 else 0) ∧
    w / 2 ^ 16 % 256 = e.breaches ∧ w / 2 ^ 32 = e.deadline

/-- The fields of an entry lie in their ranges. -/
def inFields (e : Deed) : Prop := e.owner < 16 ∧ e.other < 16 ∧ e.borrower < 16 ∧ e.ended < 4 ∧ e.breaches < 256 ∧ e.deadline < 2 ^ 24

/-- A deed instruction on frame `f` that nothing stops: S or M mode on a core with a kernel, a frame of R13 that is not
reserved, and no transit under way. -/
def mayDeed (s : State) (fields : List Nat) (a f : Nat) : Prop :=
  s.me.mode ≠ 0 ∧ plainRegs s fields ∧ s.actor.core ≠ umpireKey ∧ (s.me.rg a).toNat = f * 2 ^ 21 ∧ inRanges f = true ∧
    isReserved f = false ∧ (s.deed f).transit = false

/-- A command of the host deed port on frame `f` that nothing stops, with the operands of its slot. -/
def mayPort (s : State) (slot f : Nat) (arg : Word) : Prop :=
  s.args = [slot, f * 2 ^ 21, arg.toNat] ∧ inRanges f = true ∧ isReserved f = false ∧ (s.deed f).transit = false

/-- The entry of frame `f` becomes `e`, but for the mark of a revocation at its home; every other entry stays. -/
def DeedBecomes (f : Nat) (e : Deed) (s t : State) : Prop :=
  t.deed f = { e with refused := (t.deed f).refused } ∧ ∀ g, g ≠ f → t.deed g = s.deed g

/-- A deed event (R407) is recorded for a kernel. -/
def DeedEvent (kernel code cause f : Nat) (address : Word) (s t : State) : Prop :=
  Recorded kernel { plainRecord cause 0xFF 8 0 address 0 with frame := f * 2 ^ 21, event := code } s t

/-- A deed event of a code and no cause is recorded for a kernel, whatever its place among the die's records. -/
def Told (kernel code f : Nat) (s t : State) : Prop :=
  ∃ r : FRecord, (if kernel = 0 then t.hub.hostRecords = s.hub.hostRecords ++ [r]
    else (t.faultQueue kernel).waiting = (s.faultQueue kernel).waiting ++ [r]) ∧
    r.event = code ∧ r.cause = 0 ∧ r.frame = f * 2 ^ 21 ∧ r.access = 8

/-- No fault is left that stalls on a transit of the frame (R401). -/
def NoneStalls (f : Nat) (t : State) : Prop :=
  ∀ d < 4, ∀ x ∈ (t.die d).keys, ¬ (x.cause = causeCode .access .deedScrubbing ∧ x.frame = f * 2 ^ 21)

/-- No cached translation of the frame is left to the kernel. -/
def Shot (f k : Nat) (s t : State) : Prop :=
  ∀ g, ∀ x ∈ (t.cluster g).tlb, x.reaches f = true → x.device = s.plat.devid → s.spaceKernel x.space ≠ k

/-- A transit begins: the entry is in transit, what takes effect at its end is noted, the loser's translations of the frame are
dropped, and the end is due. -/
def TransitBegins (f op loser : Nat) (client : DeedClient) (s t : State) : Prop :=
  DeedBecomes f { s.deed f with transit := true } s t ∧ t.dram = s.dram ∧
    (∃ u, Tbl.get? t.hub.transits f = some u ∧ u.op = op ∧ u.client = client) ∧
    (⟨s.now, .deedTransitEnd, [f]⟩ : Due) ∈ t.agenda ∧
    Shot f loser s t

/-- The answer reaches the client of a deed operation: a thread's is on its way, a port's RESULT is written. -/
def ClientTold (c : DeedClient) (value : Nat) (t : State) : Prop :=
  match c with
  | .thread k n d q => ∃ x ∈ t.net, x.payload = .status ⟨k, n⟩ d q (BitVec.ofNat 64 value) (value == 0) ∧ x.dst = k
  | .port slot => ∃ p, Tbl.get? t.hub.port slot = some p ∧ p.result = BitVec.ofNat 64 value
  | .hub => True

/-- What each operation does for kernel `k` on a frame with entry `e` and operand `arg`, where it succeeds at once: whether it
may, the new entry, and the event's kernel, code, cause and address (R405). -/
def deedEffects (s : State) (k : Nat) (arg : Word) (e : Deed) : List (Nat × Prop × Deed × Nat × Nat × Nat × Word) :=
  let x := arg.toNat
  let due := s.time + 1000 * e.deadline
  [(0, e.owner = k ∧ e.state = .owned ∧ x < 32 ∧ x % 16 ≠ k,
      { e with state := .offered, other := x % 16, clear := x / 16 == 1 }, x % 16, 1, 0, 0),
   (2, e.state = .offered ∧ (e.other = k ∨ e.owner = k), { e with state := .owned, clear := false },
      if e.owner = k then e.other else e.owner, 3, 0, 0),
   (3, e.owner = k ∧ e.state = .owned ∧ x % 16 ≠ k ∧ x / 32 % 8 = 0 ∧ x / 2 ^ 32 = 0 ∧ 1 ≤ x / 256 ∧ x / 256 ≤ 16000000 ∧
        (x / 16 % 2 = 0 ∨ Map.get 0 s.hub.breachk (x % 16) = 0),
      { e with state := .lent, other := x % 16, borrower := x % 16, deadline := x / 256, ended := 0 }, x % 16, 8, 0, 0),
   (4, e.owner = k ∧ e.state = .lent, { e with state := .recalling, due := due }, e.other, 4,
      causeCode .async .recallNotice, BitVec.ofNat 64 due)]

/-- When an operation answers a status other than 0 and changes no entry (R405). -/
def deedFailures (k : Nat) (arg : Word) (s : State) (e : Deed) : List (Nat × Prop × Nat) :=
  let x := arg.toNat
  let offer := x < 32 ∧ x % 16 ≠ k
  let lend := x % 16 ≠ k ∧ x / 32 % 8 = 0 ∧ x / 2 ^ 32 = 0 ∧ 1 ≤ x / 256 ∧ x / 256 ≤ 16000000
  [(0, offer ∧ e.owner ≠ k, 1), (0, offer ∧ e.owner = k ∧ e.state ≠ .owned, 2),
   (1, ¬ (e.state = .offered ∧ e.other = k), 1), (2, ¬ (e.state = .offered ∧ (e.other = k ∨ e.owner = k)), 1),
   (3, lend ∧ e.owner ≠ k, 1), (3, lend ∧ e.owner = k ∧ e.state ≠ .owned, 2),
   (3, lend ∧ e.owner = k ∧ e.state = .owned ∧ x / 16 % 2 = 1 ∧ Map.get 0 s.hub.breachk (x % 16) ≠ 0, 3),
   (4, ¬ (e.owner = k ∧ e.state = .lent), 1),
   (5, ¬ (e.owner = k ∧ e.state = .owned) ∧ ¬ (e.other = k ∧ (e.state = .lent ∨ e.state = .recalling ∧ s.time < e.due)), 1)]

/-- The deed instructions by operation. -/
def deedForms (d a b q : Nat) : List (Nat × Instr) :=
  [(0, .doffer d a b q), (1, .daccept d a q), (2, .dreject d a q), (3, .dlend d a b q), (4, .drecall d a q), (5, .drelease d a q)]

/-- The commands of the host deed port by operation (R408). -/
def portForms : List (Nat × Instr) :=
  [(0, .dpcmdDoffer), (1, .dpcmdDaccept), (2, .dpcmdDreject), (3, .dpcmdDlend), (4, .dpcmdDrecall), (5, .dpcmdDrelease)]

/-- What a kernel is shown of a frame (R405): 5 outside R13, 7 for a reserved frame, 6 for one that is not its own, else the
entry. -/
def Shown (s : State) (k f w : Nat) : Prop :=
  let e := s.deed f
  if inRanges f = false then w = 5 else if isReserved f = true then w = 7
  else if e.owner = k ∨ (e.other = k ∧ e.state ∈ [.offered, .lent, .recalling]) then inFields e → ShowsDeed w e
  else w = 6

end Sys2Proof.Claims

/-- R401, R403 to R405: each deed instruction parks for its answer; where it may, DOFFER, DREJECT, DLEND and DRECALL change the
entry at once and tell the other kernel, DACCEPT and a borrower's DRELEASE begin a transit, an owner's DRELEASE makes the frame
zero-on-read; where it may not, the answer is a status and the entry stays. DQUERY answers what the kernel is shown. -/
def Obligations.Deeds : Prop :=
  (∀ (s : State) (d a b q f : Nat), mayDeed s [d, a, b] a f → q ≠ 0 → ∀ i ∈ deedForms d a b q,
    let k := s.kernelOf s.actor.core
    let e := s.deed f
    let client : DeedClient := .thread s.actor.core s.actor.thread d q
    (∀ x ∈ deedEffects s k (s.me.rg b) e, x.1 = i.1 → x.2.1 → ∃ t, exec i.2 s = .next t ∧ AnsweredLater d q 0 true s t ∧
      DeedBecomes f x.2.2.1 s t ∧ DeedEvent x.2.2.2.1 x.2.2.2.2.1 x.2.2.2.2.2.1 f x.2.2.2.2.2.2 s t ∧ t.dram = s.dram) ∧
    (∀ x ∈ deedFailures k (s.me.rg b) s e, x.1 = i.1 → x.2.1 → ∃ t, exec i.2 s = .next t ∧
      AnsweredLater d q (BitVec.ofNat 64 x.2.2) false s t ∧ (∀ g, t.deed g = s.deed g) ∧ t.dram = s.dram) ∧
    (i.1 = 1 → e.state = .offered → e.other = k → ∃ t, exec i.2 s = .next t ∧ ParksForReply s t ∧
      TransitBegins f 1 e.owner client s t) ∧
    (i.1 = 5 → e.owner ≠ k → e.other = k → (e.state = .lent ∨ e.state = .recalling ∧ s.time < e.due) → ∃ t, exec i.2 s = .next t ∧ ParksForReply s t ∧
      TransitBegins f 5 k client s t) ∧
    (i.1 = 5 → e.owner = k → e.state = .owned → ∃ t, exec i.2 s = .next t ∧ AnsweredLater d q 0 true s t ∧
      DeedBecomes f { e with state := .zeroOnRead } s t ∧
      (∀ x, frameOf x = f → t.physByte x = 0) ∧ (∀ x, frameOf x ≠ f → t.physByte x = s.physByte x))) ∧
  ∀ (s : State) (d a f : Nat), s.me.mode ≠ 0 → plainRegs s [d, a] → s.actor.core ≠ umpireKey →
    (s.me.rg a).toNat = f * 2 ^ 21 → f < 2 ^ 27 →
    ∃ t w, exec (.dquery d a) s = .next t ∧ ParksForReply s t ∧ Shown s (s.kernelOf s.actor.core) f w ∧
      (∃ x ∈ t.net, x.payload = .plain s.actor d (BitVec.ofNat 64 w) ∧ x.dst = s.actor.core) ∧ ∀ g, t.deed g = s.deed g

/-- R408: a write of DPCMD starts its command with the operands that the slot holds, OP 7 gives 0xFF at once, and a busy slot
ignores it; each command acts for kernel 0 as its instruction does and writes RESULT; an operand that would trap gives 0xFF. -/
def Sys2Proof.Claims.DeedPort : Prop :=
  (∀ (s : State) (slot f : Nat) (arg : Word), mayPort s slot f arg →
    let e := s.deed f
    (∀ i ∈ portForms,
      (∀ x ∈ deedEffects s 0 arg e, x.1 = i.1 → x.2.1 → ∃ t, exec i.2 s = .next t ∧ ClientTold (.port slot) 0 t ∧
        DeedBecomes f x.2.2.1 s t ∧ DeedEvent x.2.2.2.1 x.2.2.2.2.1 x.2.2.2.2.2.1 f x.2.2.2.2.2.2 s t ∧ t.cores = s.cores) ∧
      (∀ x ∈ deedFailures 0 arg s e, x.1 = i.1 → x.2.1 → ∃ t, exec i.2 s = .next t ∧ ClientTold (.port slot) x.2.2 t ∧
        (∀ g, t.deed g = s.deed g)) ∧
      (i.1 = 1 → e.state = .offered → e.other = 0 → ∃ t, exec i.2 s = .next t ∧ TransitBegins f 1 e.owner (.port slot) s t) ∧
      (i.1 = 5 → e.owner ≠ 0 → e.other = 0 → (e.state = .lent ∨ e.state = .recalling ∧ s.time < e.due) → ∃ t, exec i.2 s = .next t ∧
        TransitBegins f 5 0 (.port slot) s t) ∧
      (i.1 = 5 → e.owner = 0 → e.state = .owned → ∃ t, exec i.2 s = .next t ∧ ClientTold (.port slot) 0 t ∧
        DeedBecomes f { e with state := .zeroOnRead } s t)) ∧
    ∃ t w, exec .dpcmdDquery s = .next t ∧ Shown s 0 f w ∧ ClientTold (.port slot) w t ∧ (∀ g, t.deed g = s.deed g)) ∧
  (∀ (s : State) (slot frame arg : Nat), s.args = [slot, frame, arg] →
    (∃ t, exec .dpcmdNone s = .next t ∧ ClientTold (.port slot) 0xFF t ∧ t.hub.deeds = s.hub.deeds) ∧
    (frame < 2 ^ 64 → frame % 2 ^ 21 ≠ 0 → ∀ i ∈ portForms,
      ∃ t, exec i.2 s = .next t ∧ ClientTold (.port slot) 0xFF t ∧ t.hub.deeds = s.hub.deeds)) ∧
  ∀ (s : State) (slot v : Nat) (p : PortSlot), slot < 64 → Tbl.get? s.hub.port slot = some p →
    s.args = [0, 0xF00000500000 + 32 * slot + 16, 8, v] →
    (p.result.getLsbD 63 = true → exec .registerWrite s = .next s) ∧
    (p.result.getLsbD 63 = false → v % 8 = 7 → ∃ t, exec .registerWrite s = .next t ∧ t = { s with hub := t.hub } ∧
      Tbl.get? t.hub.port slot = some { p with result := 0xFF }) ∧
    (p.result.getLsbD 63 = false → ∀ i ∈ portForms, v % 8 = i.1 → ∃ t, exec .registerWrite s = .next t ∧
      t.agenda = s.agenda ++ [⟨s.now, i.2, [slot, p.frame.toNat, p.arg.toNat]⟩] ∧
      Tbl.get? t.hub.port slot = some { p with result := BitVec.ofNat 64 (2 ^ 63) } ∧ t.hub.deeds = s.hub.deeds)

/-- R401, R405 to R407, R409: the end of a transit gives the frame to the acceptor, back to its owner, or, on a revocation, back
with a breach counted and both kernels told, answers the client, replays what stalled on the transit, and leaves the loser no
cached translation (one filled meanwhile goes with the end: the model's reading, log entry 32); an expired recall begins a
revocation; a zero-on-read frame becomes OWNED once it is cleared, and no byte of it reads otherwise than before. -/
def Sys2Proof.Claims.Transits : Prop :=
  (∀ (s : State) (f : Nat) (u : Transit), s.args = [f] → Tbl.get? s.hub.transits f = some u → s.plat.wiping = false →
    let e := s.deed f
    (∃ t, exec .deedTransitEnd s = .next t ∧ NoneStalls f t) ∧
    (u.op = 1 → ∃ t, exec .deedTransitEnd s = .next t ∧ ClientTold u.client 0 t ∧ Tbl.get? t.hub.transits f = none ∧
      DeedBecomes f { e with
        transit := false, owner := e.other, state := if e.clear then .zeroOnRead else .owned, clear := false } s t ∧
      DeedEvent e.owner 2 0 f 0 s t ∧ t.dram = s.dram ∧ Shot f e.owner s t) ∧
    (u.op = 5 → ∃ t, exec .deedTransitEnd s = .next t ∧ ClientTold u.client 0 t ∧
      DeedBecomes f { e with transit := false, state := .owned, ended := 1 } s t ∧ DeedEvent e.owner 5 0 f 0 s t ∧
      Shot f e.other s t) ∧
    (u.op = 7 → e.owner ≠ e.other → ∃ t, exec .deedTransitEnd s = .next t ∧
      DeedBecomes f { e with transit := false, state := .owned, ended := 2, breaches := min (e.breaches + 1) 255 } s t ∧
      Map.get 0 t.hub.breachk e.other = Map.get 0 s.hub.breachk e.other + 1 ∧
      DeedEvent e.other 7 (causeCode .async .deedBreach) f 0 s t ∧ Told e.owner 6 f s t ∧ Shot f e.other s t)) ∧
  (∀ (s : State) (f : Nat), s.args = [f] → (s.deed f).state = .recalling → (s.deed f).transit = false →
    ((s.deed f).due ≤ s.time → ∃ t, exec .recallDeadlineExpiry s = .next t ∧ TransitBegins f 7 (s.deed f).other .hub s t ∧
      t.refuses (s.deed f).other f = true) ∧
    (s.time < (s.deed f).due → exec .recallDeadlineExpiry s = .next s)) ∧
  ∀ (s : State) (f : Nat), s.args = [f] → (s.deed f).state = .zeroOnRead → s.plat.wiping = false →
    (clearsShut s f = false → ∃ t, exec .zeroOnReadCleared s = .next t ∧ DeedBecomes f { s.deed f with state := .owned } s t ∧
      (∀ x, t.physByte x = s.physByte x) ∧ DeedEvent (s.deed f).owner 9 0 f 0 s t ∧ t.cores = s.cores) ∧
    (clearsShut s f = true → exec .zeroOnReadCleared s = .next (s.post 1 .zeroOnReadCleared [f]))

/-- R404 to R409: the host deed port, transits, recalls and zero-on-read frames. -/
def Obligations.DeedPortAndTransits : Prop := Sys2Proof.Claims.DeedPort ∧ Sys2Proof.Claims.Transits


namespace Sys2Proof.Claims

/-! ### Partitions and heats -/

/-- A supervisor instruction of S or M mode on a core with a kernel. -/
def supervises (s : State) (fields : List Nat) : Prop := s.me.mode ≠ 0 ∧ plainRegs s fields ∧ isHub s.actor.core = true ∧ s.actor.core ≠ umpireKey

/-- Partition `p` is in use and held by the issuer's kernel. -/
def ownsPart (s : State) (p : Nat) : Prop :=
  p < 64 ∧ (s.part p).valid = true ∧ (s.part p).kernel = s.kernelOf s.actor.core

/-- A partition is idle (R411): no resident thread, no admitted queue, no uncommitted task, saved ones among them, and no heat in
progress. -/
def idlePart (s : State) (p : Nat) : Prop :=
  (∀ k ∈ partCores (s.part p), (s.core k).threads = []) ∧ (∀ q ∈ s.hub.queues, q.2.control = true ∨ q.2.part ≠ p) ∧
    (∀ x ∈ s.hub.tasks, x.2.part ≠ p) ∧ (∀ v ∈ s.hub.saved, ∀ x ∈ v.tasks, x.2.part ≠ p) ∧
    (s.part p).running = none ∧ (s.part p).switch = none ∧ (s.part p).tenant = 0

/-- An occurrence of one heat record overlaps an occurrence of another (R412). -/
def Overlaps (x y : HeatRec) : Prop :=
  ∃ i j : Nat, (x.period = 0 → i = 0) ∧ (y.period = 0 → j = 0) ∧
    x.start + i * x.period < y.end_ + j * y.period ∧ y.start + j * y.period < x.end_ + i * x.period

/-- A write of MSIDATA to MSIADDR, where there is one: an address in no range of R13 takes none. -/
def MsiSent (h : HeatRec) (s t : State) : Prop :=
  t.msis = if h.msiAddr ≠ 0 ∧ (inHub h.msiAddr = true ∨ inRanges (frameOf h.msiAddr) = true)
    then s.msis ++ [(h.msiAddr, h.msiData)] else s.msis

/-- Nothing follows the end of the occurrence `r` of partition `p` at once: its record has left the sheet, or is the only one of
the partition, and its next occurrence begins later, if there is one. -/
def endsAlone (s : State) (p : Nat) (r : Run) : Prop :=
  let mine := s.hub.sheet.filter fun e => e.2.part == p
  mine = [] ∨ ∃ h n, mine = [(r.entry, h)] ∧ h.start < h.end_ ∧ (h.period = 0 → n = 0) ∧
    (h.period = 0 ∨ h.end_ - h.start < h.period) ∧ r.until_ = h.end_ + n * h.period ∧ h.since < r.until_ ∧
    (s.part p).lastBoundary < r.until_

/-- The cores of a failed save go on as they were, but for the TIME of the stop, which none keeps (R390). -/
def GoesOn (s t : State) : Prop :=
  ∀ k, t.core k = { s.core k with threads := (t.core k).threads } ∧
    ∀ n c, s.ctx? ⟨k, n⟩ = some c → ∃ c', t.ctx? ⟨k, n⟩ = some c' ∧ c' = { c with stopped := c'.stopped }

/-- What the curtain's bitmap clears in a core (R124, R182, R415). -/
def Cleared (map : Nat) (c c' : Core) : Prop :=
  let b (i : Nat) : Bool := map.testBit i
  c' = { c with
    threads := if b 0 then [] else
      let fetched := if b 4 then c.threads.map (fun e => (e.1, { e.2 with fetch := none })) else c.threads
      if b 6 then fetched.filter (fun e => e.2.isLive) else fetched
    launch := if b 0 then none else c.launch
    children := if b 0 then 0 else c.children
    reaps := if b 0 then [] else c.reaps
    forwards := if b 0 then [] else c.forwards
    divFree := if b 0 then 0 else c.divFree
    gens := if b 0 then [] else c.gens
    ls := if b 1 then [] else c.ls
    lsState := if b 1 then [] else c.lsState
    lsBad := if b 1 then [] else c.lsBad
    lsSingle := if b 1 then [] else c.lsSingle
    lsHealed := if b 1 then [] else c.lsHealed
    eng := if b 2 then Engine.reset else c.eng
    icache := if b 4 then [] else c.icache
    kval := if b 5 then [] else c.kval
    kout := if b 5 then [] else c.kout
    stage := if b 6 then none else c.stage
    inbox := if b 7 then [] else c.inbox
    chans := if b 7 then [] else c.chans
    credits := if b 7 then [] else c.credits
    watch := if b 7 then [] else c.watch
    queue := if b 8 then c.queue.filter (fun e => decide (e.state ≠ .heldPut)) else c.queue }

/-- A token record (R415): its fields, and its tag under the incoming tenant's key. -/
def IsToken (s : State) (p out into map seq : Nat) (m : List Byte) : Prop :=
  let key := if into = 0 then 0 else Map.get 0 s.hub.tenantKeys into
  Machine.field m 0 2 = s.plat.devid % 2 ^ 16 ∧ Machine.field m 2 1 = p % 256 ∧ Machine.field m 3 1 = out % 256 ∧ Machine.field m 4 1 = into % 256 ∧
    Machine.field m 5 3 = 0 ∧ Machine.field m 8 4 = map % 2 ^ 32 ∧ Machine.field m 12 4 = 0 ∧ Machine.field m 16 8 = seq % 2 ^ 64 ∧
    Machine.field m 24 8 = s.time % 2 ^ 64 ∧ m.drop 32 = Keccak.kmac256 (bytesOfNat 32 key) (m.take 32) 32 "Fytin curtain"

/-- The bytes of the acting core's local store at `x`. -/
def lsBytes (s : State) (x n : Nat) : List Byte := (List.range n).map fun i => lsByte s (x + i)

/-- A partition's boundary steps begin for the occurrence `r`: every core of it has come to rest. -/
def atBoundaryOf (s : State) (p : Nat) (r : Option Run) : Prop :=
  s.args = [p] ∧ (s.part p).switch = some ⟨r, false⟩ ∧ isQuiet s p = true

end Sys2Proof.Claims

/-- R411, R403: PSPLIT gives half of an idle partition's node to the lowest free ID, and PMERGE gives the parent node to the
partition of the lower one; a cluster, a partition that is not idle, and a full table answer their status. -/
def Sys2Proof.Claims.Partitions : Prop :=
  (∀ (s : State) (d a b q p i : Nat), supervises s [d, a, b] → q ≠ 0 → (s.me.rg a).toNat = p → ownsPart s p → 1 ≤ (s.me.rg b).toNat →
    (s.me.rg b).toNat < 16 →
    (256 ≤ (s.part p).node → ∃ t, exec (.psplit d a b q) s = .next t ∧ AnsweredLater d q 1 false s t ∧ t.hub.parts = s.hub.parts) ∧
    ((s.part p).node < 256 → ¬ idlePart s p →
      ∃ t, exec (.psplit d a b q) s = .next t ∧ AnsweredLater d q 2 false s t ∧ t.hub.parts = s.hub.parts) ∧
    ((s.part p).node < 256 → idlePart s p → (∀ j < 64, (s.part j).valid = true) →
      ∃ t, exec (.psplit d a b q) s = .next t ∧ AnsweredLater d q 3 false s t ∧ t.hub.parts = s.hub.parts) ∧
    ((s.part p).node < 256 → idlePart s p → i < 64 → (s.part i).valid = false → (∀ j < i, (s.part j).valid = true) →
      ∃ t, exec (.psplit d a b q) s = .next t ∧ AnsweredLater d q (BitVec.ofNat 64 (256 * i)) true s t ∧
        t.part p = { s.part p with node := 2 * (s.part p).node } ∧ (t.part i).node = 2 * (s.part p).node + 1 ∧
        (t.part i).kernel = (s.me.rg b).toNat ∧ (t.part i).valid = true ∧ (t.part i).root = 0 ∧ (t.part i).tenant = 0 ∧
        ∀ j, j ≠ p → j ≠ i → t.part j = s.part j)) ∧
  ∀ (s : State) (d a q p o : Nat), supervises s [d, a] → q ≠ 0 → (s.me.rg a).toNat = p → ownsPart s p →
    let n := (s.part p).node
    let sibling := if n % 2 = 0 then n + 1 else n - 1
    (n = 1 → ∃ t, exec (.pmerge d a q) s = .next t ∧ AnsweredLater d q 1 false s t ∧ t.hub.parts = s.hub.parts) ∧
    (2 ≤ n → (∀ j < 64, (s.part j).valid = true → (s.part j).node = sibling → (s.part j).kernel ≠ (s.part p).kernel) →
      ∃ t, exec (.pmerge d a q) s = .next t ∧ AnsweredLater d q 1 false s t ∧ t.hub.parts = s.hub.parts) ∧
    (2 ≤ n → ownsPart s o → (s.part o).node = sibling → (∀ j < 64, (s.part j).valid = true → (s.part j).node = sibling → j = o) →
      (¬ idlePart s p ∨ ¬ idlePart s o → ∃ t, exec (.pmerge d a q) s = .next t ∧ AnsweredLater d q 2 false s t ∧
        t.hub.parts = s.hub.parts) ∧
      (idlePart s p → idlePart s o → ∃ t, exec (.pmerge d a q) s = .next t ∧ AnsweredLater d q 0 true s t ∧
        let keep := if n < sibling then p else o
        let gone := if n < sibling then o else p
        t.part keep = { s.part keep with node := n / 2 } ∧ (t.part gone).valid = false ∧
          ∀ j, j ≠ p → j ≠ o → t.part j = s.part j))

/-- R412, R403: HEATSET empties an entry for a record that is not valid, refuses a field outside its range, an overlap, another
period and a partition or entry of another kernel, and else writes the record's fields into the entry. (That the lowest status
that applies is the answer is the model's reading, log entry 31.) -/
def Sys2Proof.Claims.HeatSheet : Prop :=
  ∀ (s : State) (d a b q x i : Nat), supervises s [d, a, b] → q ≠ 0 → (s.me.rg a).toNat = x → (s.me.rg b).toNat = i → i < 256 →
    lsReady s x 64 →
    let bs := lsBytes s x 64
    let p := Machine.field bs 60 1
    let others := (s.hub.sheet.filter fun e => e.1 != i && e.2.part == p).map (·.2)
    let new : HeatRec := {
      start := Machine.field bs 0 8, end_ := Machine.field bs 8 8, period := Machine.field bs 16 8,
      root := Machine.field bs 24 8, save := Machine.field bs 32 8, linkSlots := BitVec.ofNat 64 (Machine.field bs 40 8),
      msiAddr := Machine.field bs 48 8, msiData := Machine.field bs 56 4, part := p, gate := Machine.field bs 61 1 / 2 % 2 == 1,
      tenant := Machine.field bs 62 1, saveLog2 := Machine.field bs 63 1, since := s.time }
    let owns := ownsPart s p ∧ ∀ o, Tbl.get? s.hub.sheet i = some o → (s.part o.part).kernel = s.kernelOf s.actor.core
    let answers (status : Nat) : Prop := ∃ t, exec (.heatset d a b q) s = .next t ∧
      AnsweredLater d q (BitVec.ofNat 64 status) false s t ∧ t.hub.sheet = s.hub.sheet
    let ok := Machine.field bs 0 8 < Machine.field bs 8 8 ∧ Machine.field bs 0 8 % 512 = 0 ∧ Machine.field bs 8 8 % 512 = 0 ∧ Machine.field bs 16 8 % 512 = 0 ∧
      (Machine.field bs 16 8 = 0 ∨ Machine.field bs 8 8 - Machine.field bs 0 8 ≤ Machine.field bs 16 8) ∧ Machine.field bs 24 8 % 4096 = 0 ∧ Machine.field bs 24 8 < 2 ^ 48 ∧
      Machine.field bs 32 8 % 524288 = 0 ∧ Machine.field bs 32 8 < 2 ^ 57 ∧ p < 64 ∧ Machine.field bs 61 1 < 4 ∧ 1 ≤ Machine.field bs 62 1 ∧
      19 ≤ Machine.field bs 63 1 ∧ Machine.field bs 63 1 ≤ 40
    (Machine.field bs 61 1 % 2 = 0 → ∃ t, exec (.heatset d a b q) s = .next t ∧ AnsweredLater d q 0 true s t ∧
      Tbl.get? t.hub.sheet i = none ∧ ∀ j, j ≠ i → Tbl.get? t.hub.sheet j = Tbl.get? s.hub.sheet j) ∧
    (Machine.field bs 61 1 % 2 = 1 →
      (¬ ok → answers 1) ∧
      (ok → (∀ o ∈ others, o.start < o.end_) →
        ((∃ o ∈ others, Overlaps new o) → answers 2) ∧
        ((∀ o ∈ others, ¬ Overlaps new o) →
          ((∃ o ∈ others, o.period ≠ new.period) → answers 3) ∧
          ((∀ o ∈ others, o.period = new.period) → ¬ owns → answers 4) ∧
          ((∀ o ∈ others, o.period = new.period) → owns → ∃ t, exec (.heatset d a b q) s = .next t ∧
            AnsweredLater d q 0 true s t ∧ Tbl.get? t.hub.sheet i = some new ∧
            (∀ j, j ≠ i → Tbl.get? t.hub.sheet j = Tbl.get? s.hub.sheet j) ∧ t.dram = s.dram))))

/-- R415 to R417, R124, R182: CURTAIN clears an idle partition as its bitmap says and leaves a token in its mailbox; TOKEN 0
copies the mailbox to the local store, and TOKEN 1 stores a tenant's unwrapped key and writes the signed statement, or answers why
not. (That the statement's count includes the admission it states is the model's reading, log entry 9; that generations begin
again with bit 0, log entry 31; that life cycles 0 and 3 admit nobody, log entry 33; what a signature is, log entry 51.) -/
def Sys2Proof.Claims.CurtainAndToken : Prop :=
  (∀ (s : State) (d a b q p map : Nat), supervises s [d, a, b] → q ≠ 0 → (s.me.rg a).toNat = p → ownsPart s p →
    (s.me.rg b).toNat = map → map < 1024 →
    (¬ idlePart s p → ∃ t, exec (.curtain d a b q) s = .next t ∧ AnsweredLater d q 1 false s t ∧
      t.hub = s.hub ∧ t.clusters = s.clusters) ∧
    (idlePart s p → ∃ t, exec (.curtain d a b q) s = .next t ∧ AnsweredLater d q 0 true s t ∧ t.dram = s.dram ∧
      (∀ k ∈ partCores (s.part p), Cleared map (s.core k) (t.core k)) ∧
      (∀ k, k ∉ partCores (s.part p) → k ≠ s.actor.core → t.core k = s.core k) ∧
      IsToken s p (s.part p).tenant (s.part p).tenant map (s.part p).heatSeq (t.part p).mailbox ∧
      (∀ j, j ≠ p → t.part j = s.part j) ∧
      (map.testBit 3 = true → ∀ g, ∀ x ∈ (t.cluster g).tlb, x.space ≠ p) ∧
      (∀ g, (t.cluster g).icache =
        if map.testBit 4 = true ∧ ∃ k ∈ partCores (s.part p), clusterOf k = g then [] else (s.cluster g).icache) ∧
      (t.part p).floor = (if map.testBit 8 then 0 else (s.part p).floor) ∧
      (∀ x, x ∈ t.hub.tasks ↔ x ∈ s.hub.tasks ∧ (map.testBit 8 = true → x.2.part ≠ p)) ∧
      (∀ x, x ∈ t.hub.bindings ↔ x ∈ s.hub.bindings ∧ (map.testBit 9 = true → x.part ≠ p)) ∧
      ∀ x, x ∈ t.hub.objects ↔ x ∈ s.hub.objects ∧ (map.testBit 9 = true → x.part ≠ p))) ∧
  (∀ (s : State) (d a b q x p tenant : Nat), supervises s [d, a, b] → q ≠ 0 → (s.me.rg a).toNat = x → ownsPart s p → tenant < 256 →
    (s.me.rg b).toNat = 2 ^ 8 * p + 2 ^ 16 * tenant → lsReady s x 64 → (s.part p).mailbox.length ∈ [0, 64] →
    ∃ t, exec (.token d a b q) s = .next t ∧ AnsweredLater d q 0 true s t ∧ t.hub = s.hub ∧ t.dram = s.dram ∧
      ∀ y, lsByte t y = if x ≤ y ∧ y < x + 64 then (s.part p).mailbox.getD (y - x) 0 else lsByte s y) ∧
  ∀ (s : State) (d a b q x p tenant : Nat), supervises s [d, a, b] → q ≠ 0 → (s.me.rg a).toNat = x → p < 64 → tenant < 256 → (s.me.rg b).toNat = 1 + 2 ^ 8 * p + 2 ^ 16 * tenant → x % 64 = 0 → x + 10021 ≤ lsLimit s.actor.core →
    (∀ l r, watchHit s.here x 10021 l r = false) → awaits s.here [run x 10021] [run x 10021] = false →
    lsSound s s.actor.core x 10021 →
    let key := (lsBytes s x 32).zipWith (· ^^^ ·)
      (Keccak.kmac256 (bytesOfNat 32 s.hub.admissionKey) (lsBytes s (x + 32) 32) 32 "Fytin admit")
    let statement := bytesOfNat 2 s.plat.devid ++ bytesOfNat 1 tenant ++ bytesOfNat 5 0 ++
        bytesOfNat 8 (s.hub.admissions + 1) ++ Keccak.shake256 key 32 ++ lsBytes s (x + 32) 16
    (tenant = 0 → ∃ t, exec (.token d a b q) s = .next t ∧ AnsweredLater d q 1 false s t ∧ t.hub = s.hub ∧
      ∀ y, lsByte t y = lsByte s y) ∧
    (tenant ≠ 0 → (∃ e ∈ s.hub.sheet, e.2.tenant = tenant) → ∃ t, exec (.token d a b q) s = .next t ∧ AnsweredLater d q 2 false s t ∧
      t.hub = s.hub ∧ ∀ y, lsByte t y = lsByte s y) ∧
    (tenant ≠ 0 → (∀ e ∈ s.hub.sheet, e.2.tenant ≠ tenant) → s.plat.lifeCycle ∉ [1, 2] ∨ 2 ^ 40 ≤ s.hub.signIndex → s.plat.lifeCycle < 4 →
      ∃ t, exec (.token d a b q) s = .next t ∧ AnsweredLater d q 3 false s t ∧ t.hub = s.hub ∧ ∀ y, lsByte t y = lsByte s y) ∧
    (tenant ≠ 0 → (∀ e ∈ s.hub.sheet, e.2.tenant ≠ tenant) → s.plat.lifeCycle ∈ [1, 2] → s.hub.signIndex < 2 ^ 40 →
    ∃ t, exec (.token d a b q) s = .next t ∧ AnsweredLater d q 0 true s t ∧ t.dram = s.dram ∧
      Map.get 0 t.hub.tenantKeys tenant = natOfBytes key ∧ t.hub.admissions = s.hub.admissions + 1 ∧
      t.hub.signIndex = s.hub.signIndex + 1 ∧
      lsBytes t (x + 64) 64 = statement ∧
      lsBytes t (x + 128) 9893 =
        Xmss.sign (bytesOfNat 32 s.plat.signKey.toNat) (bytesOfNat 32 s.plat.signPrf.toNat) s.plat.publicKey s.hub.signIndex statement ∧
      ∀ y, y < x + 64 ∨ x + 10021 ≤ y → lsByte t y = lsByte s y)

/-- R413 to R415, R389, R390, R412: at a START and at an END that nothing follows the sequence rises, the MSI goes out, and where
the tenant changes the boundary's steps begin; once the partition rests they save the outgoing tenant or keep it, clear the
cores, and let the incoming one start under its root; an occurrence that never started is reported, and a link slot opens.
(When an entry that was changed takes effect, and that a failed save keeps the tenant, follow log entry 30; the generations that
begin again with the curtain, log entry 31.) -/
def Sys2Proof.Claims.HeatBoundaries : Prop :=
  (∀ (s : State) (p i n : Nat) (h : HeatRec), s.args = [p] → (s.part p).valid = true → (s.part p).switch = none →
    (s.hub.sheet.filter fun e => e.2.part == p) = [(i, h)] →
    let b := h.start + n * h.period
    let last := max (s.part p).lastBoundary h.since
    let run : Run := ⟨i, h, b + (h.end_ - h.start)⟩
    last < b → (n = 0 ∨ (h.period ≠ 0 ∧ b ≤ last + h.period)) → (∀ r, (s.part p).running = some r → r.until_ = b) → b ≤ s.time →
    ∃ t, exec .heatBoundary s = .next t ∧ (t.part p).heatSeq = (s.part p).heatSeq + 1 ∧ (t.part p).lastBoundary = b ∧
      (t.part p).running = some run ∧ (t.part p).tenant = (s.part p).tenant ∧
      ((t.part p).switch = if h.tenant = (s.part p).tenant then none else some ⟨some run, false⟩) ∧
      MsiSent h s t ∧ t.dram = s.dram ∧ ∀ j, j ≠ p → t.part j = s.part j) ∧
  (∀ (s : State) (p : Nat) (r : Run), s.args = [p] → (s.part p).valid = true → (s.part p).switch = none →
    (s.part p).running = some r → endsAlone s p r → r.until_ ≤ s.time →
    ∃ t, exec .heatBoundary s = .next t ∧ (t.part p).heatSeq = (s.part p).heatSeq + 1 ∧ (t.part p).running = none ∧
      ((t.part p).switch = if (s.part p).tenant = 0 then none else some ⟨none, false⟩) ∧ MsiSent r.heat s t ∧ t.dram = s.dram ∧
      (∀ j, j ≠ p → t.part j = s.part j) ∧
      (t.part p).expired = (s.part p).expired ++ (if (s.part p).started then [] else [r.entry]) ∧
      ((s.part p).started = false → (⟨s.now, .heatExpired, [r.entry]⟩ : Due) ∈ t.agenda)) ∧
  (∀ (s : State) (p : Nat) (r : Option Run), atBoundaryOf s p r → (s.part p).heat = none → allCold s →
    (∀ k ∈ partCores (s.part p), (s.core k).retired = false ∧ (s.core k).unmapped = false) →
    (∀ x, r = some x → s.time < x.until_ ∧ ∀ o ∈ s.hub.saved, o.part ≠ p ∨ o.tenant ≠ x.heat.tenant) →
    let tenant := (r.map fun x => x.heat.tenant).getD 0
    ∃ t, exec .heatBoundary s = .next t ∧ (t.part p).tenant = tenant ∧ (t.part p).heat = r.map (·.heat) ∧
      (t.part p).switch = none ∧ (p < 64 → ∀ x, r = some x → t.rootOf p = x.heat.root) ∧
      (∀ k ∈ partCores (s.part p), Cleared 0x3FF (s.core k) (t.core k)) ∧
      IsToken s p (s.part p).tenant tenant 0x3FF (s.part p).heatSeq (t.part p).mailbox) ∧
  (∀ (s : State) (p : Nat) (h : HeatRec), atBoundaryOf s p none → (s.part p).heat = some h → (s.part p).barred = false →
    s.linkAllowed p = true → allCold s →
    ∃ t, exec .heatBoundary s = .next t ∧ (t.part p).switch = none ∧
      (((t.part p).tenant = (s.part p).tenant ∧ GoesOn s t ∧ t.hub.saved = s.hub.saved) ∨
       ((t.part p).tenant = 0 ∧ (∀ k ∈ partCores (s.part p), (t.core k).threads = []) ∧
        ∃ x ∈ t.hub.saved, x.part = p ∧ x.tenant = (s.part p).tenant ∧ x.seq = (s.part p).heatSeq ∧
          x.cores.map (·.core) = partCores (s.part p)))) ∧
  (∀ (s : State) (p i : Nat) (v : Part), s.args = [i] →
    s.hub.parts.find? (fun e => e.2.expired.contains i) = some (p, v) →
    ∃ t, exec .heatExpired s = .next t ∧ t.part p = { v with expired := v.expired.erase i } ∧
      Recorded v.kernel (plainRecord (causeCode .async .heatExpired) p 9 0 0 0) s t ∧ t.cores = s.cores) ∧
  ∀ (s : State) (n : Nat), s.args = [n] → s.time % 32768 / 512 = n →
    exec .linkSlotOpen s = .next { s with hub := { s.hub with linkOpen := n } }

/-- R389 to R391, R412 to R414: the heat sheet and the boundaries of heats. -/
def Obligations.Heats : Prop := Sys2Proof.Claims.HeatSheet ∧ Sys2Proof.Claims.HeatBoundaries


/-- R11, R418, R9: a retired core of an idle partition is mapped to a free understudy of its die, its local store empty, and the
kernel is told; with no understudy it stays unmapped, and while the partition is not idle it waits. A post of the file's
generation sets the pending bit, whatever its reserved bits, and tells the kernel if the tenant runs with the bit enabled; another
generation, or no file, is dropped and counted. (The model's choice, log entry 31: the first free understudy is taken, and what the
core then holds; a post of identity 0 changes nothing and is not counted, even where its generation differs. That a core for
which no understudy is free sends no record, log entry 53; that a post waits while a stack accepts no command, log entry 34.) -/
def Sys2Proof.Claims.RemapAndInterrupts : Prop :=
  (∀ (s : State) (k p : Nat), s.args = [k] → s.partOf k = some p → (s.core k).retired = true → (s.core k).unmapped = false →
    (∀ u rest, idlePart s p → (s.die (dieOf k)).understudies = u :: rest → ∃ t, exec .coreRemap s = .next t ∧
      t.core k = { s.core k with retired := false, ls := [], lsState := [], lsBad := [], lsSingle := [], lsHealed := [] } ∧
      (t.die (dieOf k)).understudies = rest ∧ (∀ d j, Tbl.get? (t.die d).remaps j =
        if d = dieOf k ∧ j = k then some u else Tbl.get? (s.die d).remaps j) ∧ OtherCores k s t ∧
      Recorded (s.kernelOf k) (plainRecord (causeCode .async .coreRetired) (s.recordPart k) 9 0 0 (dieOf k)) s t) ∧
    (idlePart s p → (s.die (dieOf k)).understudies = [] → ∃ t, exec .coreRemap s = .next t ∧
      t.core k = { s.core k with unmapped := true } ∧ OtherCores k s t) ∧
    (¬ idlePart s p →
      exec .coreRemap s = .next { s with agenda := s.agenda ++ [⟨s.now + 1, .coreRemap, [k]⟩] })) ∧
  ∀ (s : State) (id r tenant r' gen : Nat), s.args = [id + 2 ^ 11 * r + 2 ^ 16 * tenant + 2 ^ 24 * r' + 2 ^ 32 * gen] → id < 2048 →
    r < 32 → tenant < 256 → r' < 256 → gen < 2 ^ 32 → allCold s →
    (id = 0 → exec .vipost s = .next s) ∧
    (id ≠ 0 →
    let file := (Map.get 0 s.hub.vifbase tenant).toNat
    let at_ := file + 8 + id / 8
    (file ≠ 0 → inRanges (frameOf file) = true → s.physRead file 8 = gen → ∃ t, exec .vipost s = .next t ∧ t.cores = s.cores ∧
      t.physByte at_ = s.physByte at_ ||| BitVec.ofNat 8 (2 ^ (id % 8)) ∧ (∀ a, a ≠ at_ → t.physByte a = s.physByte a) ∧
      ∀ p, runningPart s tenant = some p → (s.physByte (file + 264 + id / 8)).getLsbD (id % 8) = true →
        Recorded (s.part p).kernel (plainRecord (causeCode .async .virtualInterrupt) p 9 0 (BitVec.ofNat 64 id) 0) s t) ∧
    (file = 0 ∨ inRanges (frameOf file) = false ∨ s.physRead file 8 ≠ gen →
      ∃ t, exec .vipost s = .next t ∧ t = { s with hub := { s.hub with vidrop := s.hub.vidrop + 1 } }))

/-- R11, R410, R411, R415 to R418: partitions, the curtain and tokens, remapping and virtual interrupts. -/
def Obligations.PartitionsAndCurtain : Prop := Sys2Proof.Claims.Partitions ∧ Sys2Proof.Claims.CurtainAndToken ∧ Sys2Proof.Claims.RemapAndInterrupts


namespace Sys2Proof.Claims

/-! ### The platform -/

/-- A monitor call is answered: g4 holds the result, and the thread goes on as it was (R433). -/
def MonitorAnswers (x : Word) (s t : State) : Prop :=
  let a : Actor := ⟨s.arg 0, s.arg 1⟩
  ∃ c', t.ctx? a = some c' ∧ c'.status = .running ∧ c'.rg 4 = x ∧ (∀ r, r ≠ 4 → c'.rg r = (s.ctx a).rg r) ∧
    c'.pc = (s.ctx a).pc ∧ c'.xstat = (s.ctx a).xstat ∧ OthersOf a.core a.thread s t ∧ t.dram = s.dram

/-- The thread that the step's arguments name waits for the answer to monitor call `n`. -/
def calls (n : Nat) (s : State) : Prop :=
  ∃ c, s.ctx? ⟨s.arg 0, s.arg 1⟩ = some c ∧ c.status = .waiting ∧ c.calling = some n

/-- Every kernel is told of a reason that no thread stops for. -/
def AllTold (r : Reason) (s t : State) : Prop :=
  ∀ n, 1 ≤ n → n < 16 → ∃ x, (t.faultQueue n).waiting = (s.faultQueue n).waiting ++ [x] ∧ x.cause = causeCode .async r ∧
    x.access = 9 ∧ x.address = 0

/-- The temperatures of stack `i`'s layers. -/
def layerOf (p : Platform) (i l : Nat) : Int := degrees (Map.get 0 p.temps (16 * i + l))

/-- One action of a stack at `limit` °C, released at 5 °C below (R437). -/
def ActsAt (limit : Int) (p p' : Platform) (i bit : Nat) : Prop :=
  let now := (Map.get 0 p'.stackState i).testBit bit
  ((∃ l < 16, limit ≤ layerOf p' i l) → now = true) ∧ ((∀ l < 16, layerOf p' i l ≤ limit - 5) → now = false) ∧
    ((∀ l < 16, layerOf p' i l < limit) → (∃ l < 16, limit - 5 < layerOf p' i l) → now = (Map.get 0 p.stackState i).testBit bit)

/-- The device is as the reset leaves it, but for what a reset keeps (R427, R430, R431). -/
def Wiped (s t : State) : Prop :=
  t.dram = [] ∧ t.dramBad = [] ∧ t.cores = [] ∧ t.clusters = [] ∧ t.dies = [] ∧ t.net = [] ∧ t.walks = [] ∧
    t.hub.deeds = [] ∧ t.hub.parts = [(0, Part.package)] ∧ t.hub.queues = [] ∧ t.hub.tasks = [] ∧ t.hub.sheet = [] ∧
    t.plat.snapctl = 0 ∧ t.plat.owner = 0 ∧ t.plat.devidWritten = false ∧ t.plat.lifeCycle = s.plat.lifeCycle ∧
    t.plat.minSvn = s.plat.minSvn ∧ t.plat.keyHash = s.plat.keyHash ∧ t.plat.signKey = s.plat.signKey ∧ t.plat.signPrf = s.plat.signPrf ∧
    t.plat.publicKey = s.plat.publicKey ∧ t.hub.admissionKey = s.hub.admissionKey ∧
    t.hub.signIndex = s.hub.signIndex

/-- A marker copy of a boot flash names this slot with this sequence. -/
def marks (p : Platform) (i slot seq : Nat) : Prop := readMarker p i = some (slot, seq)

/-- Copy `i` names this slot with the highest valid sequence: the other copy is not valid, older, or names the same slot. -/
def leads (p : Platform) (i slot seq : Nat) : Prop :=
  i < 2 ∧ marks p i slot seq ∧ ∀ slot' seq', marks p (1 - i) slot' seq' → seq' < seq ∨ (seq' = seq ∧ slot' = slot)

/-- The bytes of the flash that an update writes in its present step: the slot's image, the first marker copy, the other (R429). -/
def updateRange (u : Update) (x : Nat) : Prop :=
  match u.phase with
  | 1 => slotBase u.slot ≤ x ∧ x < slotBase u.slot + u.image.length
  | 2 => 4096 * u.first ≤ x ∧ x < 4096 * u.first + 32
  | _ => 4096 * (1 - u.first) ≤ x ∧ x < 4096 * (1 - u.first) + 32

/-- A marker copy names a slot whose header holds at least the running SVN (R428). -/
def namesNew (p : Platform) (i : Nat) : Prop :=
  ∃ slot seq size svn version at_, marks p i slot seq ∧
    imageHeader (slotBase slot) (p.flashBytes (slotBase slot) 64) = some (size, svn, version, at_) ∧ p.runSvn ≤ svn

/-- A write of the flash leaves every byte outside a range as it was. -/
def KeepsOutside (r : Nat → Prop) (p p' : Platform) : Prop := ∀ x, ¬ r x → p'.flashByte x = p.flashByte x

end Sys2Proof.Claims

/-- R426 to R431, R437: a reset wipes the device and boots the slot of the valid marker with the highest sequence whose image
verifies, or fails; a recovery image boots a failed device; RAISESVN raises the minimum; a life-cycle transition wipes and makes
or zeroises the keys; a shutdown leaves what is kept without power, and so does a loss of power, which tears only what an update is
writing; the links train once, and TIME starts. (Model's choices: the steps of a life
cycle, the recovery image and the signed image's form, log entries 33 and 37; signatures, public keys and the boot key, 9 and 51;
when TIME starts, 4.) -/
def Sys2Proof.Claims.Boot : Prop :=
  (∀ s : State,
    (∃ t, exec .reset s = .next t ∧ Wiped s t ∧ t.powered = true ∧ t.now = s.now ∧ t.resetAt = s.now ∧ t.plat.wiping = true ∧ t.plat.flash = s.plat.flash ∧
      ∀ d ∈ [(⟨s.now, .linkTraining, [0, 0]⟩ : Due), ⟨s.now, .wipeComplete, []⟩], d ∈ t.agenda) ∧
    ((∀ i < 2, ∀ slot seq, marks s.plat i slot seq → verifiedSlot s.plat slot = none) →
      ∃ t, exec .reset s = .next t ∧ t.plat.bootFail = true ∧ t.plat.bootSlot = none) ∧
    ∀ i slot seq svn version, i < 2 → marks s.plat i slot seq → verifiedSlot s.plat slot = some (svn, version) →
      (∀ slot' seq', marks s.plat (1 - i) slot' seq' → seq' < seq ∨ slot' = slot ∨ verifiedSlot s.plat slot' = none) →
      ∃ t, exec .reset s = .next t ∧ t.plat.bootFail = false ∧ t.plat.bootSlot = some slot ∧ t.plat.runSvn = svn ∧
        t.plat.version = version) ∧
  (∀ s : State, (s.anyShut = false → ∃ t, exec .wipeComplete s = .next t ∧
      t = { s with plat := { s.plat with wiping := false }, agenda := t.agenda }) ∧
    (s.anyShut = true → exec .wipeComplete s = .next (s.post 1 .wipeComplete []))) ∧
  (∀ (s : State) (m x svn version : Nat), s.args = [m, x] → s.plat.bootFail = true → isOwner s m = true →
    checkedImage s.plat.keyHash (slotBase 0) (fun o n => bytesOfNat n (x / 256 ^ o)) = some (svn, version) →
    s.plat.minSvn ≤ svn → ∃ t, exec .recoveryImage s = .next t ∧
      t = { s with plat := { s.plat with bootFail := false, runSvn := svn, version := version }, agenda := t.agenda }) ∧
  (∀ (s : State) (m : Nat), s.args = [m] →
    (isOwner s m = true → s.plat.minSvn < s.plat.runSvn → s.plat.svnRises < 64 →
      (∀ i < 2, namesNew s.plat i) →
      exec .raisesvn s = .next { s with plat := { s.plat with minSvn := s.plat.runSvn, svnRises := s.plat.svnRises + 1 } }) ∧
    ((∃ i < 2, ¬ namesNew s.plat i) → exec .raisesvn s = .next s) ∧
    (isOwner s m = false → exec .raisesvn s = .next s)) ∧
  (∀ (s : State) (m n : Nat), s.args = [m, n] →
    (isOwner s m = true → n = s.plat.lifeCycle + 1 → n ≤ 3 →
      ∃ t, exec .lifeCycleTransition s = .next t ∧ t.plat.lifeCycle = n ∧ t.plat.wiping = true ∧ t.dram = [] ∧
        t.hub.deeds = [] ∧ (∀ k, (t.core k).ls = [] ∧ (t.core k).lsState = [] ∧ (t.core k).eng = Engine.reset ∧
          (t.core k).inbox = [] ∧ (t.core k).chans = [] ∧ (t.core k).icache = [] ∧
          (∀ e ∈ (t.core k).threads, e.2.isLive = true ∧ e.2.fetch = none) ∧ ∀ e ∈ (t.core k).queue, e.state ≠ .heldPut) ∧
        (∀ x ∈ allTasks t.hub, x.2.puts = []) ∧
        (∀ g, (t.cluster g).tlb = [] ∧ (t.cluster g).icache = []) ∧
        (n = 1 → t.plat.publicKey = Xmss.publicKey (bytesOfNat 32 t.plat.signKey.toNat) (t.plat.publicKey.drop 32) ∧
          t.hub.signIndex = 0) ∧
        (n = 3 → t.hub.admissionKey = 0 ∧ t.plat.signKey = 0 ∧ t.plat.signPrf = 0) ∧
        (n = 2 → t.hub.admissionKey = s.hub.admissionKey ∧ t.plat.publicKey = s.plat.publicKey)) ∧
    (isOwner s m = false ∨ n ≠ s.plat.lifeCycle + 1 ∨ 3 < n → exec .lifeCycleTransition s = .next s)) ∧
  (∀ s : State, (s.plat.shutdownAt = none → exec .catastrophicShutdown s = .next s) ∧
    ∀ u, s.plat.shutdownAt = some u →
      (u ≤ s.time → ∃ t, exec .catastrophicShutdown s = .next t ∧ Wiped s t ∧ t.powered = false ∧
        t.plat.flash = s.plat.flash ∧ (t.tape = [] → step t = .fault .deviceOff)) ∧
      (s.time < u → exec .catastrophicShutdown s = .next s)) ∧
  (∀ (s : State) (a n : Nat), s.args = [a, n] → ∃ t, exec .powerLoss s = .next t ∧ Wiped s t ∧ t.powered = false ∧
    (∀ x, t.plat.flashByte x = s.plat.flashByte x ∨
      (a ≤ x ∧ x < a + n ∧ ∃ u, s.plat.updating = some u ∧ updateRange u x))) ∧
  ∀ (s : State) (x n : Nat), s.args = [x, n] →
    (s.plat.trained = false → exec .linkTraining s = .next
      { s with plat := { s.plat with trained := true }, time := if x = 1 then n else 0 }) ∧
    (s.plat.trained = true → exec .linkTraining s = .next s)

/-- R434, R440: a claim takes ownership of nobody's or a handed-over device by the claimer's own ID, a release gives it up, the
owner hands it over, and writes DEVID once; others change nothing, and neither does a write that names another master. (That a
write with RELEASE does only the release is the model's choice, log entry 33.) -/
def Sys2Proof.Claims.Ownership : Prop :=
  (∀ (s : State) (m v : Nat), s.args = [m, v] →
    let id := v / 2 ^ 4 % 8
    (id = ownerCode m → id ≠ 0 → isOwner s m = false → s.plat.owner = 0 ∨ s.plat.handTo = id →
      exec .mgmtClaim s = .next { s with plat := { s.plat with owner := id, handTo := 0 } }) ∧
    (id = ownerCode m → isOwner s m = true →
      (v / 2 ^ 11 % 2 = 1 → exec .mgmtClaim s = .next { s with plat := { s.plat with owner := 0, handTo := 0 } }) ∧
      (v / 2 ^ 11 % 2 = 0 → exec .mgmtClaim s = .next
        { s with plat := { s.plat with handTo := if v / 2 ^ 8 % 8 = id then 0 else v / 2 ^ 8 % 8 } })) ∧
    (id ≠ ownerCode m ∨ id = 0 ∨ (isOwner s m = false ∧ s.plat.owner ≠ 0 ∧ s.plat.handTo ≠ id) →
      exec .mgmtClaim s = .next s)) ∧
  (∀ m, ownerCode m = if m = 0 then 1 else if m = 2 then 3 else if m = 16 then 4 else if 8 ≤ m ∧ m < 16 then 2 else 0) ∧
  (∀ (s : State) (m v : Nat), s.args = [m, v] →
    (isOwner s m = true → v / 2 ^ 11 % 2 = 1 →
      exec .mgmtRelease s = .next { s with plat := { s.plat with owner := 0, handTo := 0 } }) ∧
    (isOwner s m = true → v / 2 ^ 11 % 2 = 0 →
      exec .mgmtRelease s = .next { s with plat := { s.plat with handTo := v / 2 ^ 8 % 8 } }) ∧
    (isOwner s m = false → exec .mgmtRelease s = .next s) ∧
    (isOwner s m = true → s.plat.devidWritten = false →
      exec .devidWrite s = .next { s with plat := { s.plat with devid := v % 2 ^ 14, devidWritten := true } }) ∧
    (isOwner s m = false ∨ s.plat.devidWritten = true → exec .devidWrite s = .next s))

/-- R429, R432, R433: each monitor call answers in g4; POLICYLOAD pins an image for a tenant with no resident thread, eight images
in all; MONSTAGE writes the image into the slot that the leading copy does not name and verifies it there, then rewrites the copies
one at a time, and each unit takes the staged version up when nothing of it is outstanding. (Model's choices: where a caller's image
lies, that a second MONSTAGE waits, the cycles of an update's step, log entries 33 and 37; images in a hot stack, 34; signatures,
51.) -/
def Sys2Proof.Claims.MonitorCalls : Prop :=
  (∀ s : State,
    (calls 0 s → ∃ t, exec .monitorVersion s = .next t ∧
      MonitorAnswers (BitVec.ofNat 64 (s.plat.version % 2 ^ 32 + 2 ^ 32 * (s.plat.runSvn % 2 ^ 16))) s t) ∧
    (calls 3 s → ∃ t h, exec .thermal s = .next t ∧ MonitorAnswers
      (BitVec.ofNat 64 (s.plat.clockMhz % 2 ^ 16 + 2 ^ 16 * (h % 2 ^ 16) + 2 ^ 32 * (s.plat.power % 2 ^ 16))) s t ∧
      (∃ i < 192, h = Map.get 0 s.plat.temps i) ∧ ∀ i < 192, degrees (Map.get 0 s.plat.temps i) ≤ degrees h) ∧
    (∀ n, 3 < n → calls n s → ∃ t, exec .monitorUnknownCall s = .next t ∧ MonitorAnswers (BitVec.allOnes 64) s t)) ∧
  (∀ s : State, calls 1 s → allCold s →
    let c := s.ctx ⟨s.arg 0, s.arg 1⟩
    let tenant := (c.rg 6).toNat
    let others := s.plat.policies.filter fun p => p.tenant != tenant
    (callerImage s 0 (c.rg 5).toNat = none → ∃ t, exec .policyload s = .next t ∧ MonitorAnswers 1 s t ∧ t.plat = s.plat) ∧
    ∀ svn version, callerImage s 0 (c.rg 5).toNat = some (svn, version) →
      (tenantResident s tenant = true → ∃ t, exec .policyload s = .next t ∧ MonitorAnswers 2 s t ∧ t.plat = s.plat) ∧
      (tenantResident s tenant = false → (∀ p ∈ others, p.image ≠ version) → 8 ≤ ((others.map (·.image)).eraseDups).length →
        ∃ t, exec .policyload s = .next t ∧ MonitorAnswers 3 s t ∧ t.plat = s.plat) ∧
      (tenantResident s tenant = false → ((others.map (·.image)).eraseDups).length < 8 →
        ∃ t, exec .policyload s = .next t ∧ MonitorAnswers 0 s t ∧ t.plat.policies = others ++ [⟨tenant, version⟩])) ∧
  (∀ s : State, calls 2 s → allCold s →
    let a : Actor := ⟨s.arg 0, s.arg 1⟩
    let pa := ((s.ctx a).rg 5).toNat
    (s.plat.updating = none → (∀ slot < 2, ∀ v, callerImage s slot pa = some v → v.1 < s.plat.minSvn) →
      ∃ t, exec .monstage s = .next t ∧ MonitorAnswers 1 s t ∧ t.plat = s.plat) ∧
    (s.plat.updating = none → ∀ i slot q svn version, leads s.plat i slot q → callerImage s (1 - slot) pa = some (svn, version) →
      s.plat.minSvn ≤ svn → ∃ t u n, exec .monstage s = .next t ∧
        t = { s with plat := { s.plat with updating := some u }, agenda := s.agenda ++ [⟨s.now + 1, .monstage, s.args⟩] } ∧
        u.caller = a ∧ u.slot = 1 - slot ∧ u.seq = q + 1 ∧ u.image = physImage s (s.kernelOf a.core) pa 0 n ∧
        u.version = version ∧ u.svn = svn ∧ u.phase = 1 ∧ u.first < 2 ∧ ∀ slot' q', marks s.plat u.first slot' q' → q' ≤ q) ∧
    ∀ u, s.plat.updating = some u →
      (u.caller ≠ a → exec .monstage s = .next { s with agenda := s.agenda ++ [⟨s.now + 1, .monstage, s.args⟩] }) ∧
      (u.caller = a → u.slot < 2 → u.first < 2 → u.seq < 2 ^ 64 → ∃ t, exec .monstage s = .next t ∧
        KeepsOutside (updateRange u) s.plat t.plat ∧
        (u.phase = 1 → (∀ j < u.image.length, t.plat.flashByte (slotBase u.slot + j) = u.image.getD j 0) ∧
          (verifiedSlot t.plat u.slot = none → MonitorAnswers 1 s t ∧ t.plat.updating = none ∧ t.plat.staged = s.plat.staged) ∧
          ((verifiedSlot t.plat u.slot).isSome = true → t.plat.updating = some { u with phase := 2 } ∧ t.cores = s.cores)) ∧
        (u.phase = 2 → marks t.plat u.first u.slot u.seq ∧ t.plat.updating = some { u with phase := 3 } ∧ t.cores = s.cores) ∧
        (u.phase = 3 → marks t.plat (1 - u.first) u.slot u.seq ∧ MonitorAnswers 0 s t ∧ t.plat.updating = none ∧
          t.plat.staged = some (u.version + 2 ^ 32 * u.svn) ∧ ∀ v < 256, unitVersion t.plat v =
            if (s.cluster v).permits = 0 then u.version % 2 ^ 32 else unitVersion s.plat v))) ∧
  ∀ (s : State) (u x : Nat), s.args = [u] → s.plat.staged = some x →
    (u < 256 → (s.cluster u).permits = 0 → ∃ t, exec .monitorUpdateApply s = .next t ∧
      unitVersion t.plat u = x % 2 ^ 32 ∧ t.plat.version = s.plat.version ∧
      ∀ v, v ≠ u → unitVersion t.plat v = unitVersion s.plat v) ∧
    (u < 256 → (s.cluster u).permits ≠ 0 →
      exec .monitorUpdateApply s = .next s) ∧
    (u = 256 → (∃ q ∈ s.hub.queues, q.2.busy = true) → exec .monitorUpdateApply s = .next s) ∧
    (u = 256 → (∀ q ∈ s.hub.queues, q.2.busy = false) → ∃ t, exec .monitorUpdateApply s = .next t ∧
      t.plat.version = x % 2 ^ 32 ∧ t.plat.runSvn = x / 2 ^ 32 ∧ ∀ v < 256, unitVersion t.plat v = unitVersion s.plat v)

/-- R437, R438: a clock step of 100 MHz within 1.8 GHz to 3.6 GHz is told to every kernel; a stack acts at 85 °C and 95 °C until
it has cooled by 5 °C, and so it does at 105 °C, where every kernel is told and the shutdown falls 100 µs later, resets or not. (Model's choices: what
a step of the clock carries, log entry 3; which kernels are told, 33; the shutdown after cooling or a reset, 34.) -/
def Sys2Proof.Claims.Temperature : Prop :=
  (∀ (s : State) (f w : Nat), s.args = [f, w] →
    (1800 ≤ f → f ≤ 3600 → f = s.plat.clockMhz + 100 ∨ f + 100 = s.plat.clockMhz → ∃ t, exec .thermalThrottle s = .next t ∧
      t.plat.clockMhz = f ∧ t.plat.power = w ∧ AllTold .thermalThrottle s t ∧ t.cores = s.cores ∧ t.time = s.time) ∧
    (f < 1800 ∨ 3600 < f ∨ (f ≠ s.plat.clockMhz + 100 ∧ f + 100 ≠ s.plat.clockMhz) →
      exec .thermalThrottle s = .next { s with plat := { s.plat with power := w } })) ∧
  (∀ (s : State) (i : Nat), i < 12 → ∃ t, exec .reset s = .next t ∧ t.plat.temps = s.plat.temps ∧
    ActsAt 85 s.plat t.plat i 0 ∧ ActsAt 95 s.plat t.plat i 1 ∧ ActsAt 105 s.plat t.plat i 2) ∧
  ∀ (s : State) (i l temp : Nat), s.args = [i, l, temp] → i < 12 → l < 16 →
    ∃ t, exec .hbmTemperatureThreshold s = .next t ∧
      (∀ j, Map.get 0 t.plat.temps j = if j = 16 * i + l then temp % 2 ^ 16 else Map.get 0 s.plat.temps j) ∧
      (∀ j, j ≠ i → Map.get 0 t.plat.stackState j = Map.get 0 s.plat.stackState j) ∧
      ActsAt 85 s.plat t.plat i 0 ∧ ActsAt 95 s.plat t.plat i 1 ∧ ActsAt 105 s.plat t.plat i 2 ∧
      ((∃ l < 16, 105 ≤ layerOf t.plat i l) → (Map.get 0 s.plat.stackState i).testBit 2 = false →
        AllTold .thermalShutdownPending s t ∧
          t.plat.shutdownAt = some (s.plat.shutdownAt.getD (s.time + 100000))) ∧
      t.cores = s.cores ∧ t.dram = s.dram

/-- R426 to R434, R437, R438, R440: boot, life cycle, ownership, monitor calls, and temperature. -/
def Obligations.Platform : Prop := Sys2Proof.Claims.Boot ∧ Sys2Proof.Claims.Ownership ∧ Sys2Proof.Claims.MonitorCalls ∧ Sys2Proof.Claims.Temperature


/-! ### The whole machine -/

namespace Sys2Proof.Claims

/-- No other thread of core `k` that could issue comes before the context `c` of thread `n` in cyclic order of slots after the
last to issue (R17). -/
def isNext (s : State) (k n : Nat) (c : Ctx) : Prop :=
  ∀ e ∈ (s.core k).threads, e.1 ≠ n → isReadyThread s k e.1 e.2 = true → gangReady s ⟨k, e.1⟩ e.2 = true →
    (c.slot + 15 - (s.core k).lastSlot) % 16 < (e.2.slot + 15 - (s.core k).lastSlot) % 16

/-- Thread `n` of core `k` may issue the instruction of a word in its fetch buffer: its turn is next on the tape and in the
core's rotation, it is ready, in no gang or the stroke of one with room, held by no engine, with no cause pending, not held back,
at no breakpoint, and its PC is canonical; the buffer holds the block with its code ID and address, and the word there is `w`,
`len` bytes long. -/
def issues (s : State) (k n : Nat) (rest : List Turn) (c : Ctx) (len w : Nat) : Prop :=
  s.tape = .thread k n :: rest ∧ s.powered = true ∧ s.ctx? ⟨k, n⟩ = some c ∧ isReadyThread s k n c = true ∧
    c.status = .running ∧ (n, c) ∈ (s.core k).threads ∧ isNext s k n c ∧ (s.core k).holds n = false ∧ (s.core k).nextIssue ≤ s.now ∧ c.pend = [] ∧ isHeldBack s ⟨k, n⟩ = false ∧ atBreakpoint (s.core k) c.pc = false ∧
    c.pc.toNat < 2 ^ 57 ∧
    ∃ b, c.fetch = some b ∧ b.code = c.codeId.toNat ∧ b.addr = blockOf c.pc ∧ wordAt b (c.pc.toNat % 64) = some (len, w)

/-- The words that the spec's encoding tables write out, with the instructions they stand for. -/
def specWords : List (Nat × Nat × Instr) := [
  (4, 0x7C460005, .ldfe 17 3 2), (4, 0x7B580015, .ldf 13 12 2), (4, 0x78060045, .feset 3 0 2),
  (4, 0xB848A043, .rput 2 4 10 1), (4, 0xB836D203, .kadd 27 13 1), (4, 0xC0630111, .waitc 3 3), (4, 0xB38A60E1, .part 14 5 6 0),
  (4, 0xE806009D, .csrw 0 3 0 6), (4, 0x02528121, .minn 9 9 8), (4, 0x02409151, .sltn 9 0 9), (4, 0xE80A0001, .trap 5),
  (4, 0xE8000011, .ecall), (4, 0xE8000021, .ebreak), (4, 0xE8000031, .xret), (4, 0xEB001085, .csrr 12 1 2),
  (4, 0xE806009F, .csrw 0 3 0 7), (4, 0xE80C10A7, .csrs 0 6 1 3), (4, 0xE80E00B1, .csrc 0 7 0 0), (4, 0xE8080101, .snap 4),
  (4, 0xE80A6803, .ctxsave 5 6 1), (4, 0xE80A6813, .ctxload 5 6 1), (4, 0xE8109821, .tlbinv 8 9)]

end Sys2Proof.Claims

/-- R1, R17, R20, R21: the step of a thread's turn runs the instruction that the decoder reads from the word at the PC, on that
state; in no gang and without STEP it adds nothing, with STEP a completed instruction leaves SINGLE_STEP pending, and the
stroke of a gang leaves a copy with its next PC and link value in every follower's buffer (R153, R116, R378); an instruction that
stops for the monitor is noted in its context (R95). A device step that is due runs on its arguments, an arrival unless one with a
higher EFF may arrive (R132). -/
def Obligations.StepRunsDecoded : Prop :=
  (∀ (s : State) (k n len w : Nat) (rest : List Turn) (c : Ctx) (i : Instr) (u : State), issues s k n rest c len w →
    decodeWord len w = .ok i →
    let s' := { s with tape := rest, actor := ⟨k, n⟩ }
    exec i s' = .next u →
    let stopped := (u.ctx ⟨k, n⟩).monitored = true ∧ (u.ctx ⟨k, n⟩).status = .waiting
    (c.gang = none → (u.ctx ⟨k, n⟩).xstat.getLsbD 11 = false → ¬ stopped → step s = .next u) ∧
    (c.gang = none → (u.ctx ⟨k, n⟩).xstat.getLsbD 11 = false → ∀ c', u.ctx? ⟨k, n⟩ = some c' → stopped →
      step s = .next (u.setCtx ⟨k, n⟩ { c' with current := some i })) ∧
    (c.gang = none → ∀ c', u.ctx? ⟨k, n⟩ = some c' → c'.xstat.getLsbD 11 = true → i ≠ .xret →
      c'.isDraining = false → c'.pend = [] → (u.core k).instret ≠ (s.core k).instret →
      ∃ t x, step s = .next t ∧ (t.ctx ⟨k, n⟩).pend = [⟨causeCode .async .singleStep, x, 9, 0⟩]) ∧
    (∀ g, c.gang = some g → g.stroke = ⟨k, n⟩ → (∀ m ∈ g.members, ∀ x, (s.ctx m).gang = some x → x.buffer.length < 8) →
      (∀ m ∈ g.members, (s.ctx m).gang.isSome = true) → g.members.Nodup → u.actor = ⟨k, n⟩ → (u.ctx ⟨k, n⟩).gang = some g →
      (u.core k).instret ≠ (s.core k).instret → (u.ctx ⟨k, n⟩).xstat.getLsbD 11 = false → ¬ stopped →
      ∃ t, step s = .next t ∧ t.ctx ⟨k, n⟩ = u.ctx ⟨k, n⟩ ∧ ∀ m ∈ g.members, m ≠ ⟨k, n⟩ → ∀ cm x, u.ctx? m = some cm →
        cm.gang = some x → t.ctx? m = some { cm with gang := some { x with
          buffer := x.buffer ++ [⟨i, c.pc, (u.ctx ⟨k, n⟩).pc, c.pc + BitVec.ofNat 64 len⟩] } })) ∧
  ∀ (s : State) (d : Due) (rest : List Due), s.tape = [] → s.powered = true → s.agenda = d :: rest → d.at_ ≤ s.now →
    (∀ x ∈ rest, ∀ e y, arrivalEff s d = some e → arrivalEff s x = some y → y ≤ e) →
    step s = exec d.step { s with agenda := rest, args := d.args }

/-- R23 to R31, R379: words that the spec writes out decode to the instructions they stand for. -/
def Obligations.SpecWordsDecode : Prop := ∀ e ∈ specWords, decodeWord e.1 e.2.1 = .ok e.2.2

/-- Encoding and decoding agree: every well-formed instruction with an encoding decodes back from its bytes, whatever follows
them, with every operand. -/
def Obligations.DecodeEncode : Prop :=
  ∀ (i : Instr) (nbits w : Nat), i.WellFormed → encode i = some (nbits, w) →
    ∀ rest : List Byte, decode (leBytes (nbits / 8) w ++ rest) = .ok (i, rest)

/-- The bytes of device memory keep their canonical form in every step (the model's form of memory: addresses rise, and no
listed byte is zero), so that equal memories are equal data. -/
def Obligations.MemoryStaysCanonical : Prop := ∀ s t : State, s.MemoryWf → step s = .next t → t.MemoryWf

/-- Memory after reset has its canonical form, and every byte of it reads zero (R430). -/
def Obligations.MemoryAtReset : Prop := State.reset.MemoryWf ∧ ∀ a, State.reset.physByte a = 0

/-- What the spec says of the state after reset: memory and local stores are zero and full (R430, R182), planes are empty and
the accumulators zero (R263), partition 0 is the package of kernel 1 (R410), no register of the hub is set (R375, R394, R400,
R434), channels have 64 credits and the status word of R311, and a new context is zero with a limit of 16 (R34, R36). -/
def Obligations.ResetState : Prop :=
  let s := State.reset
  (∀ k a, Map.get 0 (s.core k).ls a = 0 ∧ (s.core k).wordState a = 1) ∧
    (∀ k, (s.core k).threads = [] ∧ (s.core k).xdeleg = 0 ∧ (s.core k).eng.active = 0 ∧
      (∀ i < 2, ((s.core k).eng.plane i).state = .empty) ∧ ∀ r, Map.get 0 (s.core k).eng.acc r = 0) ∧
    (∀ k n, Map.get 0 (s.core k).kval n = 0 ∧ Map.get 0 (s.core k).kout n = 0) ∧
    (∀ k c, ((s.core k).chan c).values = [] ∧ ((s.core k).chan c).lo = 0 ∧ ((s.core k).chan c).hi = 64 ∧
      (s.core k).creditsLeft c = 64) ∧
    (s.part 0).node = 1 ∧ (s.part 0).kernel = 1 ∧ (s.part 0).valid = true ∧ (∀ p, p ≠ 0 → (s.part p).valid = false) ∧
    (∀ p, (s.part p).root = 0 ∧ (s.part p).tenant = 0 ∧ (s.part p).kernel = 1) ∧ (∀ d j, Tbl.get? (s.die d).remaps j = none) ∧
    (∀ n, (s.faultQueue n).base = 0 ∧ (s.faultQueue n).head = 0 ∧ (s.faultQueue n).tail = 0 ∧ (s.faultQueue n).note = 0) ∧
    (∀ n, Map.get 0 s.hub.kroot n = 0) ∧ s.plat.snapctl = 0 ∧ s.plat.owner = 0 ∧ s.plat.handTo = 0 ∧
    s.plat.devidWritten = false ∧ s.plat.wiping = true ∧
    (∀ f, (s.deed f).state = .zeroOnRead ∧ (s.deed f).owner = 0) ∧
    (∀ t, exec .wipeComplete s = .next t → ∀ f, (t.deed f).state = .owned ∧ (t.deed f).owner = 0) ∧
    let c := Ctx.fresh
    (∀ r, c.rg r = 0 ∧ c.rv r = 0 ∧ c.re r = 0) ∧ (∀ r, 1 ≤ r → c.rp r = 0) ∧ c.xvec = 0 ∧ c.xpc = 0 ∧ c.xcause = 0 ∧
      c.xval = 0 ∧ c.fpc = 0 ∧ c.rank = 0 ∧ c.gsize = 0 ∧ c.crewsz = 0 ∧ c.felim = 16 ∧ c.bindU = 4 ∧ c.bindV = 4
end

