-- ==== Sys2Proof/Laws/Heat.lean ====
section
/-! SUPPORT. What the comparison of two heat records decides: whether an occurrence of one overlaps an occurrence of the other
(R412). -/

namespace Sys2Proof.Machine

/-- Every multiple of the gcd of two positive periods is a difference of multiples of them that are not negative. -/
theorem periods_reach {p q : Nat} (hp : 0 < p) (hq : 0 < q) {m : Int} (h : (Nat.gcd p q : Int) ∣ m) :
    ∃ i j : Nat, (j : Int) * q - i * p = m := by
  obtain ⟨k, rfl⟩ := h
  let i₀ : Int := -(k * Nat.gcdA p q)
  let j₀ : Int := k * Nat.gcdB p q
  let t : Int := |i₀| + |j₀|
  have ht : 0 ≤ t := by positivity
  have hi : 0 ≤ i₀ + t * q := by
    have : t ≤ t * q := le_mul_of_one_le_right ht (by exact_mod_cast hq)
    have := neg_abs_le i₀
    have := abs_nonneg j₀
    omega
  have hj : 0 ≤ j₀ + t * p := by
    have : t ≤ t * p := le_mul_of_one_le_right ht (by exact_mod_cast hp)
    have := neg_abs_le j₀
    have := abs_nonneg i₀
    omega
  refine ⟨(i₀ + t * q).toNat, (j₀ + t * p).toNat, ?_⟩
  rw [Int.toNat_of_nonneg hi, Int.toNat_of_nonneg hj, Nat.gcd_eq_gcd_ab p q]
  ring

/-- The least number above `lo` in the class of `d` modulo `g`. -/
theorem least_above {g lo d r : Int} (hg : 0 < g) (h : g ∣ r - d) (hr : lo < r) : lo + 1 + (d - lo - 1) % g ≤ r := by
  obtain ⟨k, hk⟩ := h
  have e : (r - lo - 1) % g = (d - lo - 1) % g := by
    rw [show r - lo - 1 = d - lo - 1 + g * k by omega, Int.add_mul_emod_self_left]
  have hm := Int.emod_add_mul_ediv (r - lo - 1) g
  have hq : 0 ≤ (r - lo - 1) / g := Int.ediv_nonneg (by omega) hg.le
  have := mul_nonneg hg.le hq
  omega

/-- That number differs from `d` by a multiple of `g`. -/
theorem least_above_dvd (g lo d : Int) : g ∣ (lo + 1 + (d - lo - 1) % g) - d := by
  refine ⟨-((d - lo - 1) / g), ?_⟩
  have := Int.emod_add_mul_ediv (d - lo - 1) g
  rw [mul_neg]
  omega

/-- `heatsOverlap` decides R412's overlap of two records whose occurrences are not empty. -/
theorem heatsOverlap_iff (x y : HeatRec) (hx : x.start < x.end_) (hy : y.start < y.end_) :
    heatsOverlap x y = true ↔ ∃ i j : Nat, (x.period = 0 → i = 0) ∧ (y.period = 0 → j = 0) ∧
      x.start + i * x.period < y.end_ + j * y.period ∧ y.start + j * y.period < x.end_ + i * x.period := by
  have hlx : ((x.end_ - x.start : Nat) : Int) = x.end_ - x.start := by omega
  have hly : ((y.end_ - y.start : Nat) : Int) = y.end_ - y.start := by omega
  -- an overlap of occurrences i and j says that the distance of their starts lies between lo and hi
  have key : (∃ i j : Nat, (x.period = 0 → i = 0) ∧ (y.period = 0 → j = 0) ∧
      x.start + i * x.period < y.end_ + j * y.period ∧ y.start + j * y.period < x.end_ + i * x.period) ↔
      ∃ i j : Nat, (x.period = 0 → i = 0) ∧ (y.period = 0 → j = 0) ∧
        (y.start : Int) - y.end_ < y.start - x.start + (j * y.period - i * x.period) ∧
        (y.start : Int) - x.start + (j * y.period - i * x.period) < x.end_ - x.start := by
    refine exists_congr fun i => exists_congr fun j => and_congr_right fun _ => and_congr_right fun _ => ?_
    zify
    constructor <;> rintro ⟨h1, h2⟩ <;> constructor <;> linarith
  rw [key]
  unfold heatsOverlap
  simp only [hlx, hly]
  generalize hd : (y.start : Int) - x.start = d
  generalize hlo : -((y.end_ : Int) - y.start) = lo
  rw [show (y.start : Int) - y.end_ = lo by omega]
  generalize (x.end_ : Int) - x.start = hi
  generalize x.period = p
  generalize y.period = q
  split
  · rename_i h
    obtain ⟨rfl, rfl⟩ := Nat.gcd_eq_zero_iff.mp h
    simp
  · rename_i h
    have hg : (0 : Int) < Nat.gcd p q := by omega
    have hv := least_above_dvd (Nat.gcd p q) lo d
    have hlt : lo < lo + 1 + (d - lo - 1) % (Nat.gcd p q : Int) := by
      have := Int.emod_nonneg (d - lo - 1) hg.ne'
      omega
    have hmin : ∀ i j : Nat, lo < d + ((j : Int) * q - i * p) →
        lo + 1 + (d - lo - 1) % (Nat.gcd p q : Int) ≤ d + ((j : Int) * q - i * p) := fun i j hr => by
      refine least_above hg ?_ hr
      rw [add_sub_cancel_left]
      exact dvd_sub ((Int.natCast_dvd_natCast.mpr (Nat.gcd_dvd_right p q)).mul_left _)
        ((Int.natCast_dvd_natCast.mpr (Nat.gcd_dvd_left p q)).mul_left _)
    generalize lo + 1 + (d - lo - 1) % (Nat.gcd p q : Int) = v at hv hlt hmin
    split
    · rename_i hq
      subst hq
      simp only [Nat.gcd_zero_right] at hv hg
      simp only [Bool.and_eq_true, decide_eq_true_eq]
      constructor
      · rintro ⟨h1, h2⟩
        obtain ⟨k, hk⟩ := hv
        have hk0 : k ≤ 0 := by by_contra hk0; have := mul_pos hg (by omega : 0 < k); omega
        refine ⟨(-k).toNat, 0, fun h => by omega, fun _ => rfl, ?_⟩
        rw [Int.toNat_of_nonneg (by omega)]
        have : d + (((0 : Nat) : Int) * ((0 : Nat) : Int) - -k * p) = v := by push_cast; linarith [mul_comm k (p : Int)]
        omega
      · rintro ⟨i, j, -, -, h1, h2⟩
        have := hmin i j h1
        have hip : (0 : Int) ≤ i * p := by positivity
        simp only [Nat.cast_zero, mul_zero, zero_sub] at this h2
        omega
    · rename_i hq
      split
      · rename_i hp
        subst hp
        simp only [Nat.gcd_zero_left] at hv hg
        simp only [decide_eq_true_eq]
        constructor
        · intro h1
          split at h1
          · exact ⟨0, 0, fun _ => rfl, fun _ => rfl, by simpa using ‹lo < d›, by simpa using h1⟩
          · obtain ⟨k, hk⟩ := hv
            have hk0 : 0 ≤ k := by by_contra hk0; have := mul_pos hg (by omega : 0 < -k); rw [mul_neg] at this; omega
            refine ⟨0, k.toNat, fun _ => rfl, fun h => absurd h hq, ?_⟩
            rw [Int.toNat_of_nonneg hk0]
            have : d + (k * (q : Int) - ((0 : Nat) : Int) * ((0 : Nat) : Int)) = v := by push_cast; linarith [mul_comm k (q : Int)]
            omega
        · rintro ⟨i, j, -, -, h1, h2⟩
          have := hmin i j h1
          have hjq : (0 : Int) ≤ j * q := by positivity
          simp only [Nat.cast_zero, mul_zero, sub_zero] at this h1 h2
          split <;> omega
      · rename_i hp
        simp only [decide_eq_true_eq]
        constructor
        · intro h1
          obtain ⟨i, j, hij⟩ := periods_reach (by omega : 0 < p) (by omega : 0 < q) hv
          exact ⟨i, j, fun h => absurd h hp, fun h => absurd h hq, by omega, by omega⟩
        · rintro ⟨i, j, -, -, h1, h2⟩
          exact lt_of_le_of_lt (hmin i j h1) h2

end Sys2Proof.Machine
end

