-- ==== Sys2Proof/Laws/Store.lean ====
section
/-! SUPPORT. The laws of the stores: what reads after an update, and that every update keeps the canonical form. -/

namespace Sys2Proof

namespace Tbl

variable {α : Type}

@[simp] theorem get?_nil (k : Nat) : get? ([] : Tbl α) k = none := rfl

theorem get?_del_same (m : Tbl α) (k : Nat) : get? (del m k) k = none := by
  induction m with
  | nil => rfl
  | cons e m ih =>
    simp only [del]
    split
    · exact ih
    · simp [get?, *]

theorem get?_del_ne (m : Tbl α) {k j : Nat} (h : j ≠ k) : get? (del m k) j = get? m j := by
  induction m with
  | nil => rfl
  | cons e m ih =>
    simp only [del]
    split
    · rename_i hk; rw [ih]; simp [get?, hk ▸ Ne.symm h]
    · simp only [get?, ih]

theorem get?_insert_same (m : Tbl α) (k : Nat) (v : α) : get? (insert m k v) k = some v := by
  induction m with
  | nil => simp [insert, get?]
  | cons e m ih =>
    simp only [insert]
    split
    · rename_i h; simp [get?, Nat.ne_of_lt h, ih]
    · simp [get?]

theorem get?_insert_ne (m : Tbl α) {k j : Nat} (v : α) (h : j ≠ k) : get? (insert m k v) j = get? m j := by
  induction m with
  | nil => simp [insert, get?, Ne.symm h]
  | cons e m ih =>
    simp only [insert]
    split
    · simp only [get?, ih]
    · simp [get?, Ne.symm h]

/-- Reading the key just written. -/
@[simp] theorem get?_put_same (m : Tbl α) (k : Nat) (v : α) : get? (put m k v) k = some v :=
  get?_insert_same _ _ _

/-- Reading another key. -/
theorem get?_put_ne (m : Tbl α) {k j : Nat} (v : α) (h : j ≠ k) : get? (put m k v) j = get? m j := by
  rw [put, get?_insert_ne _ _ h, get?_del_ne _ h]

/-- A read after a write, in one equation. -/
theorem get?_put (m : Tbl α) (k j : Nat) (v : α) : get? (put m k v) j = if j = k then some v else get? m j := by
  split
  · subst_vars; simp
  · exact get?_put_ne m v ‹_›

theorem del_del (m : Tbl α) (k : Nat) : del (del m k) k = del m k := by
  induction m with
  | nil => rfl
  | cons e m ih =>
    simp only [del]
    split
    · exact ih
    · rename_i h; simp [del, h, ih]

theorem del_insert (m : Tbl α) (k : Nat) (v : α) : del (insert m k v) k = del m k := by
  induction m with
  | nil => simp [insert, del]
  | cons e m ih =>
    simp only [insert]
    split
    · rename_i h; simp [del, Nat.ne_of_lt h, ih]
    · simp [del]

/-- The later of two writes to one key stands. -/
@[simp] theorem put_put (m : Tbl α) (k : Nat) (v w : α) : put (put m k v) k w = put m k w := by
  simp only [put, del_insert, del_del]

/-- The keys of a sorted table after its first are larger. -/
theorem sorted_cons {k : Nat} {v : α} {m : Tbl α} :
    sorted ((k, v) :: m) = true ↔ (∀ e ∈ m, k < e.1) ∧ sorted m = true := by
  induction m generalizing k v with
  | nil => simp [sorted]
  | cons e m ih =>
    obtain ⟨k', v'⟩ := e
    rw [sorted, Bool.and_eq_true, decide_eq_true_iff]
    constructor
    · rintro ⟨h, hm⟩
      refine ⟨?_, hm⟩
      intro x hx
      rcases List.mem_cons.1 hx with rfl | hx
      · exact h
      · exact Nat.lt_trans h ((ih.1 hm).1 x hx)
    · rintro ⟨h, hm⟩
      exact ⟨h _ (List.mem_cons_self ..), hm⟩

theorem mem_of_mem_del {m : Tbl α} {k : Nat} {e : Nat × α} (h : e ∈ del m k) : e ∈ m ∧ e.1 ≠ k := by
  induction m with
  | nil => exact absurd h (by simp [del])
  | cons x m ih =>
    simp only [del] at h
    split at h
    · exact ⟨List.mem_cons_of_mem _ (ih h).1, (ih h).2⟩
    · rcases List.mem_cons.1 h with rfl | h
      · exact ⟨List.mem_cons_self .., ‹_›⟩
      · exact ⟨List.mem_cons_of_mem _ (ih h).1, (ih h).2⟩

theorem sorted_del {m : Tbl α} (h : sorted m = true) (k : Nat) : sorted (del m k) = true := by
  induction m with
  | nil => exact h
  | cons e m ih =>
    obtain ⟨k', v'⟩ := e
    have h := sorted_cons.1 h
    simp only [del]
    split
    · exact ih h.2
    · exact sorted_cons.2 ⟨fun e he => h.1 e (mem_of_mem_del he).1, ih h.2⟩

theorem mem_insert {m : Tbl α} {k : Nat} {v : α} {e : Nat × α} (h : e ∈ insert m k v) : e = (k, v) ∨ e ∈ m := by
  induction m with
  | nil => simpa [insert] using h
  | cons x m ih =>
    simp only [insert] at h
    split at h
    · rcases List.mem_cons.1 h with rfl | h
      · exact .inr (List.mem_cons_self ..)
      · exact (ih h).imp id (List.mem_cons_of_mem _)
    · rcases List.mem_cons.1 h with rfl | h
      · exact .inl rfl
      · exact .inr h

theorem sorted_insert {m : Tbl α} (h : sorted m = true) {k : Nat} (hk : ∀ e ∈ m, e.1 ≠ k) (v : α) :
    sorted (insert m k v) = true := by
  induction m with
  | nil => rfl
  | cons e m ih =>
    obtain ⟨k', v'⟩ := e
    have hs := sorted_cons.1 h
    simp only [insert]
    split
    · rename_i hlt
      refine sorted_cons.2 ⟨fun x hx => ?_, ih hs.2 fun e he => hk e (List.mem_cons_of_mem _ he)⟩
      rcases mem_insert hx with rfl | hx
      · exact hlt
      · exact hs.1 x hx
    · rename_i hge
      have : k < k' := Nat.lt_of_le_of_ne (Nat.le_of_not_lt hge) (Ne.symm (hk _ (List.mem_cons_self ..)))
      refine sorted_cons.2 ⟨fun x hx => ?_, h⟩
      rcases List.mem_cons.1 hx with rfl | hx
      · exact this
      · exact Nat.lt_trans this (hs.1 x hx)

/-- A write keeps the keys rising. -/
theorem sorted_put {m : Tbl α} (h : sorted m = true) (k : Nat) (v : α) : sorted (put m k v) = true :=
  sorted_insert (sorted_del h k) (fun _ he => (mem_of_mem_del he).2) v

theorem sorted_filter {m : Tbl α} (h : sorted m = true) (p : Nat × α → Bool) : sorted (m.filter p) = true := by
  induction m with
  | nil => rfl
  | cons e m ih =>
    obtain ⟨k', v'⟩ := e
    have h := sorted_cons.1 h
    rw [List.filter_cons]
    split
    · exact sorted_cons.2 ⟨fun e he => h.1 e (List.mem_of_mem_filter he), ih h.2⟩
    · exact ih h.2

end Tbl

namespace Map

variable {α : Type}

@[simp] theorem get_nil (d : α) (k : Nat) : get d ([] : Map α) k = d := rfl

/-- Reading the key just written. -/
@[simp] theorem get_set_same [DecidableEq α] (d : α) (m : Map α) (k : Nat) (v : α) : get d (set d m k v) k = v := by
  unfold get set
  split
  · subst_vars; simp [Tbl.get?_del_same]
  · simp

/-- Reading another key. -/
theorem get_set_ne [DecidableEq α] (d : α) (m : Map α) {k j : Nat} (v : α) (h : j ≠ k) :
    get d (set d m k v) j = get d m j := by
  unfold get set
  split
  · rw [Tbl.get?_del_ne _ h]
  · rw [Tbl.get?_put_ne _ _ h]

/-- A read after a write, in one equation. -/
theorem get_set [DecidableEq α] (d : α) (m : Map α) (k j : Nat) (v : α) :
    get d (set d m k v) j = if j = k then v else get d m j := by
  split
  · subst_vars; simp
  · exact get_set_ne d m v ‹_›

theorem wf_iff [DecidableEq α] {d : α} {m : Map α} :
    wf d m = true ↔ Tbl.sorted m = true ∧ ∀ e ∈ m, e.2 ≠ d := by
  simp [wf]

/-- A write keeps the canonical form. -/
theorem wf_set [DecidableEq α] {d : α} {m : Map α} (h : wf d m = true) (k : Nat) (v : α) : wf d (set d m k v) = true := by
  have h := wf_iff.1 h
  unfold set
  split
  · exact wf_iff.2 ⟨Tbl.sorted_del h.1 k, fun e he => h.2 e (Tbl.mem_of_mem_del he).1⟩
  · rename_i hv
    refine wf_iff.2 ⟨Tbl.sorted_put h.1 k v, fun e he => ?_⟩
    rcases Tbl.mem_insert he with rfl | he
    · exact hv
    · exact h.2 e (Tbl.mem_of_mem_del he).1

/-- Dropping entries keeps the canonical form. -/
theorem wf_filter [DecidableEq α] {d : α} {m : Map α} (h : wf d m = true) (p : Nat × α → Bool) :
    wf d (m.filter p) = true :=
  have h := wf_iff.1 h
  wf_iff.2 ⟨Tbl.sorted_filter h.1 p, fun e he => h.2 e (List.mem_of_mem_filter he)⟩

end Map

end Sys2Proof
end

