-- ==== Sys2Proof/Laws/Memory.lean ====
section
/-! SUPPORT. What the memory operations do: a write keeps the canonical form, a read after it gives what
was written there, and every other byte reads as before. -/

namespace Sys2Proof.Machine

/-- A numbered write keeps the canonical form. -/
theorem wf_writeBytes : ∀ (n : Nat) {m : Map Byte} (_ : Memory.wf m = true) (x v : Nat),
    Memory.wf (writeBytes m x n v) = true
  | 0, _, h, _, _ => h
  | n + 1, _, h, x, v => wf_writeBytes n (Map.wf_set h x _) (x + 1) (v / 256)

/-- A list write keeps the canonical form. -/
theorem wf_putBytes : ∀ (bs : List Byte) {m : Map Byte} (_ : Memory.wf m = true) (x : Nat),
    Memory.wf (putBytes m x bs) = true
  | [], _, h, _ => h
  | b :: bs, _, h, x => wf_putBytes bs (Map.wf_set h x b) (x + 1)

/-- A byte outside a numbered write reads as before. -/
theorem get_writeBytes_ne : ∀ (n : Nat) (m : Map Byte) (x v : Nat) {a : Nat} (_ : a < x ∨ x + n ≤ a),
    Map.get 0 (writeBytes m x n v) a = Map.get 0 m a
  | 0, _, _, _, _, _ => rfl
  | n + 1, m, x, v, a, h => by
    rw [writeBytes, get_writeBytes_ne n _ _ _ (by omega), Map.get_set_ne _ _ _ (by omega)]

/-- A byte outside a list write reads as before. -/
theorem get_putBytes_ne : ∀ (bs : List Byte) (m : Map Byte) (x : Nat) {a : Nat} (_ : a < x ∨ x + bs.length ≤ a),
    Map.get 0 (putBytes m x bs) a = Map.get 0 m a
  | [], _, _, _, _ => rfl
  | b :: bs, m, x, a, h => by
    rw [List.length_cons] at h
    rw [putBytes, get_putBytes_ne bs _ _ (by omega), Map.get_set_ne _ _ _ (by omega)]

/-- A byte of a list write reads as written. -/
theorem get_putBytes : ∀ (bs : List Byte) (m : Map Byte) (x i : Nat) (h : i < bs.length),
    Map.get 0 (putBytes m x bs) (x + i) = bs[i]
  | b :: bs, m, x, 0, _ => by
    rw [putBytes, get_putBytes_ne bs _ _ (by omega)]; simp
  | b :: bs, m, x, i + 1, h => by
    rw [putBytes, show x + (i + 1) = x + 1 + i by omega,
      get_putBytes bs _ (x + 1) i (by simpa using h)]; simp

/-- A number read where it was written: its low `n` bytes. -/
theorem readBytes_writeBytes : ∀ (n : Nat) (m : Map Byte) (x v : Nat),
    readBytes (writeBytes m x n v) x n = v % 256 ^ n
  | 0, _, _, _ => by simp [readBytes, Nat.mod_one]
  | n + 1, m, x, v => by
    rw [readBytes, writeBytes, readBytes_writeBytes n, get_writeBytes_ne n _ _ _ (by omega), Map.get_set_same,
      Nat.pow_succ, Nat.mul_comm (256 ^ n), Nat.mod_mul]
    simp

/-- A number read outside a numbered write reads as before. -/
theorem readBytes_writeBytes_ne (n : Nat) (m : Map Byte) (x v : Nat) : ∀ (k y : Nat) (_ : y + k ≤ x ∨ x + n ≤ y),
    readBytes (writeBytes m x n v) y k = readBytes m y k
  | 0, _, _ => rfl
  | k + 1, y, h => by
    rw [readBytes, readBytes, get_writeBytes_ne n m x v (by omega), readBytes_writeBytes_ne n m x v k _ (by omega)]

/-- The bytes after one is written: the rest of a blank line becomes zeros. -/
theorem physSet_dram (s : State) (pa : Nat) (b : Byte) : (s.physSet pa b).dram =
    Map.set 0 (if s.isBlank pa then putBytes s.dram (pa / 64 * 64) (List.replicate 64 0) else s.dram) pa b := by
  unfold State.physSet
  by_cases h : s.isBlank pa = true
  · simp only [if_pos h]
  · simp only [if_neg h]

/-- The written lines after a byte is written: a blank line joins them (R409). -/
theorem physSet_lines (s : State) (pa : Nat) (b : Byte) : (s.physSet pa b).hub.lines =
    if s.isBlank pa then Tbl.put s.hub.lines (frameOf pa) (pa / 64 :: s.writtenLines (frameOf pa)) else s.hub.lines := by
  unfold State.physSet
  by_cases h : s.isBlank pa = true
  · simp only [if_pos h]
  · simp only [if_neg h]

/-- Writing a byte changes no deed. -/
theorem physSet_deed (s : State) (pa : Nat) (b : Byte) (f : Nat) : (s.physSet pa b).deed f = s.deed f := by
  unfold State.physSet
  split <;> rfl

/-- A byte written to device memory keeps its canonical form. -/
theorem wf_physSet {s : State} (h : Memory.wf s.dram = true) (pa : Nat) (b : Byte) :
    Memory.wf (s.physSet pa b).dram = true := by
  rw [physSet_dram]
  refine Map.wf_set ?_ _ _
  split
  · exact wf_putBytes _ h _
  · exact h

/-- Bytes written to device memory keep its canonical form. -/
theorem wf_physPut : ∀ (bs : List Byte) {s : State} (_ : Memory.wf s.dram = true) (pa : Nat),
    Memory.wf (s.physPut pa bs).dram = true
  | [], _, h, _ => h
  | b :: bs, _, h, pa => wf_physPut bs (wf_physSet h pa b) (pa + 1)

theorem isBlank_of {s t : State} (hd : ∀ f, t.deed f = s.deed f) (a : Nat) : t.isBlank a =
    (decide ((s.deed (frameOf a)).state = .zeroOnRead) &&
      !((Tbl.get? t.hub.lines (frameOf a)).getD []).contains (a / 64)) := by
  unfold State.isBlank State.writtenLines; rw [hd]

/-- Writing a byte leaves its line written and every other line as it was (R409). -/
theorem isBlank_physSet (s : State) (pa : Nat) (b : Byte) (a : Nat) :
    (s.physSet pa b).isBlank a = (s.isBlank a && decide (a / 64 ≠ pa / 64)) := by
  have hs := isBlank_of (s := s) (t := s) (fun _ => rfl) a
  have ht := isBlank_of (physSet_deed s pa b) a
  have hlines := physSet_lines s pa b
  by_cases hb : s.isBlank pa = true
  · rw [if_pos hb] at hlines
    rw [ht, hs, hlines, Tbl.get?_put]
    by_cases hl : a / 64 = pa / 64
    · have hf : frameOf a = frameOf pa := by unfold frameOf; omega
      simp [hl, hf]
    · by_cases hf : frameOf a = frameOf pa <;> simp [hf, hl, State.writtenLines]
  · rw [if_neg hb] at hlines
    rw [hlines, ← hs] at ht
    rw [ht]
    by_cases hl : a / 64 = pa / 64
    · have hf : frameOf a = frameOf pa := by unfold frameOf; omega
      have : s.isBlank a = s.isBlank pa := by simp only [State.isBlank, hf, hl]
      simp [this, hb]
    · simp [hl]

/-- Device memory after one byte is written, in a zero-on-read frame too (R409). -/
theorem physByte_physSet (s : State) (pa : Nat) (b : Byte) (a : Nat) :
    (s.physSet pa b).physByte a = if a = pa then b else s.physByte a := by
  unfold State.physByte
  rw [isBlank_physSet, physSet_dram, Map.get_set]
  by_cases ha : a = pa
  · subst ha; simp
  · simp only [if_neg ha]
    by_cases hl : a / 64 = pa / 64
    · have hs : s.isBlank a = s.isBlank pa := by
        have hf : frameOf a = frameOf pa := by unfold frameOf; omega
        simp only [State.isBlank, hf, hl]
      by_cases hb : s.isBlank pa = true
      · have h0 := get_putBytes (List.replicate 64 0) s.dram (pa / 64 * 64) (a - pa / 64 * 64)
          (by rw [List.length_replicate]; omega)
        rw [show pa / 64 * 64 + (a - pa / 64 * 64) = a by omega, List.getElem_replicate] at h0
        simp only [if_pos hb, h0, hs, ite_self]
      · simp [hs, hb]
    · simp only [hl, ne_eq, not_false_eq_true, decide_true, Bool.and_true]
      by_cases hb : s.isBlank pa = true
      · rw [if_pos hb, get_putBytes_ne _ _ _ (by rw [List.length_replicate]; omega)]
      · rw [if_neg hb]

end Sys2Proof.Machine
end

