-- ==== Sys2Proof/Laws/State.lean ====
section
/-! SUPPORT. One lemma per field per update of the state, so that no proof unfolds a record update; and what reads after an
update of a core or a context. -/

namespace Sys2Proof.Machine

/-! ### setCore -/

@[simp] theorem State.setCore_actor (s : State) (k : Nat) (c : Core) : (s.setCore k c).actor = s.actor := rfl
@[simp] theorem State.setCore_args (s : State) (k : Nat) (c : Core) : (s.setCore k c).args = s.args := rfl
@[simp] theorem State.setCore_now (s : State) (k : Nat) (c : Core) : (s.setCore k c).now = s.now := rfl
@[simp] theorem State.setCore_resetAt (s : State) (k : Nat) (c : Core) : (s.setCore k c).resetAt = s.resetAt := rfl
@[simp] theorem State.setCore_time (s : State) (k : Nat) (c : Core) : (s.setCore k c).time = s.time := rfl
@[simp] theorem State.setCore_ids (s : State) (k : Nat) (c : Core) : (s.setCore k c).ids = s.ids := rfl
@[simp] theorem State.setCore_fresh (s : State) (k : Nat) (c : Core) : (s.setCore k c).fresh = s.fresh := rfl
@[simp] theorem State.setCore_agenda (s : State) (k : Nat) (c : Core) : (s.setCore k c).agenda = s.agenda := rfl
@[simp] theorem State.setCore_tape (s : State) (k : Nat) (c : Core) : (s.setCore k c).tape = s.tape := rfl
@[simp] theorem State.setCore_powered (s : State) (k : Nat) (c : Core) : (s.setCore k c).powered = s.powered := rfl
@[simp] theorem State.setCore_net (s : State) (k : Nat) (c : Core) : (s.setCore k c).net = s.net := rfl
@[simp] theorem State.setCore_dram (s : State) (k : Nat) (c : Core) : (s.setCore k c).dram = s.dram := rfl
@[simp] theorem State.setCore_dramBad (s : State) (k : Nat) (c : Core) : (s.setCore k c).dramBad = s.dramBad := rfl
@[simp] theorem State.setCore_clusters (s : State) (k : Nat) (c : Core) : (s.setCore k c).clusters = s.clusters := rfl
@[simp] theorem State.setCore_dies (s : State) (k : Nat) (c : Core) : (s.setCore k c).dies = s.dies := rfl
@[simp] theorem State.setCore_walks (s : State) (k : Nat) (c : Core) : (s.setCore k c).walks = s.walks := rfl
@[simp] theorem State.setCore_fabric (s : State) (k : Nat) (c : Core) : (s.setCore k c).fabric = s.fabric := rfl
@[simp] theorem State.setCore_msis (s : State) (k : Nat) (c : Core) : (s.setCore k c).msis = s.msis := rfl
@[simp] theorem State.setCore_lastLoad (s : State) (k : Nat) (c : Core) : (s.setCore k c).lastLoad = s.lastLoad := rfl
@[simp] theorem State.setCore_lastFault (s : State) (k : Nat) (c : Core) : (s.setCore k c).lastFault = s.lastFault := rfl
@[simp] theorem State.setCore_lastDirect (s : State) (k : Nat) (c : Core) : (s.setCore k c).lastDirect = s.lastDirect := rfl
@[simp] theorem State.setCore_hub (s : State) (k : Nat) (c : Core) : (s.setCore k c).hub = s.hub := rfl
@[simp] theorem State.setCore_plat (s : State) (k : Nat) (c : Core) : (s.setCore k c).plat = s.plat := rfl

/-! ### onCore -/

@[simp] theorem State.onCore_actor (s : State) (k : Nat) (f : Core → Core) : (s.onCore k f).actor = s.actor := rfl
@[simp] theorem State.onCore_args (s : State) (k : Nat) (f : Core → Core) : (s.onCore k f).args = s.args := rfl
@[simp] theorem State.onCore_now (s : State) (k : Nat) (f : Core → Core) : (s.onCore k f).now = s.now := rfl
@[simp] theorem State.onCore_resetAt (s : State) (k : Nat) (f : Core → Core) : (s.onCore k f).resetAt = s.resetAt := rfl
@[simp] theorem State.onCore_time (s : State) (k : Nat) (f : Core → Core) : (s.onCore k f).time = s.time := rfl
@[simp] theorem State.onCore_ids (s : State) (k : Nat) (f : Core → Core) : (s.onCore k f).ids = s.ids := rfl
@[simp] theorem State.onCore_fresh (s : State) (k : Nat) (f : Core → Core) : (s.onCore k f).fresh = s.fresh := rfl
@[simp] theorem State.onCore_agenda (s : State) (k : Nat) (f : Core → Core) : (s.onCore k f).agenda = s.agenda := rfl
@[simp] theorem State.onCore_tape (s : State) (k : Nat) (f : Core → Core) : (s.onCore k f).tape = s.tape := rfl
@[simp] theorem State.onCore_powered (s : State) (k : Nat) (f : Core → Core) : (s.onCore k f).powered = s.powered := rfl
@[simp] theorem State.onCore_net (s : State) (k : Nat) (f : Core → Core) : (s.onCore k f).net = s.net := rfl
@[simp] theorem State.onCore_dram (s : State) (k : Nat) (f : Core → Core) : (s.onCore k f).dram = s.dram := rfl
@[simp] theorem State.onCore_dramBad (s : State) (k : Nat) (f : Core → Core) : (s.onCore k f).dramBad = s.dramBad := rfl
@[simp] theorem State.onCore_clusters (s : State) (k : Nat) (f : Core → Core) : (s.onCore k f).clusters = s.clusters := rfl
@[simp] theorem State.onCore_dies (s : State) (k : Nat) (f : Core → Core) : (s.onCore k f).dies = s.dies := rfl
@[simp] theorem State.onCore_walks (s : State) (k : Nat) (f : Core → Core) : (s.onCore k f).walks = s.walks := rfl
@[simp] theorem State.onCore_fabric (s : State) (k : Nat) (f : Core → Core) : (s.onCore k f).fabric = s.fabric := rfl
@[simp] theorem State.onCore_msis (s : State) (k : Nat) (f : Core → Core) : (s.onCore k f).msis = s.msis := rfl
@[simp] theorem State.onCore_lastLoad (s : State) (k : Nat) (f : Core → Core) : (s.onCore k f).lastLoad = s.lastLoad := rfl
@[simp] theorem State.onCore_lastFault (s : State) (k : Nat) (f : Core → Core) : (s.onCore k f).lastFault = s.lastFault := rfl
@[simp] theorem State.onCore_lastDirect (s : State) (k : Nat) (f : Core → Core) : (s.onCore k f).lastDirect = s.lastDirect := rfl
@[simp] theorem State.onCore_hub (s : State) (k : Nat) (f : Core → Core) : (s.onCore k f).hub = s.hub := rfl
@[simp] theorem State.onCore_plat (s : State) (k : Nat) (f : Core → Core) : (s.onCore k f).plat = s.plat := rfl

/-! ### setCtx -/

@[simp] theorem State.setCtx_actor (s : State) (a : Actor) (c : Ctx) : (s.setCtx a c).actor = s.actor := rfl
@[simp] theorem State.setCtx_args (s : State) (a : Actor) (c : Ctx) : (s.setCtx a c).args = s.args := rfl
@[simp] theorem State.setCtx_now (s : State) (a : Actor) (c : Ctx) : (s.setCtx a c).now = s.now := rfl
@[simp] theorem State.setCtx_resetAt (s : State) (a : Actor) (c : Ctx) : (s.setCtx a c).resetAt = s.resetAt := rfl
@[simp] theorem State.setCtx_time (s : State) (a : Actor) (c : Ctx) : (s.setCtx a c).time = s.time := rfl
@[simp] theorem State.setCtx_ids (s : State) (a : Actor) (c : Ctx) : (s.setCtx a c).ids = s.ids := rfl
@[simp] theorem State.setCtx_fresh (s : State) (a : Actor) (c : Ctx) : (s.setCtx a c).fresh = s.fresh := rfl
@[simp] theorem State.setCtx_agenda (s : State) (a : Actor) (c : Ctx) : (s.setCtx a c).agenda = s.agenda := rfl
@[simp] theorem State.setCtx_tape (s : State) (a : Actor) (c : Ctx) : (s.setCtx a c).tape = s.tape := rfl
@[simp] theorem State.setCtx_powered (s : State) (a : Actor) (c : Ctx) : (s.setCtx a c).powered = s.powered := rfl
@[simp] theorem State.setCtx_net (s : State) (a : Actor) (c : Ctx) : (s.setCtx a c).net = s.net := rfl
@[simp] theorem State.setCtx_dram (s : State) (a : Actor) (c : Ctx) : (s.setCtx a c).dram = s.dram := rfl
@[simp] theorem State.setCtx_dramBad (s : State) (a : Actor) (c : Ctx) : (s.setCtx a c).dramBad = s.dramBad := rfl
@[simp] theorem State.setCtx_clusters (s : State) (a : Actor) (c : Ctx) : (s.setCtx a c).clusters = s.clusters := rfl
@[simp] theorem State.setCtx_dies (s : State) (a : Actor) (c : Ctx) : (s.setCtx a c).dies = s.dies := rfl
@[simp] theorem State.setCtx_walks (s : State) (a : Actor) (c : Ctx) : (s.setCtx a c).walks = s.walks := rfl
@[simp] theorem State.setCtx_fabric (s : State) (a : Actor) (c : Ctx) : (s.setCtx a c).fabric = s.fabric := rfl
@[simp] theorem State.setCtx_msis (s : State) (a : Actor) (c : Ctx) : (s.setCtx a c).msis = s.msis := rfl
@[simp] theorem State.setCtx_lastLoad (s : State) (a : Actor) (c : Ctx) : (s.setCtx a c).lastLoad = s.lastLoad := rfl
@[simp] theorem State.setCtx_lastFault (s : State) (a : Actor) (c : Ctx) : (s.setCtx a c).lastFault = s.lastFault := rfl
@[simp] theorem State.setCtx_lastDirect (s : State) (a : Actor) (c : Ctx) : (s.setCtx a c).lastDirect = s.lastDirect := rfl
@[simp] theorem State.setCtx_hub (s : State) (a : Actor) (c : Ctx) : (s.setCtx a c).hub = s.hub := rfl
@[simp] theorem State.setCtx_plat (s : State) (a : Actor) (c : Ctx) : (s.setCtx a c).plat = s.plat := rfl

/-! ### setMe -/

@[simp] theorem State.setMe_actor (s : State) (c : Ctx) : (s.setMe c).actor = s.actor := rfl
@[simp] theorem State.setMe_args (s : State) (c : Ctx) : (s.setMe c).args = s.args := rfl
@[simp] theorem State.setMe_now (s : State) (c : Ctx) : (s.setMe c).now = s.now := rfl
@[simp] theorem State.setMe_resetAt (s : State) (c : Ctx) : (s.setMe c).resetAt = s.resetAt := rfl
@[simp] theorem State.setMe_time (s : State) (c : Ctx) : (s.setMe c).time = s.time := rfl
@[simp] theorem State.setMe_ids (s : State) (c : Ctx) : (s.setMe c).ids = s.ids := rfl
@[simp] theorem State.setMe_fresh (s : State) (c : Ctx) : (s.setMe c).fresh = s.fresh := rfl
@[simp] theorem State.setMe_agenda (s : State) (c : Ctx) : (s.setMe c).agenda = s.agenda := rfl
@[simp] theorem State.setMe_tape (s : State) (c : Ctx) : (s.setMe c).tape = s.tape := rfl
@[simp] theorem State.setMe_powered (s : State) (c : Ctx) : (s.setMe c).powered = s.powered := rfl
@[simp] theorem State.setMe_net (s : State) (c : Ctx) : (s.setMe c).net = s.net := rfl
@[simp] theorem State.setMe_dram (s : State) (c : Ctx) : (s.setMe c).dram = s.dram := rfl
@[simp] theorem State.setMe_dramBad (s : State) (c : Ctx) : (s.setMe c).dramBad = s.dramBad := rfl
@[simp] theorem State.setMe_clusters (s : State) (c : Ctx) : (s.setMe c).clusters = s.clusters := rfl
@[simp] theorem State.setMe_dies (s : State) (c : Ctx) : (s.setMe c).dies = s.dies := rfl
@[simp] theorem State.setMe_walks (s : State) (c : Ctx) : (s.setMe c).walks = s.walks := rfl
@[simp] theorem State.setMe_fabric (s : State) (c : Ctx) : (s.setMe c).fabric = s.fabric := rfl
@[simp] theorem State.setMe_msis (s : State) (c : Ctx) : (s.setMe c).msis = s.msis := rfl
@[simp] theorem State.setMe_lastLoad (s : State) (c : Ctx) : (s.setMe c).lastLoad = s.lastLoad := rfl
@[simp] theorem State.setMe_lastFault (s : State) (c : Ctx) : (s.setMe c).lastFault = s.lastFault := rfl
@[simp] theorem State.setMe_lastDirect (s : State) (c : Ctx) : (s.setMe c).lastDirect = s.lastDirect := rfl
@[simp] theorem State.setMe_hub (s : State) (c : Ctx) : (s.setMe c).hub = s.hub := rfl
@[simp] theorem State.setMe_plat (s : State) (c : Ctx) : (s.setMe c).plat = s.plat := rfl

/-! ### onMe -/

@[simp] theorem State.onMe_actor (s : State) (f : Ctx → Ctx) : (s.onMe f).actor = s.actor := rfl
@[simp] theorem State.onMe_args (s : State) (f : Ctx → Ctx) : (s.onMe f).args = s.args := rfl
@[simp] theorem State.onMe_now (s : State) (f : Ctx → Ctx) : (s.onMe f).now = s.now := rfl
@[simp] theorem State.onMe_resetAt (s : State) (f : Ctx → Ctx) : (s.onMe f).resetAt = s.resetAt := rfl
@[simp] theorem State.onMe_time (s : State) (f : Ctx → Ctx) : (s.onMe f).time = s.time := rfl
@[simp] theorem State.onMe_ids (s : State) (f : Ctx → Ctx) : (s.onMe f).ids = s.ids := rfl
@[simp] theorem State.onMe_fresh (s : State) (f : Ctx → Ctx) : (s.onMe f).fresh = s.fresh := rfl
@[simp] theorem State.onMe_agenda (s : State) (f : Ctx → Ctx) : (s.onMe f).agenda = s.agenda := rfl
@[simp] theorem State.onMe_tape (s : State) (f : Ctx → Ctx) : (s.onMe f).tape = s.tape := rfl
@[simp] theorem State.onMe_powered (s : State) (f : Ctx → Ctx) : (s.onMe f).powered = s.powered := rfl
@[simp] theorem State.onMe_net (s : State) (f : Ctx → Ctx) : (s.onMe f).net = s.net := rfl
@[simp] theorem State.onMe_dram (s : State) (f : Ctx → Ctx) : (s.onMe f).dram = s.dram := rfl
@[simp] theorem State.onMe_dramBad (s : State) (f : Ctx → Ctx) : (s.onMe f).dramBad = s.dramBad := rfl
@[simp] theorem State.onMe_clusters (s : State) (f : Ctx → Ctx) : (s.onMe f).clusters = s.clusters := rfl
@[simp] theorem State.onMe_dies (s : State) (f : Ctx → Ctx) : (s.onMe f).dies = s.dies := rfl
@[simp] theorem State.onMe_walks (s : State) (f : Ctx → Ctx) : (s.onMe f).walks = s.walks := rfl
@[simp] theorem State.onMe_fabric (s : State) (f : Ctx → Ctx) : (s.onMe f).fabric = s.fabric := rfl
@[simp] theorem State.onMe_msis (s : State) (f : Ctx → Ctx) : (s.onMe f).msis = s.msis := rfl
@[simp] theorem State.onMe_lastLoad (s : State) (f : Ctx → Ctx) : (s.onMe f).lastLoad = s.lastLoad := rfl
@[simp] theorem State.onMe_lastFault (s : State) (f : Ctx → Ctx) : (s.onMe f).lastFault = s.lastFault := rfl
@[simp] theorem State.onMe_lastDirect (s : State) (f : Ctx → Ctx) : (s.onMe f).lastDirect = s.lastDirect := rfl
@[simp] theorem State.onMe_hub (s : State) (f : Ctx → Ctx) : (s.onMe f).hub = s.hub := rfl
@[simp] theorem State.onMe_plat (s : State) (f : Ctx → Ctx) : (s.onMe f).plat = s.plat := rfl

/-! ### setHere -/

@[simp] theorem State.setHere_actor (s : State) (c : Core) : (s.setHere c).actor = s.actor := rfl
@[simp] theorem State.setHere_args (s : State) (c : Core) : (s.setHere c).args = s.args := rfl
@[simp] theorem State.setHere_now (s : State) (c : Core) : (s.setHere c).now = s.now := rfl
@[simp] theorem State.setHere_resetAt (s : State) (c : Core) : (s.setHere c).resetAt = s.resetAt := rfl
@[simp] theorem State.setHere_time (s : State) (c : Core) : (s.setHere c).time = s.time := rfl
@[simp] theorem State.setHere_ids (s : State) (c : Core) : (s.setHere c).ids = s.ids := rfl
@[simp] theorem State.setHere_fresh (s : State) (c : Core) : (s.setHere c).fresh = s.fresh := rfl
@[simp] theorem State.setHere_agenda (s : State) (c : Core) : (s.setHere c).agenda = s.agenda := rfl
@[simp] theorem State.setHere_tape (s : State) (c : Core) : (s.setHere c).tape = s.tape := rfl
@[simp] theorem State.setHere_powered (s : State) (c : Core) : (s.setHere c).powered = s.powered := rfl
@[simp] theorem State.setHere_net (s : State) (c : Core) : (s.setHere c).net = s.net := rfl
@[simp] theorem State.setHere_dram (s : State) (c : Core) : (s.setHere c).dram = s.dram := rfl
@[simp] theorem State.setHere_dramBad (s : State) (c : Core) : (s.setHere c).dramBad = s.dramBad := rfl
@[simp] theorem State.setHere_clusters (s : State) (c : Core) : (s.setHere c).clusters = s.clusters := rfl
@[simp] theorem State.setHere_dies (s : State) (c : Core) : (s.setHere c).dies = s.dies := rfl
@[simp] theorem State.setHere_walks (s : State) (c : Core) : (s.setHere c).walks = s.walks := rfl
@[simp] theorem State.setHere_fabric (s : State) (c : Core) : (s.setHere c).fabric = s.fabric := rfl
@[simp] theorem State.setHere_msis (s : State) (c : Core) : (s.setHere c).msis = s.msis := rfl
@[simp] theorem State.setHere_lastLoad (s : State) (c : Core) : (s.setHere c).lastLoad = s.lastLoad := rfl
@[simp] theorem State.setHere_lastFault (s : State) (c : Core) : (s.setHere c).lastFault = s.lastFault := rfl
@[simp] theorem State.setHere_lastDirect (s : State) (c : Core) : (s.setHere c).lastDirect = s.lastDirect := rfl
@[simp] theorem State.setHere_hub (s : State) (c : Core) : (s.setHere c).hub = s.hub := rfl
@[simp] theorem State.setHere_plat (s : State) (c : Core) : (s.setHere c).plat = s.plat := rfl

/-! ### issued -/

@[simp] theorem State.issued_actor (s : State)  : (s.issued).actor = s.actor := rfl
@[simp] theorem State.issued_args (s : State)  : (s.issued).args = s.args := rfl
@[simp] theorem State.issued_now (s : State)  : (s.issued).now = s.now := rfl
@[simp] theorem State.issued_resetAt (s : State)  : (s.issued).resetAt = s.resetAt := rfl
@[simp] theorem State.issued_time (s : State)  : (s.issued).time = s.time := rfl
@[simp] theorem State.issued_ids (s : State)  : (s.issued).ids = s.ids := rfl
@[simp] theorem State.issued_fresh (s : State)  : (s.issued).fresh = s.fresh := rfl
@[simp] theorem State.issued_agenda (s : State)  : (s.issued).agenda = s.agenda := rfl
@[simp] theorem State.issued_tape (s : State)  : (s.issued).tape = s.tape := rfl
@[simp] theorem State.issued_powered (s : State)  : (s.issued).powered = s.powered := rfl
@[simp] theorem State.issued_net (s : State)  : (s.issued).net = s.net := rfl
@[simp] theorem State.issued_dram (s : State)  : (s.issued).dram = s.dram := rfl
@[simp] theorem State.issued_dramBad (s : State)  : (s.issued).dramBad = s.dramBad := rfl
@[simp] theorem State.issued_clusters (s : State)  : (s.issued).clusters = s.clusters := rfl
@[simp] theorem State.issued_dies (s : State)  : (s.issued).dies = s.dies := rfl
@[simp] theorem State.issued_walks (s : State)  : (s.issued).walks = s.walks := rfl
@[simp] theorem State.issued_fabric (s : State)  : (s.issued).fabric = s.fabric := rfl
@[simp] theorem State.issued_msis (s : State)  : (s.issued).msis = s.msis := rfl
@[simp] theorem State.issued_lastLoad (s : State)  : (s.issued).lastLoad = s.lastLoad := rfl
@[simp] theorem State.issued_lastFault (s : State)  : (s.issued).lastFault = s.lastFault := rfl
@[simp] theorem State.issued_lastDirect (s : State)  : (s.issued).lastDirect = s.lastDirect := rfl
@[simp] theorem State.issued_hub (s : State)  : (s.issued).hub = s.hub := rfl
@[simp] theorem State.issued_plat (s : State)  : (s.issued).plat = s.plat := rfl

/-! ### setCluster -/

@[simp] theorem State.setCluster_actor (s : State) (g : Nat) (c : Cluster) : (s.setCluster g c).actor = s.actor := rfl
@[simp] theorem State.setCluster_args (s : State) (g : Nat) (c : Cluster) : (s.setCluster g c).args = s.args := rfl
@[simp] theorem State.setCluster_now (s : State) (g : Nat) (c : Cluster) : (s.setCluster g c).now = s.now := rfl
@[simp] theorem State.setCluster_resetAt (s : State) (g : Nat) (c : Cluster) : (s.setCluster g c).resetAt = s.resetAt := rfl
@[simp] theorem State.setCluster_time (s : State) (g : Nat) (c : Cluster) : (s.setCluster g c).time = s.time := rfl
@[simp] theorem State.setCluster_ids (s : State) (g : Nat) (c : Cluster) : (s.setCluster g c).ids = s.ids := rfl
@[simp] theorem State.setCluster_fresh (s : State) (g : Nat) (c : Cluster) : (s.setCluster g c).fresh = s.fresh := rfl
@[simp] theorem State.setCluster_agenda (s : State) (g : Nat) (c : Cluster) : (s.setCluster g c).agenda = s.agenda := rfl
@[simp] theorem State.setCluster_tape (s : State) (g : Nat) (c : Cluster) : (s.setCluster g c).tape = s.tape := rfl
@[simp] theorem State.setCluster_powered (s : State) (g : Nat) (c : Cluster) : (s.setCluster g c).powered = s.powered := rfl
@[simp] theorem State.setCluster_net (s : State) (g : Nat) (c : Cluster) : (s.setCluster g c).net = s.net := rfl
@[simp] theorem State.setCluster_dram (s : State) (g : Nat) (c : Cluster) : (s.setCluster g c).dram = s.dram := rfl
@[simp] theorem State.setCluster_dramBad (s : State) (g : Nat) (c : Cluster) : (s.setCluster g c).dramBad = s.dramBad := rfl
@[simp] theorem State.setCluster_cores (s : State) (g : Nat) (c : Cluster) : (s.setCluster g c).cores = s.cores := rfl
@[simp] theorem State.setCluster_dies (s : State) (g : Nat) (c : Cluster) : (s.setCluster g c).dies = s.dies := rfl
@[simp] theorem State.setCluster_walks (s : State) (g : Nat) (c : Cluster) : (s.setCluster g c).walks = s.walks := rfl
@[simp] theorem State.setCluster_fabric (s : State) (g : Nat) (c : Cluster) : (s.setCluster g c).fabric = s.fabric := rfl
@[simp] theorem State.setCluster_msis (s : State) (g : Nat) (c : Cluster) : (s.setCluster g c).msis = s.msis := rfl
@[simp] theorem State.setCluster_lastLoad (s : State) (g : Nat) (c : Cluster) : (s.setCluster g c).lastLoad = s.lastLoad := rfl
@[simp] theorem State.setCluster_lastFault (s : State) (g : Nat) (c : Cluster) : (s.setCluster g c).lastFault = s.lastFault := rfl
@[simp] theorem State.setCluster_lastDirect (s : State) (g : Nat) (c : Cluster) : (s.setCluster g c).lastDirect = s.lastDirect := rfl
@[simp] theorem State.setCluster_hub (s : State) (g : Nat) (c : Cluster) : (s.setCluster g c).hub = s.hub := rfl
@[simp] theorem State.setCluster_plat (s : State) (g : Nat) (c : Cluster) : (s.setCluster g c).plat = s.plat := rfl

/-! ### setDie -/

@[simp] theorem State.setDie_actor (s : State) (d : Nat) (v : Die) : (s.setDie d v).actor = s.actor := rfl
@[simp] theorem State.setDie_args (s : State) (d : Nat) (v : Die) : (s.setDie d v).args = s.args := rfl
@[simp] theorem State.setDie_now (s : State) (d : Nat) (v : Die) : (s.setDie d v).now = s.now := rfl
@[simp] theorem State.setDie_resetAt (s : State) (d : Nat) (v : Die) : (s.setDie d v).resetAt = s.resetAt := rfl
@[simp] theorem State.setDie_time (s : State) (d : Nat) (v : Die) : (s.setDie d v).time = s.time := rfl
@[simp] theorem State.setDie_ids (s : State) (d : Nat) (v : Die) : (s.setDie d v).ids = s.ids := rfl
@[simp] theorem State.setDie_fresh (s : State) (d : Nat) (v : Die) : (s.setDie d v).fresh = s.fresh := rfl
@[simp] theorem State.setDie_agenda (s : State) (d : Nat) (v : Die) : (s.setDie d v).agenda = s.agenda := rfl
@[simp] theorem State.setDie_tape (s : State) (d : Nat) (v : Die) : (s.setDie d v).tape = s.tape := rfl
@[simp] theorem State.setDie_powered (s : State) (d : Nat) (v : Die) : (s.setDie d v).powered = s.powered := rfl
@[simp] theorem State.setDie_net (s : State) (d : Nat) (v : Die) : (s.setDie d v).net = s.net := rfl
@[simp] theorem State.setDie_dram (s : State) (d : Nat) (v : Die) : (s.setDie d v).dram = s.dram := rfl
@[simp] theorem State.setDie_dramBad (s : State) (d : Nat) (v : Die) : (s.setDie d v).dramBad = s.dramBad := rfl
@[simp] theorem State.setDie_cores (s : State) (d : Nat) (v : Die) : (s.setDie d v).cores = s.cores := rfl
@[simp] theorem State.setDie_clusters (s : State) (d : Nat) (v : Die) : (s.setDie d v).clusters = s.clusters := rfl
@[simp] theorem State.setDie_walks (s : State) (d : Nat) (v : Die) : (s.setDie d v).walks = s.walks := rfl
@[simp] theorem State.setDie_fabric (s : State) (d : Nat) (v : Die) : (s.setDie d v).fabric = s.fabric := rfl
@[simp] theorem State.setDie_msis (s : State) (d : Nat) (v : Die) : (s.setDie d v).msis = s.msis := rfl
@[simp] theorem State.setDie_lastLoad (s : State) (d : Nat) (v : Die) : (s.setDie d v).lastLoad = s.lastLoad := rfl
@[simp] theorem State.setDie_lastFault (s : State) (d : Nat) (v : Die) : (s.setDie d v).lastFault = s.lastFault := rfl
@[simp] theorem State.setDie_lastDirect (s : State) (d : Nat) (v : Die) : (s.setDie d v).lastDirect = s.lastDirect := rfl
@[simp] theorem State.setDie_hub (s : State) (d : Nat) (v : Die) : (s.setDie d v).hub = s.hub := rfl
@[simp] theorem State.setDie_plat (s : State) (d : Nat) (v : Die) : (s.setDie d v).plat = s.plat := rfl

/-! ### setPart -/

@[simp] theorem State.setPart_actor (s : State) (p : Nat) (v : Part) : (s.setPart p v).actor = s.actor := rfl
@[simp] theorem State.setPart_args (s : State) (p : Nat) (v : Part) : (s.setPart p v).args = s.args := rfl
@[simp] theorem State.setPart_now (s : State) (p : Nat) (v : Part) : (s.setPart p v).now = s.now := rfl
@[simp] theorem State.setPart_resetAt (s : State) (p : Nat) (v : Part) : (s.setPart p v).resetAt = s.resetAt := rfl
@[simp] theorem State.setPart_time (s : State) (p : Nat) (v : Part) : (s.setPart p v).time = s.time := rfl
@[simp] theorem State.setPart_ids (s : State) (p : Nat) (v : Part) : (s.setPart p v).ids = s.ids := rfl
@[simp] theorem State.setPart_fresh (s : State) (p : Nat) (v : Part) : (s.setPart p v).fresh = s.fresh := rfl
@[simp] theorem State.setPart_agenda (s : State) (p : Nat) (v : Part) : (s.setPart p v).agenda = s.agenda := rfl
@[simp] theorem State.setPart_tape (s : State) (p : Nat) (v : Part) : (s.setPart p v).tape = s.tape := rfl
@[simp] theorem State.setPart_powered (s : State) (p : Nat) (v : Part) : (s.setPart p v).powered = s.powered := rfl
@[simp] theorem State.setPart_net (s : State) (p : Nat) (v : Part) : (s.setPart p v).net = s.net := rfl
@[simp] theorem State.setPart_dram (s : State) (p : Nat) (v : Part) : (s.setPart p v).dram = s.dram := rfl
@[simp] theorem State.setPart_dramBad (s : State) (p : Nat) (v : Part) : (s.setPart p v).dramBad = s.dramBad := rfl
@[simp] theorem State.setPart_cores (s : State) (p : Nat) (v : Part) : (s.setPart p v).cores = s.cores := rfl
@[simp] theorem State.setPart_clusters (s : State) (p : Nat) (v : Part) : (s.setPart p v).clusters = s.clusters := rfl
@[simp] theorem State.setPart_dies (s : State) (p : Nat) (v : Part) : (s.setPart p v).dies = s.dies := rfl
@[simp] theorem State.setPart_walks (s : State) (p : Nat) (v : Part) : (s.setPart p v).walks = s.walks := rfl
@[simp] theorem State.setPart_fabric (s : State) (p : Nat) (v : Part) : (s.setPart p v).fabric = s.fabric := rfl
@[simp] theorem State.setPart_msis (s : State) (p : Nat) (v : Part) : (s.setPart p v).msis = s.msis := rfl
@[simp] theorem State.setPart_lastLoad (s : State) (p : Nat) (v : Part) : (s.setPart p v).lastLoad = s.lastLoad := rfl
@[simp] theorem State.setPart_lastFault (s : State) (p : Nat) (v : Part) : (s.setPart p v).lastFault = s.lastFault := rfl
@[simp] theorem State.setPart_lastDirect (s : State) (p : Nat) (v : Part) : (s.setPart p v).lastDirect = s.lastDirect := rfl
@[simp] theorem State.setPart_plat (s : State) (p : Nat) (v : Part) : (s.setPart p v).plat = s.plat := rfl

/-! ### setFaultQueue -/

@[simp] theorem State.setFaultQueue_actor (s : State) (k : Nat) (v : FaultQueue) : (s.setFaultQueue k v).actor = s.actor := rfl
@[simp] theorem State.setFaultQueue_args (s : State) (k : Nat) (v : FaultQueue) : (s.setFaultQueue k v).args = s.args := rfl
@[simp] theorem State.setFaultQueue_now (s : State) (k : Nat) (v : FaultQueue) : (s.setFaultQueue k v).now = s.now := rfl
@[simp] theorem State.setFaultQueue_resetAt (s : State) (k : Nat) (v : FaultQueue) : (s.setFaultQueue k v).resetAt = s.resetAt := rfl
@[simp] theorem State.setFaultQueue_time (s : State) (k : Nat) (v : FaultQueue) : (s.setFaultQueue k v).time = s.time := rfl
@[simp] theorem State.setFaultQueue_ids (s : State) (k : Nat) (v : FaultQueue) : (s.setFaultQueue k v).ids = s.ids := rfl
@[simp] theorem State.setFaultQueue_fresh (s : State) (k : Nat) (v : FaultQueue) : (s.setFaultQueue k v).fresh = s.fresh := rfl
@[simp] theorem State.setFaultQueue_agenda (s : State) (k : Nat) (v : FaultQueue) : (s.setFaultQueue k v).agenda = s.agenda := rfl
@[simp] theorem State.setFaultQueue_tape (s : State) (k : Nat) (v : FaultQueue) : (s.setFaultQueue k v).tape = s.tape := rfl
@[simp] theorem State.setFaultQueue_powered (s : State) (k : Nat) (v : FaultQueue) : (s.setFaultQueue k v).powered = s.powered := rfl
@[simp] theorem State.setFaultQueue_net (s : State) (k : Nat) (v : FaultQueue) : (s.setFaultQueue k v).net = s.net := rfl
@[simp] theorem State.setFaultQueue_dram (s : State) (k : Nat) (v : FaultQueue) : (s.setFaultQueue k v).dram = s.dram := rfl
@[simp] theorem State.setFaultQueue_dramBad (s : State) (k : Nat) (v : FaultQueue) : (s.setFaultQueue k v).dramBad = s.dramBad := rfl
@[simp] theorem State.setFaultQueue_cores (s : State) (k : Nat) (v : FaultQueue) : (s.setFaultQueue k v).cores = s.cores := rfl
@[simp] theorem State.setFaultQueue_clusters (s : State) (k : Nat) (v : FaultQueue) : (s.setFaultQueue k v).clusters = s.clusters := rfl
@[simp] theorem State.setFaultQueue_dies (s : State) (k : Nat) (v : FaultQueue) : (s.setFaultQueue k v).dies = s.dies := rfl
@[simp] theorem State.setFaultQueue_walks (s : State) (k : Nat) (v : FaultQueue) : (s.setFaultQueue k v).walks = s.walks := rfl
@[simp] theorem State.setFaultQueue_fabric (s : State) (k : Nat) (v : FaultQueue) : (s.setFaultQueue k v).fabric = s.fabric := rfl
@[simp] theorem State.setFaultQueue_msis (s : State) (k : Nat) (v : FaultQueue) : (s.setFaultQueue k v).msis = s.msis := rfl
@[simp] theorem State.setFaultQueue_lastLoad (s : State) (k : Nat) (v : FaultQueue) : (s.setFaultQueue k v).lastLoad = s.lastLoad := rfl
@[simp] theorem State.setFaultQueue_lastFault (s : State) (k : Nat) (v : FaultQueue) : (s.setFaultQueue k v).lastFault = s.lastFault := rfl
@[simp] theorem State.setFaultQueue_lastDirect (s : State) (k : Nat) (v : FaultQueue) : (s.setFaultQueue k v).lastDirect = s.lastDirect := rfl
@[simp] theorem State.setFaultQueue_plat (s : State) (k : Nat) (v : FaultQueue) : (s.setFaultQueue k v).plat = s.plat := rfl

/-! ### onHub -/

@[simp] theorem State.onHub_actor (s : State) (f : Hub → Hub) : (s.onHub f).actor = s.actor := rfl
@[simp] theorem State.onHub_args (s : State) (f : Hub → Hub) : (s.onHub f).args = s.args := rfl
@[simp] theorem State.onHub_now (s : State) (f : Hub → Hub) : (s.onHub f).now = s.now := rfl
@[simp] theorem State.onHub_resetAt (s : State) (f : Hub → Hub) : (s.onHub f).resetAt = s.resetAt := rfl
@[simp] theorem State.onHub_time (s : State) (f : Hub → Hub) : (s.onHub f).time = s.time := rfl
@[simp] theorem State.onHub_ids (s : State) (f : Hub → Hub) : (s.onHub f).ids = s.ids := rfl
@[simp] theorem State.onHub_fresh (s : State) (f : Hub → Hub) : (s.onHub f).fresh = s.fresh := rfl
@[simp] theorem State.onHub_agenda (s : State) (f : Hub → Hub) : (s.onHub f).agenda = s.agenda := rfl
@[simp] theorem State.onHub_tape (s : State) (f : Hub → Hub) : (s.onHub f).tape = s.tape := rfl
@[simp] theorem State.onHub_powered (s : State) (f : Hub → Hub) : (s.onHub f).powered = s.powered := rfl
@[simp] theorem State.onHub_net (s : State) (f : Hub → Hub) : (s.onHub f).net = s.net := rfl
@[simp] theorem State.onHub_dram (s : State) (f : Hub → Hub) : (s.onHub f).dram = s.dram := rfl
@[simp] theorem State.onHub_dramBad (s : State) (f : Hub → Hub) : (s.onHub f).dramBad = s.dramBad := rfl
@[simp] theorem State.onHub_cores (s : State) (f : Hub → Hub) : (s.onHub f).cores = s.cores := rfl
@[simp] theorem State.onHub_clusters (s : State) (f : Hub → Hub) : (s.onHub f).clusters = s.clusters := rfl
@[simp] theorem State.onHub_dies (s : State) (f : Hub → Hub) : (s.onHub f).dies = s.dies := rfl
@[simp] theorem State.onHub_walks (s : State) (f : Hub → Hub) : (s.onHub f).walks = s.walks := rfl
@[simp] theorem State.onHub_fabric (s : State) (f : Hub → Hub) : (s.onHub f).fabric = s.fabric := rfl
@[simp] theorem State.onHub_msis (s : State) (f : Hub → Hub) : (s.onHub f).msis = s.msis := rfl
@[simp] theorem State.onHub_lastLoad (s : State) (f : Hub → Hub) : (s.onHub f).lastLoad = s.lastLoad := rfl
@[simp] theorem State.onHub_lastFault (s : State) (f : Hub → Hub) : (s.onHub f).lastFault = s.lastFault := rfl
@[simp] theorem State.onHub_lastDirect (s : State) (f : Hub → Hub) : (s.onHub f).lastDirect = s.lastDirect := rfl
@[simp] theorem State.onHub_plat (s : State) (f : Hub → Hub) : (s.onHub f).plat = s.plat := rfl

/-! ### post -/

@[simp] theorem State.post_actor (s : State) (n : Nat) (i : Instr) (xs : List Nat) : (s.post n i xs).actor = s.actor := rfl
@[simp] theorem State.post_args (s : State) (n : Nat) (i : Instr) (xs : List Nat) : (s.post n i xs).args = s.args := rfl
@[simp] theorem State.post_now (s : State) (n : Nat) (i : Instr) (xs : List Nat) : (s.post n i xs).now = s.now := rfl
@[simp] theorem State.post_resetAt (s : State) (n : Nat) (i : Instr) (xs : List Nat) : (s.post n i xs).resetAt = s.resetAt := rfl
@[simp] theorem State.post_time (s : State) (n : Nat) (i : Instr) (xs : List Nat) : (s.post n i xs).time = s.time := rfl
@[simp] theorem State.post_ids (s : State) (n : Nat) (i : Instr) (xs : List Nat) : (s.post n i xs).ids = s.ids := rfl
@[simp] theorem State.post_fresh (s : State) (n : Nat) (i : Instr) (xs : List Nat) : (s.post n i xs).fresh = s.fresh := rfl
@[simp] theorem State.post_tape (s : State) (n : Nat) (i : Instr) (xs : List Nat) : (s.post n i xs).tape = s.tape := rfl
@[simp] theorem State.post_powered (s : State) (n : Nat) (i : Instr) (xs : List Nat) : (s.post n i xs).powered = s.powered := rfl
@[simp] theorem State.post_net (s : State) (n : Nat) (i : Instr) (xs : List Nat) : (s.post n i xs).net = s.net := rfl
@[simp] theorem State.post_dram (s : State) (n : Nat) (i : Instr) (xs : List Nat) : (s.post n i xs).dram = s.dram := rfl
@[simp] theorem State.post_dramBad (s : State) (n : Nat) (i : Instr) (xs : List Nat) : (s.post n i xs).dramBad = s.dramBad := rfl
@[simp] theorem State.post_cores (s : State) (n : Nat) (i : Instr) (xs : List Nat) : (s.post n i xs).cores = s.cores := rfl
@[simp] theorem State.post_clusters (s : State) (n : Nat) (i : Instr) (xs : List Nat) : (s.post n i xs).clusters = s.clusters := rfl
@[simp] theorem State.post_dies (s : State) (n : Nat) (i : Instr) (xs : List Nat) : (s.post n i xs).dies = s.dies := rfl
@[simp] theorem State.post_walks (s : State) (n : Nat) (i : Instr) (xs : List Nat) : (s.post n i xs).walks = s.walks := rfl
@[simp] theorem State.post_fabric (s : State) (n : Nat) (i : Instr) (xs : List Nat) : (s.post n i xs).fabric = s.fabric := rfl
@[simp] theorem State.post_msis (s : State) (n : Nat) (i : Instr) (xs : List Nat) : (s.post n i xs).msis = s.msis := rfl
@[simp] theorem State.post_lastLoad (s : State) (n : Nat) (i : Instr) (xs : List Nat) : (s.post n i xs).lastLoad = s.lastLoad := rfl
@[simp] theorem State.post_lastFault (s : State) (n : Nat) (i : Instr) (xs : List Nat) : (s.post n i xs).lastFault = s.lastFault := rfl
@[simp] theorem State.post_lastDirect (s : State) (n : Nat) (i : Instr) (xs : List Nat) : (s.post n i xs).lastDirect = s.lastDirect := rfl
@[simp] theorem State.post_hub (s : State) (n : Nat) (i : Instr) (xs : List Nat) : (s.post n i xs).hub = s.hub := rfl
@[simp] theorem State.post_plat (s : State) (n : Nat) (i : Instr) (xs : List Nat) : (s.post n i xs).plat = s.plat := rfl

/-! ### sendAt -/

@[simp] theorem State.sendAt_actor (s : State) (e : Nat) (n : NetClass) (a b h : Nat) (p : Payload) (i : Instr) : (s.sendAt e n a b h p i).actor = s.actor := rfl
@[simp] theorem State.sendAt_args (s : State) (e : Nat) (n : NetClass) (a b h : Nat) (p : Payload) (i : Instr) : (s.sendAt e n a b h p i).args = s.args := rfl
@[simp] theorem State.sendAt_now (s : State) (e : Nat) (n : NetClass) (a b h : Nat) (p : Payload) (i : Instr) : (s.sendAt e n a b h p i).now = s.now := rfl
@[simp] theorem State.sendAt_resetAt (s : State) (e : Nat) (n : NetClass) (a b h : Nat) (p : Payload) (i : Instr) : (s.sendAt e n a b h p i).resetAt = s.resetAt := rfl
@[simp] theorem State.sendAt_time (s : State) (e : Nat) (n : NetClass) (a b h : Nat) (p : Payload) (i : Instr) : (s.sendAt e n a b h p i).time = s.time := rfl
@[simp] theorem State.sendAt_fresh (s : State) (e : Nat) (n : NetClass) (a b h : Nat) (p : Payload) (i : Instr) : (s.sendAt e n a b h p i).fresh = s.fresh := rfl
@[simp] theorem State.sendAt_tape (s : State) (e : Nat) (n : NetClass) (a b h : Nat) (p : Payload) (i : Instr) : (s.sendAt e n a b h p i).tape = s.tape := rfl
@[simp] theorem State.sendAt_powered (s : State) (e : Nat) (n : NetClass) (a b h : Nat) (p : Payload) (i : Instr) : (s.sendAt e n a b h p i).powered = s.powered := rfl
@[simp] theorem State.sendAt_dram (s : State) (e : Nat) (n : NetClass) (a b h : Nat) (p : Payload) (i : Instr) : (s.sendAt e n a b h p i).dram = s.dram := rfl
@[simp] theorem State.sendAt_dramBad (s : State) (e : Nat) (n : NetClass) (a b h : Nat) (p : Payload) (i : Instr) : (s.sendAt e n a b h p i).dramBad = s.dramBad := rfl
@[simp] theorem State.sendAt_cores (s : State) (e : Nat) (n : NetClass) (a b h : Nat) (p : Payload) (i : Instr) : (s.sendAt e n a b h p i).cores = s.cores := rfl
@[simp] theorem State.sendAt_clusters (s : State) (e : Nat) (n : NetClass) (a b h : Nat) (p : Payload) (i : Instr) : (s.sendAt e n a b h p i).clusters = s.clusters := rfl
@[simp] theorem State.sendAt_dies (s : State) (e : Nat) (n : NetClass) (a b h : Nat) (p : Payload) (i : Instr) : (s.sendAt e n a b h p i).dies = s.dies := rfl
@[simp] theorem State.sendAt_walks (s : State) (e : Nat) (n : NetClass) (a b h : Nat) (p : Payload) (i : Instr) : (s.sendAt e n a b h p i).walks = s.walks := rfl
@[simp] theorem State.sendAt_fabric (s : State) (e : Nat) (n : NetClass) (a b h : Nat) (p : Payload) (i : Instr) : (s.sendAt e n a b h p i).fabric = s.fabric := rfl
@[simp] theorem State.sendAt_msis (s : State) (e : Nat) (n : NetClass) (a b h : Nat) (p : Payload) (i : Instr) : (s.sendAt e n a b h p i).msis = s.msis := rfl
@[simp] theorem State.sendAt_lastLoad (s : State) (e : Nat) (n : NetClass) (a b h : Nat) (p : Payload) (i : Instr) : (s.sendAt e n a b h p i).lastLoad = s.lastLoad := rfl
@[simp] theorem State.sendAt_lastFault (s : State) (e : Nat) (n : NetClass) (a b h : Nat) (p : Payload) (i : Instr) : (s.sendAt e n a b h p i).lastFault = s.lastFault := rfl
@[simp] theorem State.sendAt_lastDirect (s : State) (e : Nat) (n : NetClass) (a b h : Nat) (p : Payload) (i : Instr) : (s.sendAt e n a b h p i).lastDirect = s.lastDirect := rfl
@[simp] theorem State.sendAt_hub (s : State) (e : Nat) (n : NetClass) (a b h : Nat) (p : Payload) (i : Instr) : (s.sendAt e n a b h p i).hub = s.hub := rfl
@[simp] theorem State.sendAt_plat (s : State) (e : Nat) (n : NetClass) (a b h : Nat) (p : Payload) (i : Instr) : (s.sendAt e n a b h p i).plat = s.plat := rfl

/-! ### send -/

@[simp] theorem State.send_actor (s : State) (n : NetClass) (a b h : Nat) (p : Payload) (i : Instr) : (s.send n a b h p i).actor = s.actor := rfl
@[simp] theorem State.send_args (s : State) (n : NetClass) (a b h : Nat) (p : Payload) (i : Instr) : (s.send n a b h p i).args = s.args := rfl
@[simp] theorem State.send_now (s : State) (n : NetClass) (a b h : Nat) (p : Payload) (i : Instr) : (s.send n a b h p i).now = s.now := rfl
@[simp] theorem State.send_resetAt (s : State) (n : NetClass) (a b h : Nat) (p : Payload) (i : Instr) : (s.send n a b h p i).resetAt = s.resetAt := rfl
@[simp] theorem State.send_time (s : State) (n : NetClass) (a b h : Nat) (p : Payload) (i : Instr) : (s.send n a b h p i).time = s.time := rfl
@[simp] theorem State.send_fresh (s : State) (n : NetClass) (a b h : Nat) (p : Payload) (i : Instr) : (s.send n a b h p i).fresh = s.fresh := rfl
@[simp] theorem State.send_tape (s : State) (n : NetClass) (a b h : Nat) (p : Payload) (i : Instr) : (s.send n a b h p i).tape = s.tape := rfl
@[simp] theorem State.send_powered (s : State) (n : NetClass) (a b h : Nat) (p : Payload) (i : Instr) : (s.send n a b h p i).powered = s.powered := rfl
@[simp] theorem State.send_dram (s : State) (n : NetClass) (a b h : Nat) (p : Payload) (i : Instr) : (s.send n a b h p i).dram = s.dram := rfl
@[simp] theorem State.send_dramBad (s : State) (n : NetClass) (a b h : Nat) (p : Payload) (i : Instr) : (s.send n a b h p i).dramBad = s.dramBad := rfl
@[simp] theorem State.send_cores (s : State) (n : NetClass) (a b h : Nat) (p : Payload) (i : Instr) : (s.send n a b h p i).cores = s.cores := rfl
@[simp] theorem State.send_clusters (s : State) (n : NetClass) (a b h : Nat) (p : Payload) (i : Instr) : (s.send n a b h p i).clusters = s.clusters := rfl
@[simp] theorem State.send_dies (s : State) (n : NetClass) (a b h : Nat) (p : Payload) (i : Instr) : (s.send n a b h p i).dies = s.dies := rfl
@[simp] theorem State.send_walks (s : State) (n : NetClass) (a b h : Nat) (p : Payload) (i : Instr) : (s.send n a b h p i).walks = s.walks := rfl
@[simp] theorem State.send_fabric (s : State) (n : NetClass) (a b h : Nat) (p : Payload) (i : Instr) : (s.send n a b h p i).fabric = s.fabric := rfl
@[simp] theorem State.send_msis (s : State) (n : NetClass) (a b h : Nat) (p : Payload) (i : Instr) : (s.send n a b h p i).msis = s.msis := rfl
@[simp] theorem State.send_lastLoad (s : State) (n : NetClass) (a b h : Nat) (p : Payload) (i : Instr) : (s.send n a b h p i).lastLoad = s.lastLoad := rfl
@[simp] theorem State.send_lastFault (s : State) (n : NetClass) (a b h : Nat) (p : Payload) (i : Instr) : (s.send n a b h p i).lastFault = s.lastFault := rfl
@[simp] theorem State.send_lastDirect (s : State) (n : NetClass) (a b h : Nat) (p : Payload) (i : Instr) : (s.send n a b h p i).lastDirect = s.lastDirect := rfl
@[simp] theorem State.send_hub (s : State) (n : NetClass) (a b h : Nat) (p : Payload) (i : Instr) : (s.send n a b h p i).hub = s.hub := rfl
@[simp] theorem State.send_plat (s : State) (n : NetClass) (a b h : Nat) (p : Payload) (i : Instr) : (s.send n a b h p i).plat = s.plat := rfl

/-! ### landed -/

@[simp] theorem State.landed_actor (s : State) (n : Nat) : (s.landed n).actor = s.actor := rfl
@[simp] theorem State.landed_args (s : State) (n : Nat) : (s.landed n).args = s.args := rfl
@[simp] theorem State.landed_now (s : State) (n : Nat) : (s.landed n).now = s.now := rfl
@[simp] theorem State.landed_resetAt (s : State) (n : Nat) : (s.landed n).resetAt = s.resetAt := rfl
@[simp] theorem State.landed_time (s : State) (n : Nat) : (s.landed n).time = s.time := rfl
@[simp] theorem State.landed_ids (s : State) (n : Nat) : (s.landed n).ids = s.ids := rfl
@[simp] theorem State.landed_fresh (s : State) (n : Nat) : (s.landed n).fresh = s.fresh := rfl
@[simp] theorem State.landed_agenda (s : State) (n : Nat) : (s.landed n).agenda = s.agenda := rfl
@[simp] theorem State.landed_tape (s : State) (n : Nat) : (s.landed n).tape = s.tape := rfl
@[simp] theorem State.landed_powered (s : State) (n : Nat) : (s.landed n).powered = s.powered := rfl
@[simp] theorem State.landed_dram (s : State) (n : Nat) : (s.landed n).dram = s.dram := rfl
@[simp] theorem State.landed_dramBad (s : State) (n : Nat) : (s.landed n).dramBad = s.dramBad := rfl
@[simp] theorem State.landed_cores (s : State) (n : Nat) : (s.landed n).cores = s.cores := rfl
@[simp] theorem State.landed_clusters (s : State) (n : Nat) : (s.landed n).clusters = s.clusters := rfl
@[simp] theorem State.landed_dies (s : State) (n : Nat) : (s.landed n).dies = s.dies := rfl
@[simp] theorem State.landed_walks (s : State) (n : Nat) : (s.landed n).walks = s.walks := rfl
@[simp] theorem State.landed_fabric (s : State) (n : Nat) : (s.landed n).fabric = s.fabric := rfl
@[simp] theorem State.landed_msis (s : State) (n : Nat) : (s.landed n).msis = s.msis := rfl
@[simp] theorem State.landed_lastLoad (s : State) (n : Nat) : (s.landed n).lastLoad = s.lastLoad := rfl
@[simp] theorem State.landed_lastFault (s : State) (n : Nat) : (s.landed n).lastFault = s.lastFault := rfl
@[simp] theorem State.landed_lastDirect (s : State) (n : Nat) : (s.landed n).lastDirect = s.lastDirect := rfl
@[simp] theorem State.landed_hub (s : State) (n : Nat) : (s.landed n).hub = s.hub := rfl
@[simp] theorem State.landed_plat (s : State) (n : Nat) : (s.landed n).plat = s.plat := rfl

/-! ### The ends of an instruction -/

@[simp] theorem goTo_actor (pc : Word) (occ : Nat) (s : State) : (goTo pc occ s).actor = s.actor := rfl
@[simp] theorem goTo_args (pc : Word) (occ : Nat) (s : State) : (goTo pc occ s).args = s.args := rfl
@[simp] theorem goTo_now (pc : Word) (occ : Nat) (s : State) : (goTo pc occ s).now = s.now := rfl
@[simp] theorem goTo_resetAt (pc : Word) (occ : Nat) (s : State) : (goTo pc occ s).resetAt = s.resetAt := rfl
@[simp] theorem goTo_time (pc : Word) (occ : Nat) (s : State) : (goTo pc occ s).time = s.time := rfl
@[simp] theorem goTo_ids (pc : Word) (occ : Nat) (s : State) : (goTo pc occ s).ids = s.ids := rfl
@[simp] theorem goTo_fresh (pc : Word) (occ : Nat) (s : State) : (goTo pc occ s).fresh = s.fresh := rfl
@[simp] theorem goTo_agenda (pc : Word) (occ : Nat) (s : State) : (goTo pc occ s).agenda = s.agenda := rfl
@[simp] theorem goTo_tape (pc : Word) (occ : Nat) (s : State) : (goTo pc occ s).tape = s.tape := rfl
@[simp] theorem goTo_powered (pc : Word) (occ : Nat) (s : State) : (goTo pc occ s).powered = s.powered := rfl
@[simp] theorem goTo_net (pc : Word) (occ : Nat) (s : State) : (goTo pc occ s).net = s.net := rfl
@[simp] theorem goTo_dram (pc : Word) (occ : Nat) (s : State) : (goTo pc occ s).dram = s.dram := rfl
@[simp] theorem goTo_dramBad (pc : Word) (occ : Nat) (s : State) : (goTo pc occ s).dramBad = s.dramBad := rfl
@[simp] theorem goTo_clusters (pc : Word) (occ : Nat) (s : State) : (goTo pc occ s).clusters = s.clusters := rfl
@[simp] theorem goTo_dies (pc : Word) (occ : Nat) (s : State) : (goTo pc occ s).dies = s.dies := rfl
@[simp] theorem goTo_walks (pc : Word) (occ : Nat) (s : State) : (goTo pc occ s).walks = s.walks := rfl
@[simp] theorem goTo_fabric (pc : Word) (occ : Nat) (s : State) : (goTo pc occ s).fabric = s.fabric := rfl
@[simp] theorem goTo_msis (pc : Word) (occ : Nat) (s : State) : (goTo pc occ s).msis = s.msis := rfl
@[simp] theorem goTo_lastLoad (pc : Word) (occ : Nat) (s : State) : (goTo pc occ s).lastLoad = s.lastLoad := rfl
@[simp] theorem goTo_lastFault (pc : Word) (occ : Nat) (s : State) : (goTo pc occ s).lastFault = s.lastFault := rfl
@[simp] theorem goTo_lastDirect (pc : Word) (occ : Nat) (s : State) : (goTo pc occ s).lastDirect = s.lastDirect := rfl
@[simp] theorem goTo_hub (pc : Word) (occ : Nat) (s : State) : (goTo pc occ s).hub = s.hub := rfl
@[simp] theorem goTo_plat (pc : Word) (occ : Nat) (s : State) : (goTo pc occ s).plat = s.plat := rfl

@[simp] theorem retire_actor (len occ : Nat) (s : State) : (retire len occ s).actor = s.actor := rfl
@[simp] theorem retire_args (len occ : Nat) (s : State) : (retire len occ s).args = s.args := rfl
@[simp] theorem retire_now (len occ : Nat) (s : State) : (retire len occ s).now = s.now := rfl
@[simp] theorem retire_resetAt (len occ : Nat) (s : State) : (retire len occ s).resetAt = s.resetAt := rfl
@[simp] theorem retire_time (len occ : Nat) (s : State) : (retire len occ s).time = s.time := rfl
@[simp] theorem retire_ids (len occ : Nat) (s : State) : (retire len occ s).ids = s.ids := rfl
@[simp] theorem retire_fresh (len occ : Nat) (s : State) : (retire len occ s).fresh = s.fresh := rfl
@[simp] theorem retire_agenda (len occ : Nat) (s : State) : (retire len occ s).agenda = s.agenda := rfl
@[simp] theorem retire_tape (len occ : Nat) (s : State) : (retire len occ s).tape = s.tape := rfl
@[simp] theorem retire_powered (len occ : Nat) (s : State) : (retire len occ s).powered = s.powered := rfl
@[simp] theorem retire_net (len occ : Nat) (s : State) : (retire len occ s).net = s.net := rfl
@[simp] theorem retire_dram (len occ : Nat) (s : State) : (retire len occ s).dram = s.dram := rfl
@[simp] theorem retire_dramBad (len occ : Nat) (s : State) : (retire len occ s).dramBad = s.dramBad := rfl
@[simp] theorem retire_clusters (len occ : Nat) (s : State) : (retire len occ s).clusters = s.clusters := rfl
@[simp] theorem retire_dies (len occ : Nat) (s : State) : (retire len occ s).dies = s.dies := rfl
@[simp] theorem retire_walks (len occ : Nat) (s : State) : (retire len occ s).walks = s.walks := rfl
@[simp] theorem retire_fabric (len occ : Nat) (s : State) : (retire len occ s).fabric = s.fabric := rfl
@[simp] theorem retire_msis (len occ : Nat) (s : State) : (retire len occ s).msis = s.msis := rfl
@[simp] theorem retire_lastLoad (len occ : Nat) (s : State) : (retire len occ s).lastLoad = s.lastLoad := rfl
@[simp] theorem retire_lastFault (len occ : Nat) (s : State) : (retire len occ s).lastFault = s.lastFault := rfl
@[simp] theorem retire_lastDirect (len occ : Nat) (s : State) : (retire len occ s).lastDirect = s.lastDirect := rfl
@[simp] theorem retire_hub (len occ : Nat) (s : State) : (retire len occ s).hub = s.hub := rfl
@[simp] theorem retire_plat (len occ : Nat) (s : State) : (retire len occ s).plat = s.plat := rfl

@[simp] theorem stall_actor (s : State) : (stall s).actor = s.actor := rfl
@[simp] theorem stall_args (s : State) : (stall s).args = s.args := rfl
@[simp] theorem stall_now (s : State) : (stall s).now = s.now := rfl
@[simp] theorem stall_resetAt (s : State) : (stall s).resetAt = s.resetAt := rfl
@[simp] theorem stall_time (s : State) : (stall s).time = s.time := rfl
@[simp] theorem stall_ids (s : State) : (stall s).ids = s.ids := rfl
@[simp] theorem stall_fresh (s : State) : (stall s).fresh = s.fresh := rfl
@[simp] theorem stall_agenda (s : State) : (stall s).agenda = s.agenda := rfl
@[simp] theorem stall_tape (s : State) : (stall s).tape = s.tape := rfl
@[simp] theorem stall_powered (s : State) : (stall s).powered = s.powered := rfl
@[simp] theorem stall_net (s : State) : (stall s).net = s.net := rfl
@[simp] theorem stall_dram (s : State) : (stall s).dram = s.dram := rfl
@[simp] theorem stall_dramBad (s : State) : (stall s).dramBad = s.dramBad := rfl
@[simp] theorem stall_clusters (s : State) : (stall s).clusters = s.clusters := rfl
@[simp] theorem stall_dies (s : State) : (stall s).dies = s.dies := rfl
@[simp] theorem stall_walks (s : State) : (stall s).walks = s.walks := rfl
@[simp] theorem stall_fabric (s : State) : (stall s).fabric = s.fabric := rfl
@[simp] theorem stall_msis (s : State) : (stall s).msis = s.msis := rfl
@[simp] theorem stall_lastLoad (s : State) : (stall s).lastLoad = s.lastLoad := rfl
@[simp] theorem stall_lastFault (s : State) : (stall s).lastFault = s.lastFault := rfl
@[simp] theorem stall_lastDirect (s : State) : (stall s).lastDirect = s.lastDirect := rfl
@[simp] theorem stall_hub (s : State) : (stall s).hub = s.hub := rfl
@[simp] theorem stall_plat (s : State) : (stall s).plat = s.plat := rfl

@[simp] theorem parkAt_actor (r x : Nat) (s : State) : (parkAt r x s).actor = s.actor := rfl
@[simp] theorem parkAt_args (r x : Nat) (s : State) : (parkAt r x s).args = s.args := rfl
@[simp] theorem parkAt_now (r x : Nat) (s : State) : (parkAt r x s).now = s.now := rfl
@[simp] theorem parkAt_resetAt (r x : Nat) (s : State) : (parkAt r x s).resetAt = s.resetAt := rfl
@[simp] theorem parkAt_time (r x : Nat) (s : State) : (parkAt r x s).time = s.time := rfl
@[simp] theorem parkAt_ids (r x : Nat) (s : State) : (parkAt r x s).ids = s.ids := rfl
@[simp] theorem parkAt_fresh (r x : Nat) (s : State) : (parkAt r x s).fresh = s.fresh := rfl
@[simp] theorem parkAt_agenda (r x : Nat) (s : State) : (parkAt r x s).agenda = s.agenda := rfl
@[simp] theorem parkAt_tape (r x : Nat) (s : State) : (parkAt r x s).tape = s.tape := rfl
@[simp] theorem parkAt_powered (r x : Nat) (s : State) : (parkAt r x s).powered = s.powered := rfl
@[simp] theorem parkAt_net (r x : Nat) (s : State) : (parkAt r x s).net = s.net := rfl
@[simp] theorem parkAt_dram (r x : Nat) (s : State) : (parkAt r x s).dram = s.dram := rfl
@[simp] theorem parkAt_dramBad (r x : Nat) (s : State) : (parkAt r x s).dramBad = s.dramBad := rfl
@[simp] theorem parkAt_clusters (r x : Nat) (s : State) : (parkAt r x s).clusters = s.clusters := rfl
@[simp] theorem parkAt_dies (r x : Nat) (s : State) : (parkAt r x s).dies = s.dies := rfl
@[simp] theorem parkAt_walks (r x : Nat) (s : State) : (parkAt r x s).walks = s.walks := rfl
@[simp] theorem parkAt_fabric (r x : Nat) (s : State) : (parkAt r x s).fabric = s.fabric := rfl
@[simp] theorem parkAt_msis (r x : Nat) (s : State) : (parkAt r x s).msis = s.msis := rfl
@[simp] theorem parkAt_lastLoad (r x : Nat) (s : State) : (parkAt r x s).lastLoad = s.lastLoad := rfl
@[simp] theorem parkAt_lastFault (r x : Nat) (s : State) : (parkAt r x s).lastFault = s.lastFault := rfl
@[simp] theorem parkAt_lastDirect (r x : Nat) (s : State) : (parkAt r x s).lastDirect = s.lastDirect := rfl
@[simp] theorem parkAt_hub (r x : Nat) (s : State) : (parkAt r x s).hub = s.hub := rfl
@[simp] theorem parkAt_plat (r x : Nat) (s : State) : (parkAt r x s).plat = s.plat := rfl

@[simp] theorem parkAfter_actor (len occ r x : Nat) (s : State) : (parkAfter len occ r x s).actor = s.actor := rfl
@[simp] theorem parkAfter_args (len occ r x : Nat) (s : State) : (parkAfter len occ r x s).args = s.args := rfl
@[simp] theorem parkAfter_now (len occ r x : Nat) (s : State) : (parkAfter len occ r x s).now = s.now := rfl
@[simp] theorem parkAfter_resetAt (len occ r x : Nat) (s : State) : (parkAfter len occ r x s).resetAt = s.resetAt := rfl
@[simp] theorem parkAfter_time (len occ r x : Nat) (s : State) : (parkAfter len occ r x s).time = s.time := rfl
@[simp] theorem parkAfter_ids (len occ r x : Nat) (s : State) : (parkAfter len occ r x s).ids = s.ids := rfl
@[simp] theorem parkAfter_fresh (len occ r x : Nat) (s : State) : (parkAfter len occ r x s).fresh = s.fresh := rfl
@[simp] theorem parkAfter_agenda (len occ r x : Nat) (s : State) : (parkAfter len occ r x s).agenda = s.agenda := rfl
@[simp] theorem parkAfter_tape (len occ r x : Nat) (s : State) : (parkAfter len occ r x s).tape = s.tape := rfl
@[simp] theorem parkAfter_powered (len occ r x : Nat) (s : State) : (parkAfter len occ r x s).powered = s.powered := rfl
@[simp] theorem parkAfter_net (len occ r x : Nat) (s : State) : (parkAfter len occ r x s).net = s.net := rfl
@[simp] theorem parkAfter_dram (len occ r x : Nat) (s : State) : (parkAfter len occ r x s).dram = s.dram := rfl
@[simp] theorem parkAfter_dramBad (len occ r x : Nat) (s : State) : (parkAfter len occ r x s).dramBad = s.dramBad := rfl
@[simp] theorem parkAfter_clusters (len occ r x : Nat) (s : State) : (parkAfter len occ r x s).clusters = s.clusters := rfl
@[simp] theorem parkAfter_dies (len occ r x : Nat) (s : State) : (parkAfter len occ r x s).dies = s.dies := rfl
@[simp] theorem parkAfter_walks (len occ r x : Nat) (s : State) : (parkAfter len occ r x s).walks = s.walks := rfl
@[simp] theorem parkAfter_fabric (len occ r x : Nat) (s : State) : (parkAfter len occ r x s).fabric = s.fabric := rfl
@[simp] theorem parkAfter_msis (len occ r x : Nat) (s : State) : (parkAfter len occ r x s).msis = s.msis := rfl
@[simp] theorem parkAfter_lastLoad (len occ r x : Nat) (s : State) : (parkAfter len occ r x s).lastLoad = s.lastLoad := rfl
@[simp] theorem parkAfter_lastFault (len occ r x : Nat) (s : State) : (parkAfter len occ r x s).lastFault = s.lastFault := rfl
@[simp] theorem parkAfter_lastDirect (len occ r x : Nat) (s : State) : (parkAfter len occ r x s).lastDirect = s.lastDirect := rfl
@[simp] theorem parkAfter_hub (len occ r x : Nat) (s : State) : (parkAfter len occ r x s).hub = s.hub := rfl
@[simp] theorem parkAfter_plat (len occ r x : Nat) (s : State) : (parkAfter len occ r x s).plat = s.plat := rfl

@[simp] theorem waitAfter_actor (len occ : Nat) (s : State) : (waitAfter len occ s).actor = s.actor := rfl
@[simp] theorem waitAfter_args (len occ : Nat) (s : State) : (waitAfter len occ s).args = s.args := rfl
@[simp] theorem waitAfter_now (len occ : Nat) (s : State) : (waitAfter len occ s).now = s.now := rfl
@[simp] theorem waitAfter_resetAt (len occ : Nat) (s : State) : (waitAfter len occ s).resetAt = s.resetAt := rfl
@[simp] theorem waitAfter_time (len occ : Nat) (s : State) : (waitAfter len occ s).time = s.time := rfl
@[simp] theorem waitAfter_ids (len occ : Nat) (s : State) : (waitAfter len occ s).ids = s.ids := rfl
@[simp] theorem waitAfter_fresh (len occ : Nat) (s : State) : (waitAfter len occ s).fresh = s.fresh := rfl
@[simp] theorem waitAfter_agenda (len occ : Nat) (s : State) : (waitAfter len occ s).agenda = s.agenda := rfl
@[simp] theorem waitAfter_tape (len occ : Nat) (s : State) : (waitAfter len occ s).tape = s.tape := rfl
@[simp] theorem waitAfter_powered (len occ : Nat) (s : State) : (waitAfter len occ s).powered = s.powered := rfl
@[simp] theorem waitAfter_net (len occ : Nat) (s : State) : (waitAfter len occ s).net = s.net := rfl
@[simp] theorem waitAfter_dram (len occ : Nat) (s : State) : (waitAfter len occ s).dram = s.dram := rfl
@[simp] theorem waitAfter_dramBad (len occ : Nat) (s : State) : (waitAfter len occ s).dramBad = s.dramBad := rfl
@[simp] theorem waitAfter_clusters (len occ : Nat) (s : State) : (waitAfter len occ s).clusters = s.clusters := rfl
@[simp] theorem waitAfter_dies (len occ : Nat) (s : State) : (waitAfter len occ s).dies = s.dies := rfl
@[simp] theorem waitAfter_walks (len occ : Nat) (s : State) : (waitAfter len occ s).walks = s.walks := rfl
@[simp] theorem waitAfter_fabric (len occ : Nat) (s : State) : (waitAfter len occ s).fabric = s.fabric := rfl
@[simp] theorem waitAfter_msis (len occ : Nat) (s : State) : (waitAfter len occ s).msis = s.msis := rfl
@[simp] theorem waitAfter_lastLoad (len occ : Nat) (s : State) : (waitAfter len occ s).lastLoad = s.lastLoad := rfl
@[simp] theorem waitAfter_lastFault (len occ : Nat) (s : State) : (waitAfter len occ s).lastFault = s.lastFault := rfl
@[simp] theorem waitAfter_lastDirect (len occ : Nat) (s : State) : (waitAfter len occ s).lastDirect = s.lastDirect := rfl
@[simp] theorem waitAfter_hub (len occ : Nat) (s : State) : (waitAfter len occ s).hub = s.hub := rfl
@[simp] theorem waitAfter_plat (len occ : Nat) (s : State) : (waitAfter len occ s).plat = s.plat := rfl

/-! ### Fields of a context -/

@[simp] theorem Ctx.wg_v (c : Ctx) (r : Nat) (x : Word) : (c.wg r x).v = c.v := by unfold Ctx.wg; split <;> rfl
@[simp] theorem Ctx.wg_p (c : Ctx) (r : Nat) (x : Word) : (c.wg r x).p = c.p := by unfold Ctx.wg; split <;> rfl
@[simp] theorem Ctx.wg_e (c : Ctx) (r : Nat) (x : Word) : (c.wg r x).e = c.e := by unfold Ctx.wg; split <;> rfl
@[simp] theorem Ctx.wg_pc (c : Ctx) (r : Nat) (x : Word) : (c.wg r x).pc = c.pc := by unfold Ctx.wg; split <;> rfl
@[simp] theorem Ctx.wg_xpc (c : Ctx) (r : Nat) (x : Word) : (c.wg r x).xpc = c.xpc := by unfold Ctx.wg; split <;> rfl
@[simp] theorem Ctx.wg_xval (c : Ctx) (r : Nat) (x : Word) : (c.wg r x).xval = c.xval := by unfold Ctx.wg; split <;> rfl
@[simp] theorem Ctx.wg_xvec (c : Ctx) (r : Nat) (x : Word) : (c.wg r x).xvec = c.xvec := by unfold Ctx.wg; split <;> rfl
@[simp] theorem Ctx.wg_xcause (c : Ctx) (r : Nat) (x : Word) : (c.wg r x).xcause = c.xcause := by unfold Ctx.wg; split <;> rfl
@[simp] theorem Ctx.wg_xstat (c : Ctx) (r : Nat) (x : Word) : (c.wg r x).xstat = c.xstat := by unfold Ctx.wg; split <;> rfl
@[simp] theorem Ctx.wg_fpc (c : Ctx) (r : Nat) (x : Word) : (c.wg r x).fpc = c.fpc := by unfold Ctx.wg; split <;> rfl
@[simp] theorem Ctx.wg_prio (c : Ctx) (r : Nat) (x : Word) : (c.wg r x).prio = c.prio := by unfold Ctx.wg; split <;> rfl
@[simp] theorem Ctx.wg_ctxid (c : Ctx) (r : Nat) (x : Word) : (c.wg r x).ctxid = c.ctxid := by unfold Ctx.wg; split <;> rfl
@[simp] theorem Ctx.wg_rank (c : Ctx) (r : Nat) (x : Word) : (c.wg r x).rank = c.rank := by unfold Ctx.wg; split <;> rfl
@[simp] theorem Ctx.wg_gsize (c : Ctx) (r : Nat) (x : Word) : (c.wg r x).gsize = c.gsize := by unfold Ctx.wg; split <;> rfl
@[simp] theorem Ctx.wg_crewsz (c : Ctx) (r : Nat) (x : Word) : (c.wg r x).crewsz = c.crewsz := by unfold Ctx.wg; split <;> rfl
@[simp] theorem Ctx.wg_felim (c : Ctx) (r : Nat) (x : Word) : (c.wg r x).felim = c.felim := by unfold Ctx.wg; split <;> rfl
@[simp] theorem Ctx.wg_crewSlot (c : Ctx) (r : Nat) (x : Word) : (c.wg r x).crewSlot = c.crewSlot := by unfold Ctx.wg; split <;> rfl
@[simp] theorem Ctx.wg_codeId (c : Ctx) (r : Nat) (x : Word) : (c.wg r x).codeId = c.codeId := by unfold Ctx.wg; split <;> rfl
@[simp] theorem Ctx.wg_park (c : Ctx) (r : Nat) (x : Word) : (c.wg r x).park = c.park := by unfold Ctx.wg; split <;> rfl
@[simp] theorem Ctx.wg_bindU (c : Ctx) (r : Nat) (x : Word) : (c.wg r x).bindU = c.bindU := by unfold Ctx.wg; split <;> rfl
@[simp] theorem Ctx.wg_bindV (c : Ctx) (r : Nat) (x : Word) : (c.wg r x).bindV = c.bindV := by unfold Ctx.wg; split <;> rfl
@[simp] theorem Ctx.wg_held28 (c : Ctx) (r : Nat) (x : Word) : (c.wg r x).held28 = c.held28 := by unfold Ctx.wg; split <;> rfl
@[simp] theorem Ctx.wg_held29 (c : Ctx) (r : Nat) (x : Word) : (c.wg r x).held29 = c.held29 := by unfold Ctx.wg; split <;> rfl
@[simp] theorem Ctx.wg_pend (c : Ctx) (r : Nat) (x : Word) : (c.wg r x).pend = c.pend := by unfold Ctx.wg; split <;> rfl
@[simp] theorem Ctx.wg_place (c : Ctx) (r : Nat) (x : Word) : (c.wg r x).place = c.place := by unfold Ctx.wg; split <;> rfl
@[simp] theorem Ctx.wg_status (c : Ctx) (r : Nat) (x : Word) : (c.wg r x).status = c.status := by unfold Ctx.wg; split <;> rfl
@[simp] theorem Ctx.wg_readyAt (c : Ctx) (r : Nat) (x : Word) : (c.wg r x).readyAt = c.readyAt := by unfold Ctx.wg; split <;> rfl
@[simp] theorem Ctx.wg_wait (c : Ctx) (r : Nat) (x : Word) : (c.wg r x).wait = c.wait := by unfold Ctx.wg; split <;> rfl
@[simp] theorem Ctx.wg_called (c : Ctx) (r : Nat) (x : Word) : (c.wg r x).called = c.called := by unfold Ctx.wg; split <;> rfl
@[simp] theorem Ctx.wg_throttled (c : Ctx) (r : Nat) (x : Word) : (c.wg r x).throttled = c.throttled := by unfold Ctx.wg; split <;> rfl
@[simp] theorem Ctx.wg_calling (c : Ctx) (r : Nat) (x : Word) : (c.wg r x).calling = c.calling := by unfold Ctx.wg; split <;> rfl
@[simp] theorem Ctx.wg_fetch (c : Ctx) (r : Nat) (x : Word) : (c.wg r x).fetch = c.fetch := by unfold Ctx.wg; split <;> rfl
@[simp] theorem Ctx.wg_fetching (c : Ctx) (r : Nat) (x : Word) : (c.wg r x).fetching = c.fetching := by unfold Ctx.wg; split <;> rfl
@[simp] theorem Ctx.wg_lastOutcome (c : Ctx) (r : Nat) (x : Word) : (c.wg r x).lastOutcome = c.lastOutcome := by unfold Ctx.wg; split <;> rfl
@[simp] theorem Ctx.wg_lastCounter (c : Ctx) (r : Nat) (x : Word) : (c.wg r x).lastCounter = c.lastCounter := by unfold Ctx.wg; split <;> rfl
@[simp] theorem Ctx.wg_unacked (c : Ctx) (r : Nat) (x : Word) : (c.wg r x).unacked = c.unacked := by unfold Ctx.wg; split <;> rfl
@[simp] theorem Ctx.wg_spawner (c : Ctx) (r : Nat) (x : Word) : (c.wg r x).spawner = c.spawner := by unfold Ctx.wg; split <;> rfl
@[simp] theorem Ctx.wg_isMember (c : Ctx) (r : Nat) (x : Word) : (c.wg r x).isMember = c.isMember := by unfold Ctx.wg; split <;> rfl
@[simp] theorem Ctx.wg_arrived (c : Ctx) (r : Nat) (x : Word) : (c.wg r x).arrived = c.arrived := by unfold Ctx.wg; split <;> rfl
@[simp] theorem Ctx.wg_gang (c : Ctx) (r : Nat) (x : Word) : (c.wg r x).gang = c.gang := by unfold Ctx.wg; split <;> rfl
@[simp] theorem Ctx.wg_reduction (c : Ctx) (r : Nat) (x : Word) : (c.wg r x).reduction = c.reduction := by unfold Ctx.wg; split <;> rfl
@[simp] theorem Ctx.wg_ticket (c : Ctx) (r : Nat) (x : Word) : (c.wg r x).ticket = c.ticket := by unfold Ctx.wg; split <;> rfl
@[simp] theorem Ctx.wg_role (c : Ctx) (r : Nat) (x : Word) : (c.wg r x).role = c.role := by unfold Ctx.wg; split <;> rfl
@[simp] theorem Ctx.wg_finale (c : Ctx) (r : Nat) (x : Word) : (c.wg r x).finale = c.finale := by unfold Ctx.wg; split <;> rfl
@[simp] theorem Ctx.wg_suspended (c : Ctx) (r : Nat) (x : Word) : (c.wg r x).suspended = c.suspended := by unfold Ctx.wg; split <;> rfl
@[simp] theorem Ctx.wg_suspendedAt (c : Ctx) (r : Nat) (x : Word) : (c.wg r x).suspendedAt = c.suspendedAt := by unfold Ctx.wg; split <;> rfl
@[simp] theorem Ctx.wg_suspendedOn (c : Ctx) (r : Nat) (x : Word) : (c.wg r x).suspendedOn = c.suspendedOn := by unfold Ctx.wg; split <;> rfl
@[simp] theorem Ctx.wg_stopped (c : Ctx) (r : Nat) (x : Word) : (c.wg r x).stopped = c.stopped := by unfold Ctx.wg; split <;> rfl
@[simp] theorem Ctx.wg_ending (c : Ctx) (r : Nat) (x : Word) : (c.wg r x).ending = c.ending := by unfold Ctx.wg; split <;> rfl
@[simp] theorem Ctx.wg_halted (c : Ctx) (r : Nat) (x : Word) : (c.wg r x).halted = c.halted := by unfold Ctx.wg; split <;> rfl
@[simp] theorem Ctx.wg_monitored (c : Ctx) (r : Nat) (x : Word) : (c.wg r x).monitored = c.monitored := by unfold Ctx.wg; split <;> rfl
@[simp] theorem Ctx.wg_current (c : Ctx) (r : Nat) (x : Word) : (c.wg r x).current = c.current := by unfold Ctx.wg; split <;> rfl
@[simp] theorem Ctx.wg_timeoutAt (c : Ctx) (r : Nat) (x : Word) : (c.wg r x).timeoutAt = c.timeoutAt := by unfold Ctx.wg; split <;> rfl
@[simp] theorem Ctx.wv_g (c : Ctx) (r : Nat) (x : W256) : (c.wv r x).g = c.g := rfl
@[simp] theorem Ctx.wv_p (c : Ctx) (r : Nat) (x : W256) : (c.wv r x).p = c.p := rfl
@[simp] theorem Ctx.wv_e (c : Ctx) (r : Nat) (x : W256) : (c.wv r x).e = c.e := rfl
@[simp] theorem Ctx.wv_pc (c : Ctx) (r : Nat) (x : W256) : (c.wv r x).pc = c.pc := rfl
@[simp] theorem Ctx.wv_xpc (c : Ctx) (r : Nat) (x : W256) : (c.wv r x).xpc = c.xpc := rfl
@[simp] theorem Ctx.wv_xval (c : Ctx) (r : Nat) (x : W256) : (c.wv r x).xval = c.xval := rfl
@[simp] theorem Ctx.wv_xvec (c : Ctx) (r : Nat) (x : W256) : (c.wv r x).xvec = c.xvec := rfl
@[simp] theorem Ctx.wv_xcause (c : Ctx) (r : Nat) (x : W256) : (c.wv r x).xcause = c.xcause := rfl
@[simp] theorem Ctx.wv_xstat (c : Ctx) (r : Nat) (x : W256) : (c.wv r x).xstat = c.xstat := rfl
@[simp] theorem Ctx.wv_fpc (c : Ctx) (r : Nat) (x : W256) : (c.wv r x).fpc = c.fpc := rfl
@[simp] theorem Ctx.wv_prio (c : Ctx) (r : Nat) (x : W256) : (c.wv r x).prio = c.prio := rfl
@[simp] theorem Ctx.wv_ctxid (c : Ctx) (r : Nat) (x : W256) : (c.wv r x).ctxid = c.ctxid := rfl
@[simp] theorem Ctx.wv_rank (c : Ctx) (r : Nat) (x : W256) : (c.wv r x).rank = c.rank := rfl
@[simp] theorem Ctx.wv_gsize (c : Ctx) (r : Nat) (x : W256) : (c.wv r x).gsize = c.gsize := rfl
@[simp] theorem Ctx.wv_crewsz (c : Ctx) (r : Nat) (x : W256) : (c.wv r x).crewsz = c.crewsz := rfl
@[simp] theorem Ctx.wv_felim (c : Ctx) (r : Nat) (x : W256) : (c.wv r x).felim = c.felim := rfl
@[simp] theorem Ctx.wv_crewSlot (c : Ctx) (r : Nat) (x : W256) : (c.wv r x).crewSlot = c.crewSlot := rfl
@[simp] theorem Ctx.wv_codeId (c : Ctx) (r : Nat) (x : W256) : (c.wv r x).codeId = c.codeId := rfl
@[simp] theorem Ctx.wv_park (c : Ctx) (r : Nat) (x : W256) : (c.wv r x).park = c.park := rfl
@[simp] theorem Ctx.wv_bindU (c : Ctx) (r : Nat) (x : W256) : (c.wv r x).bindU = c.bindU := rfl
@[simp] theorem Ctx.wv_bindV (c : Ctx) (r : Nat) (x : W256) : (c.wv r x).bindV = c.bindV := rfl
@[simp] theorem Ctx.wv_held28 (c : Ctx) (r : Nat) (x : W256) : (c.wv r x).held28 = c.held28 := rfl
@[simp] theorem Ctx.wv_held29 (c : Ctx) (r : Nat) (x : W256) : (c.wv r x).held29 = c.held29 := rfl
@[simp] theorem Ctx.wv_pend (c : Ctx) (r : Nat) (x : W256) : (c.wv r x).pend = c.pend := rfl
@[simp] theorem Ctx.wv_place (c : Ctx) (r : Nat) (x : W256) : (c.wv r x).place = c.place := rfl
@[simp] theorem Ctx.wv_status (c : Ctx) (r : Nat) (x : W256) : (c.wv r x).status = c.status := rfl
@[simp] theorem Ctx.wv_readyAt (c : Ctx) (r : Nat) (x : W256) : (c.wv r x).readyAt = c.readyAt := rfl
@[simp] theorem Ctx.wv_wait (c : Ctx) (r : Nat) (x : W256) : (c.wv r x).wait = c.wait := rfl
@[simp] theorem Ctx.wv_called (c : Ctx) (r : Nat) (x : W256) : (c.wv r x).called = c.called := rfl
@[simp] theorem Ctx.wv_throttled (c : Ctx) (r : Nat) (x : W256) : (c.wv r x).throttled = c.throttled := rfl
@[simp] theorem Ctx.wv_calling (c : Ctx) (r : Nat) (x : W256) : (c.wv r x).calling = c.calling := rfl
@[simp] theorem Ctx.wv_fetch (c : Ctx) (r : Nat) (x : W256) : (c.wv r x).fetch = c.fetch := rfl
@[simp] theorem Ctx.wv_fetching (c : Ctx) (r : Nat) (x : W256) : (c.wv r x).fetching = c.fetching := rfl
@[simp] theorem Ctx.wv_lastOutcome (c : Ctx) (r : Nat) (x : W256) : (c.wv r x).lastOutcome = c.lastOutcome := rfl
@[simp] theorem Ctx.wv_lastCounter (c : Ctx) (r : Nat) (x : W256) : (c.wv r x).lastCounter = c.lastCounter := rfl
@[simp] theorem Ctx.wv_unacked (c : Ctx) (r : Nat) (x : W256) : (c.wv r x).unacked = c.unacked := rfl
@[simp] theorem Ctx.wv_spawner (c : Ctx) (r : Nat) (x : W256) : (c.wv r x).spawner = c.spawner := rfl
@[simp] theorem Ctx.wv_isMember (c : Ctx) (r : Nat) (x : W256) : (c.wv r x).isMember = c.isMember := rfl
@[simp] theorem Ctx.wv_arrived (c : Ctx) (r : Nat) (x : W256) : (c.wv r x).arrived = c.arrived := rfl
@[simp] theorem Ctx.wv_gang (c : Ctx) (r : Nat) (x : W256) : (c.wv r x).gang = c.gang := rfl
@[simp] theorem Ctx.wv_reduction (c : Ctx) (r : Nat) (x : W256) : (c.wv r x).reduction = c.reduction := rfl
@[simp] theorem Ctx.wv_ticket (c : Ctx) (r : Nat) (x : W256) : (c.wv r x).ticket = c.ticket := rfl
@[simp] theorem Ctx.wv_role (c : Ctx) (r : Nat) (x : W256) : (c.wv r x).role = c.role := rfl
@[simp] theorem Ctx.wv_finale (c : Ctx) (r : Nat) (x : W256) : (c.wv r x).finale = c.finale := rfl
@[simp] theorem Ctx.wv_suspended (c : Ctx) (r : Nat) (x : W256) : (c.wv r x).suspended = c.suspended := rfl
@[simp] theorem Ctx.wv_suspendedAt (c : Ctx) (r : Nat) (x : W256) : (c.wv r x).suspendedAt = c.suspendedAt := rfl
@[simp] theorem Ctx.wv_suspendedOn (c : Ctx) (r : Nat) (x : W256) : (c.wv r x).suspendedOn = c.suspendedOn := rfl
@[simp] theorem Ctx.wv_stopped (c : Ctx) (r : Nat) (x : W256) : (c.wv r x).stopped = c.stopped := rfl
@[simp] theorem Ctx.wv_ending (c : Ctx) (r : Nat) (x : W256) : (c.wv r x).ending = c.ending := rfl
@[simp] theorem Ctx.wv_halted (c : Ctx) (r : Nat) (x : W256) : (c.wv r x).halted = c.halted := rfl
@[simp] theorem Ctx.wv_monitored (c : Ctx) (r : Nat) (x : W256) : (c.wv r x).monitored = c.monitored := rfl
@[simp] theorem Ctx.wv_current (c : Ctx) (r : Nat) (x : W256) : (c.wv r x).current = c.current := rfl
@[simp] theorem Ctx.wv_timeoutAt (c : Ctx) (r : Nat) (x : W256) : (c.wv r x).timeoutAt = c.timeoutAt := rfl
@[simp] theorem Ctx.wp_g (c : Ctx) (r : Nat) (x : W32) : (c.wp r x).g = c.g := rfl
@[simp] theorem Ctx.wp_v (c : Ctx) (r : Nat) (x : W32) : (c.wp r x).v = c.v := rfl
@[simp] theorem Ctx.wp_e (c : Ctx) (r : Nat) (x : W32) : (c.wp r x).e = c.e := rfl
@[simp] theorem Ctx.wp_pc (c : Ctx) (r : Nat) (x : W32) : (c.wp r x).pc = c.pc := rfl
@[simp] theorem Ctx.wp_xpc (c : Ctx) (r : Nat) (x : W32) : (c.wp r x).xpc = c.xpc := rfl
@[simp] theorem Ctx.wp_xval (c : Ctx) (r : Nat) (x : W32) : (c.wp r x).xval = c.xval := rfl
@[simp] theorem Ctx.wp_xvec (c : Ctx) (r : Nat) (x : W32) : (c.wp r x).xvec = c.xvec := rfl
@[simp] theorem Ctx.wp_xcause (c : Ctx) (r : Nat) (x : W32) : (c.wp r x).xcause = c.xcause := rfl
@[simp] theorem Ctx.wp_xstat (c : Ctx) (r : Nat) (x : W32) : (c.wp r x).xstat = c.xstat := rfl
@[simp] theorem Ctx.wp_fpc (c : Ctx) (r : Nat) (x : W32) : (c.wp r x).fpc = c.fpc := rfl
@[simp] theorem Ctx.wp_prio (c : Ctx) (r : Nat) (x : W32) : (c.wp r x).prio = c.prio := rfl
@[simp] theorem Ctx.wp_ctxid (c : Ctx) (r : Nat) (x : W32) : (c.wp r x).ctxid = c.ctxid := rfl
@[simp] theorem Ctx.wp_rank (c : Ctx) (r : Nat) (x : W32) : (c.wp r x).rank = c.rank := rfl
@[simp] theorem Ctx.wp_gsize (c : Ctx) (r : Nat) (x : W32) : (c.wp r x).gsize = c.gsize := rfl
@[simp] theorem Ctx.wp_crewsz (c : Ctx) (r : Nat) (x : W32) : (c.wp r x).crewsz = c.crewsz := rfl
@[simp] theorem Ctx.wp_felim (c : Ctx) (r : Nat) (x : W32) : (c.wp r x).felim = c.felim := rfl
@[simp] theorem Ctx.wp_crewSlot (c : Ctx) (r : Nat) (x : W32) : (c.wp r x).crewSlot = c.crewSlot := rfl
@[simp] theorem Ctx.wp_codeId (c : Ctx) (r : Nat) (x : W32) : (c.wp r x).codeId = c.codeId := rfl
@[simp] theorem Ctx.wp_park (c : Ctx) (r : Nat) (x : W32) : (c.wp r x).park = c.park := rfl
@[simp] theorem Ctx.wp_bindU (c : Ctx) (r : Nat) (x : W32) : (c.wp r x).bindU = c.bindU := rfl
@[simp] theorem Ctx.wp_bindV (c : Ctx) (r : Nat) (x : W32) : (c.wp r x).bindV = c.bindV := rfl
@[simp] theorem Ctx.wp_held28 (c : Ctx) (r : Nat) (x : W32) : (c.wp r x).held28 = c.held28 := rfl
@[simp] theorem Ctx.wp_held29 (c : Ctx) (r : Nat) (x : W32) : (c.wp r x).held29 = c.held29 := rfl
@[simp] theorem Ctx.wp_pend (c : Ctx) (r : Nat) (x : W32) : (c.wp r x).pend = c.pend := rfl
@[simp] theorem Ctx.wp_place (c : Ctx) (r : Nat) (x : W32) : (c.wp r x).place = c.place := rfl
@[simp] theorem Ctx.wp_status (c : Ctx) (r : Nat) (x : W32) : (c.wp r x).status = c.status := rfl
@[simp] theorem Ctx.wp_readyAt (c : Ctx) (r : Nat) (x : W32) : (c.wp r x).readyAt = c.readyAt := rfl
@[simp] theorem Ctx.wp_wait (c : Ctx) (r : Nat) (x : W32) : (c.wp r x).wait = c.wait := rfl
@[simp] theorem Ctx.wp_called (c : Ctx) (r : Nat) (x : W32) : (c.wp r x).called = c.called := rfl
@[simp] theorem Ctx.wp_throttled (c : Ctx) (r : Nat) (x : W32) : (c.wp r x).throttled = c.throttled := rfl
@[simp] theorem Ctx.wp_calling (c : Ctx) (r : Nat) (x : W32) : (c.wp r x).calling = c.calling := rfl
@[simp] theorem Ctx.wp_fetch (c : Ctx) (r : Nat) (x : W32) : (c.wp r x).fetch = c.fetch := rfl
@[simp] theorem Ctx.wp_fetching (c : Ctx) (r : Nat) (x : W32) : (c.wp r x).fetching = c.fetching := rfl
@[simp] theorem Ctx.wp_lastOutcome (c : Ctx) (r : Nat) (x : W32) : (c.wp r x).lastOutcome = c.lastOutcome := rfl
@[simp] theorem Ctx.wp_lastCounter (c : Ctx) (r : Nat) (x : W32) : (c.wp r x).lastCounter = c.lastCounter := rfl
@[simp] theorem Ctx.wp_unacked (c : Ctx) (r : Nat) (x : W32) : (c.wp r x).unacked = c.unacked := rfl
@[simp] theorem Ctx.wp_spawner (c : Ctx) (r : Nat) (x : W32) : (c.wp r x).spawner = c.spawner := rfl
@[simp] theorem Ctx.wp_isMember (c : Ctx) (r : Nat) (x : W32) : (c.wp r x).isMember = c.isMember := rfl
@[simp] theorem Ctx.wp_arrived (c : Ctx) (r : Nat) (x : W32) : (c.wp r x).arrived = c.arrived := rfl
@[simp] theorem Ctx.wp_gang (c : Ctx) (r : Nat) (x : W32) : (c.wp r x).gang = c.gang := rfl
@[simp] theorem Ctx.wp_reduction (c : Ctx) (r : Nat) (x : W32) : (c.wp r x).reduction = c.reduction := rfl
@[simp] theorem Ctx.wp_ticket (c : Ctx) (r : Nat) (x : W32) : (c.wp r x).ticket = c.ticket := rfl
@[simp] theorem Ctx.wp_role (c : Ctx) (r : Nat) (x : W32) : (c.wp r x).role = c.role := rfl
@[simp] theorem Ctx.wp_finale (c : Ctx) (r : Nat) (x : W32) : (c.wp r x).finale = c.finale := rfl
@[simp] theorem Ctx.wp_suspended (c : Ctx) (r : Nat) (x : W32) : (c.wp r x).suspended = c.suspended := rfl
@[simp] theorem Ctx.wp_suspendedAt (c : Ctx) (r : Nat) (x : W32) : (c.wp r x).suspendedAt = c.suspendedAt := rfl
@[simp] theorem Ctx.wp_suspendedOn (c : Ctx) (r : Nat) (x : W32) : (c.wp r x).suspendedOn = c.suspendedOn := rfl
@[simp] theorem Ctx.wp_stopped (c : Ctx) (r : Nat) (x : W32) : (c.wp r x).stopped = c.stopped := rfl
@[simp] theorem Ctx.wp_ending (c : Ctx) (r : Nat) (x : W32) : (c.wp r x).ending = c.ending := rfl
@[simp] theorem Ctx.wp_halted (c : Ctx) (r : Nat) (x : W32) : (c.wp r x).halted = c.halted := rfl
@[simp] theorem Ctx.wp_monitored (c : Ctx) (r : Nat) (x : W32) : (c.wp r x).monitored = c.monitored := rfl
@[simp] theorem Ctx.wp_current (c : Ctx) (r : Nat) (x : W32) : (c.wp r x).current = c.current := rfl
@[simp] theorem Ctx.wp_timeoutAt (c : Ctx) (r : Nat) (x : W32) : (c.wp r x).timeoutAt = c.timeoutAt := rfl
@[simp] theorem Ctx.wpOk_g (c : Ctx) (r : Nat) (ok : Bool) : (c.wpOk r ok).g = c.g := rfl
@[simp] theorem Ctx.wpOk_v (c : Ctx) (r : Nat) (ok : Bool) : (c.wpOk r ok).v = c.v := rfl
@[simp] theorem Ctx.wpOk_e (c : Ctx) (r : Nat) (ok : Bool) : (c.wpOk r ok).e = c.e := rfl
@[simp] theorem Ctx.wpOk_pc (c : Ctx) (r : Nat) (ok : Bool) : (c.wpOk r ok).pc = c.pc := rfl
@[simp] theorem Ctx.wpOk_xpc (c : Ctx) (r : Nat) (ok : Bool) : (c.wpOk r ok).xpc = c.xpc := rfl
@[simp] theorem Ctx.wpOk_xval (c : Ctx) (r : Nat) (ok : Bool) : (c.wpOk r ok).xval = c.xval := rfl
@[simp] theorem Ctx.wpOk_xvec (c : Ctx) (r : Nat) (ok : Bool) : (c.wpOk r ok).xvec = c.xvec := rfl
@[simp] theorem Ctx.wpOk_xcause (c : Ctx) (r : Nat) (ok : Bool) : (c.wpOk r ok).xcause = c.xcause := rfl
@[simp] theorem Ctx.wpOk_xstat (c : Ctx) (r : Nat) (ok : Bool) : (c.wpOk r ok).xstat = c.xstat := rfl
@[simp] theorem Ctx.wpOk_fpc (c : Ctx) (r : Nat) (ok : Bool) : (c.wpOk r ok).fpc = c.fpc := rfl
@[simp] theorem Ctx.wpOk_prio (c : Ctx) (r : Nat) (ok : Bool) : (c.wpOk r ok).prio = c.prio := rfl
@[simp] theorem Ctx.wpOk_ctxid (c : Ctx) (r : Nat) (ok : Bool) : (c.wpOk r ok).ctxid = c.ctxid := rfl
@[simp] theorem Ctx.wpOk_rank (c : Ctx) (r : Nat) (ok : Bool) : (c.wpOk r ok).rank = c.rank := rfl
@[simp] theorem Ctx.wpOk_gsize (c : Ctx) (r : Nat) (ok : Bool) : (c.wpOk r ok).gsize = c.gsize := rfl
@[simp] theorem Ctx.wpOk_crewsz (c : Ctx) (r : Nat) (ok : Bool) : (c.wpOk r ok).crewsz = c.crewsz := rfl
@[simp] theorem Ctx.wpOk_felim (c : Ctx) (r : Nat) (ok : Bool) : (c.wpOk r ok).felim = c.felim := rfl
@[simp] theorem Ctx.wpOk_crewSlot (c : Ctx) (r : Nat) (ok : Bool) : (c.wpOk r ok).crewSlot = c.crewSlot := rfl
@[simp] theorem Ctx.wpOk_codeId (c : Ctx) (r : Nat) (ok : Bool) : (c.wpOk r ok).codeId = c.codeId := rfl
@[simp] theorem Ctx.wpOk_park (c : Ctx) (r : Nat) (ok : Bool) : (c.wpOk r ok).park = c.park := rfl
@[simp] theorem Ctx.wpOk_bindU (c : Ctx) (r : Nat) (ok : Bool) : (c.wpOk r ok).bindU = c.bindU := rfl
@[simp] theorem Ctx.wpOk_bindV (c : Ctx) (r : Nat) (ok : Bool) : (c.wpOk r ok).bindV = c.bindV := rfl
@[simp] theorem Ctx.wpOk_held28 (c : Ctx) (r : Nat) (ok : Bool) : (c.wpOk r ok).held28 = c.held28 := rfl
@[simp] theorem Ctx.wpOk_held29 (c : Ctx) (r : Nat) (ok : Bool) : (c.wpOk r ok).held29 = c.held29 := rfl
@[simp] theorem Ctx.wpOk_pend (c : Ctx) (r : Nat) (ok : Bool) : (c.wpOk r ok).pend = c.pend := rfl
@[simp] theorem Ctx.wpOk_place (c : Ctx) (r : Nat) (ok : Bool) : (c.wpOk r ok).place = c.place := rfl
@[simp] theorem Ctx.wpOk_status (c : Ctx) (r : Nat) (ok : Bool) : (c.wpOk r ok).status = c.status := rfl
@[simp] theorem Ctx.wpOk_readyAt (c : Ctx) (r : Nat) (ok : Bool) : (c.wpOk r ok).readyAt = c.readyAt := rfl
@[simp] theorem Ctx.wpOk_wait (c : Ctx) (r : Nat) (ok : Bool) : (c.wpOk r ok).wait = c.wait := rfl
@[simp] theorem Ctx.wpOk_called (c : Ctx) (r : Nat) (ok : Bool) : (c.wpOk r ok).called = c.called := rfl
@[simp] theorem Ctx.wpOk_throttled (c : Ctx) (r : Nat) (ok : Bool) : (c.wpOk r ok).throttled = c.throttled := rfl
@[simp] theorem Ctx.wpOk_calling (c : Ctx) (r : Nat) (ok : Bool) : (c.wpOk r ok).calling = c.calling := rfl
@[simp] theorem Ctx.wpOk_fetch (c : Ctx) (r : Nat) (ok : Bool) : (c.wpOk r ok).fetch = c.fetch := rfl
@[simp] theorem Ctx.wpOk_fetching (c : Ctx) (r : Nat) (ok : Bool) : (c.wpOk r ok).fetching = c.fetching := rfl
@[simp] theorem Ctx.wpOk_lastOutcome (c : Ctx) (r : Nat) (ok : Bool) : (c.wpOk r ok).lastOutcome = c.lastOutcome := rfl
@[simp] theorem Ctx.wpOk_lastCounter (c : Ctx) (r : Nat) (ok : Bool) : (c.wpOk r ok).lastCounter = c.lastCounter := rfl
@[simp] theorem Ctx.wpOk_unacked (c : Ctx) (r : Nat) (ok : Bool) : (c.wpOk r ok).unacked = c.unacked := rfl
@[simp] theorem Ctx.wpOk_spawner (c : Ctx) (r : Nat) (ok : Bool) : (c.wpOk r ok).spawner = c.spawner := rfl
@[simp] theorem Ctx.wpOk_isMember (c : Ctx) (r : Nat) (ok : Bool) : (c.wpOk r ok).isMember = c.isMember := rfl
@[simp] theorem Ctx.wpOk_arrived (c : Ctx) (r : Nat) (ok : Bool) : (c.wpOk r ok).arrived = c.arrived := rfl
@[simp] theorem Ctx.wpOk_gang (c : Ctx) (r : Nat) (ok : Bool) : (c.wpOk r ok).gang = c.gang := rfl
@[simp] theorem Ctx.wpOk_reduction (c : Ctx) (r : Nat) (ok : Bool) : (c.wpOk r ok).reduction = c.reduction := rfl
@[simp] theorem Ctx.wpOk_ticket (c : Ctx) (r : Nat) (ok : Bool) : (c.wpOk r ok).ticket = c.ticket := rfl
@[simp] theorem Ctx.wpOk_role (c : Ctx) (r : Nat) (ok : Bool) : (c.wpOk r ok).role = c.role := rfl
@[simp] theorem Ctx.wpOk_finale (c : Ctx) (r : Nat) (ok : Bool) : (c.wpOk r ok).finale = c.finale := rfl
@[simp] theorem Ctx.wpOk_suspended (c : Ctx) (r : Nat) (ok : Bool) : (c.wpOk r ok).suspended = c.suspended := rfl
@[simp] theorem Ctx.wpOk_suspendedAt (c : Ctx) (r : Nat) (ok : Bool) : (c.wpOk r ok).suspendedAt = c.suspendedAt := rfl
@[simp] theorem Ctx.wpOk_suspendedOn (c : Ctx) (r : Nat) (ok : Bool) : (c.wpOk r ok).suspendedOn = c.suspendedOn := rfl
@[simp] theorem Ctx.wpOk_stopped (c : Ctx) (r : Nat) (ok : Bool) : (c.wpOk r ok).stopped = c.stopped := rfl
@[simp] theorem Ctx.wpOk_ending (c : Ctx) (r : Nat) (ok : Bool) : (c.wpOk r ok).ending = c.ending := rfl
@[simp] theorem Ctx.wpOk_halted (c : Ctx) (r : Nat) (ok : Bool) : (c.wpOk r ok).halted = c.halted := rfl
@[simp] theorem Ctx.wpOk_monitored (c : Ctx) (r : Nat) (ok : Bool) : (c.wpOk r ok).monitored = c.monitored := rfl
@[simp] theorem Ctx.wpOk_current (c : Ctx) (r : Nat) (ok : Bool) : (c.wpOk r ok).current = c.current := rfl
@[simp] theorem Ctx.wpOk_timeoutAt (c : Ctx) (r : Nat) (ok : Bool) : (c.wpOk r ok).timeoutAt = c.timeoutAt := rfl
@[simp] theorem Ctx.we_g (c : Ctx) (r : Nat) (x : Word) : (c.we r x).g = c.g := rfl
@[simp] theorem Ctx.we_v (c : Ctx) (r : Nat) (x : Word) : (c.we r x).v = c.v := rfl
@[simp] theorem Ctx.we_p (c : Ctx) (r : Nat) (x : Word) : (c.we r x).p = c.p := rfl
@[simp] theorem Ctx.we_pc (c : Ctx) (r : Nat) (x : Word) : (c.we r x).pc = c.pc := rfl
@[simp] theorem Ctx.we_xpc (c : Ctx) (r : Nat) (x : Word) : (c.we r x).xpc = c.xpc := rfl
@[simp] theorem Ctx.we_xval (c : Ctx) (r : Nat) (x : Word) : (c.we r x).xval = c.xval := rfl
@[simp] theorem Ctx.we_xvec (c : Ctx) (r : Nat) (x : Word) : (c.we r x).xvec = c.xvec := rfl
@[simp] theorem Ctx.we_xcause (c : Ctx) (r : Nat) (x : Word) : (c.we r x).xcause = c.xcause := rfl
@[simp] theorem Ctx.we_xstat (c : Ctx) (r : Nat) (x : Word) : (c.we r x).xstat = c.xstat := rfl
@[simp] theorem Ctx.we_fpc (c : Ctx) (r : Nat) (x : Word) : (c.we r x).fpc = c.fpc := rfl
@[simp] theorem Ctx.we_prio (c : Ctx) (r : Nat) (x : Word) : (c.we r x).prio = c.prio := rfl
@[simp] theorem Ctx.we_ctxid (c : Ctx) (r : Nat) (x : Word) : (c.we r x).ctxid = c.ctxid := rfl
@[simp] theorem Ctx.we_rank (c : Ctx) (r : Nat) (x : Word) : (c.we r x).rank = c.rank := rfl
@[simp] theorem Ctx.we_gsize (c : Ctx) (r : Nat) (x : Word) : (c.we r x).gsize = c.gsize := rfl
@[simp] theorem Ctx.we_crewsz (c : Ctx) (r : Nat) (x : Word) : (c.we r x).crewsz = c.crewsz := rfl
@[simp] theorem Ctx.we_felim (c : Ctx) (r : Nat) (x : Word) : (c.we r x).felim = c.felim := rfl
@[simp] theorem Ctx.we_crewSlot (c : Ctx) (r : Nat) (x : Word) : (c.we r x).crewSlot = c.crewSlot := rfl
@[simp] theorem Ctx.we_codeId (c : Ctx) (r : Nat) (x : Word) : (c.we r x).codeId = c.codeId := rfl
@[simp] theorem Ctx.we_park (c : Ctx) (r : Nat) (x : Word) : (c.we r x).park = c.park := rfl
@[simp] theorem Ctx.we_bindU (c : Ctx) (r : Nat) (x : Word) : (c.we r x).bindU = c.bindU := rfl
@[simp] theorem Ctx.we_bindV (c : Ctx) (r : Nat) (x : Word) : (c.we r x).bindV = c.bindV := rfl
@[simp] theorem Ctx.we_held28 (c : Ctx) (r : Nat) (x : Word) : (c.we r x).held28 = c.held28 := rfl
@[simp] theorem Ctx.we_held29 (c : Ctx) (r : Nat) (x : Word) : (c.we r x).held29 = c.held29 := rfl
@[simp] theorem Ctx.we_pend (c : Ctx) (r : Nat) (x : Word) : (c.we r x).pend = c.pend := rfl
@[simp] theorem Ctx.we_place (c : Ctx) (r : Nat) (x : Word) : (c.we r x).place = c.place := rfl
@[simp] theorem Ctx.we_status (c : Ctx) (r : Nat) (x : Word) : (c.we r x).status = c.status := rfl
@[simp] theorem Ctx.we_readyAt (c : Ctx) (r : Nat) (x : Word) : (c.we r x).readyAt = c.readyAt := rfl
@[simp] theorem Ctx.we_wait (c : Ctx) (r : Nat) (x : Word) : (c.we r x).wait = c.wait := rfl
@[simp] theorem Ctx.we_called (c : Ctx) (r : Nat) (x : Word) : (c.we r x).called = c.called := rfl
@[simp] theorem Ctx.we_throttled (c : Ctx) (r : Nat) (x : Word) : (c.we r x).throttled = c.throttled := rfl
@[simp] theorem Ctx.we_calling (c : Ctx) (r : Nat) (x : Word) : (c.we r x).calling = c.calling := rfl
@[simp] theorem Ctx.we_fetch (c : Ctx) (r : Nat) (x : Word) : (c.we r x).fetch = c.fetch := rfl
@[simp] theorem Ctx.we_fetching (c : Ctx) (r : Nat) (x : Word) : (c.we r x).fetching = c.fetching := rfl
@[simp] theorem Ctx.we_lastOutcome (c : Ctx) (r : Nat) (x : Word) : (c.we r x).lastOutcome = c.lastOutcome := rfl
@[simp] theorem Ctx.we_lastCounter (c : Ctx) (r : Nat) (x : Word) : (c.we r x).lastCounter = c.lastCounter := rfl
@[simp] theorem Ctx.we_unacked (c : Ctx) (r : Nat) (x : Word) : (c.we r x).unacked = c.unacked := rfl
@[simp] theorem Ctx.we_spawner (c : Ctx) (r : Nat) (x : Word) : (c.we r x).spawner = c.spawner := rfl
@[simp] theorem Ctx.we_isMember (c : Ctx) (r : Nat) (x : Word) : (c.we r x).isMember = c.isMember := rfl
@[simp] theorem Ctx.we_arrived (c : Ctx) (r : Nat) (x : Word) : (c.we r x).arrived = c.arrived := rfl
@[simp] theorem Ctx.we_gang (c : Ctx) (r : Nat) (x : Word) : (c.we r x).gang = c.gang := rfl
@[simp] theorem Ctx.we_reduction (c : Ctx) (r : Nat) (x : Word) : (c.we r x).reduction = c.reduction := rfl
@[simp] theorem Ctx.we_ticket (c : Ctx) (r : Nat) (x : Word) : (c.we r x).ticket = c.ticket := rfl
@[simp] theorem Ctx.we_role (c : Ctx) (r : Nat) (x : Word) : (c.we r x).role = c.role := rfl
@[simp] theorem Ctx.we_finale (c : Ctx) (r : Nat) (x : Word) : (c.we r x).finale = c.finale := rfl
@[simp] theorem Ctx.we_suspended (c : Ctx) (r : Nat) (x : Word) : (c.we r x).suspended = c.suspended := rfl
@[simp] theorem Ctx.we_suspendedAt (c : Ctx) (r : Nat) (x : Word) : (c.we r x).suspendedAt = c.suspendedAt := rfl
@[simp] theorem Ctx.we_suspendedOn (c : Ctx) (r : Nat) (x : Word) : (c.we r x).suspendedOn = c.suspendedOn := rfl
@[simp] theorem Ctx.we_stopped (c : Ctx) (r : Nat) (x : Word) : (c.we r x).stopped = c.stopped := rfl
@[simp] theorem Ctx.we_ending (c : Ctx) (r : Nat) (x : Word) : (c.we r x).ending = c.ending := rfl
@[simp] theorem Ctx.we_halted (c : Ctx) (r : Nat) (x : Word) : (c.we r x).halted = c.halted := rfl
@[simp] theorem Ctx.we_monitored (c : Ctx) (r : Nat) (x : Word) : (c.we r x).monitored = c.monitored := rfl
@[simp] theorem Ctx.we_current (c : Ctx) (r : Nat) (x : Word) : (c.we r x).current = c.current := rfl
@[simp] theorem Ctx.we_timeoutAt (c : Ctx) (r : Nat) (x : Word) : (c.we r x).timeoutAt = c.timeoutAt := rfl
@[simp] theorem Ctx.setXstat_g (c : Ctx) (a b x : Nat) : (c.setXstat a b x).g = c.g := rfl
@[simp] theorem Ctx.setXstat_v (c : Ctx) (a b x : Nat) : (c.setXstat a b x).v = c.v := rfl
@[simp] theorem Ctx.setXstat_p (c : Ctx) (a b x : Nat) : (c.setXstat a b x).p = c.p := rfl
@[simp] theorem Ctx.setXstat_e (c : Ctx) (a b x : Nat) : (c.setXstat a b x).e = c.e := rfl
@[simp] theorem Ctx.setXstat_pc (c : Ctx) (a b x : Nat) : (c.setXstat a b x).pc = c.pc := rfl
@[simp] theorem Ctx.setXstat_xpc (c : Ctx) (a b x : Nat) : (c.setXstat a b x).xpc = c.xpc := rfl
@[simp] theorem Ctx.setXstat_xval (c : Ctx) (a b x : Nat) : (c.setXstat a b x).xval = c.xval := rfl
@[simp] theorem Ctx.setXstat_xvec (c : Ctx) (a b x : Nat) : (c.setXstat a b x).xvec = c.xvec := rfl
@[simp] theorem Ctx.setXstat_xcause (c : Ctx) (a b x : Nat) : (c.setXstat a b x).xcause = c.xcause := rfl
@[simp] theorem Ctx.setXstat_fpc (c : Ctx) (a b x : Nat) : (c.setXstat a b x).fpc = c.fpc := rfl
@[simp] theorem Ctx.setXstat_prio (c : Ctx) (a b x : Nat) : (c.setXstat a b x).prio = c.prio := rfl
@[simp] theorem Ctx.setXstat_ctxid (c : Ctx) (a b x : Nat) : (c.setXstat a b x).ctxid = c.ctxid := rfl
@[simp] theorem Ctx.setXstat_rank (c : Ctx) (a b x : Nat) : (c.setXstat a b x).rank = c.rank := rfl
@[simp] theorem Ctx.setXstat_gsize (c : Ctx) (a b x : Nat) : (c.setXstat a b x).gsize = c.gsize := rfl
@[simp] theorem Ctx.setXstat_crewsz (c : Ctx) (a b x : Nat) : (c.setXstat a b x).crewsz = c.crewsz := rfl
@[simp] theorem Ctx.setXstat_felim (c : Ctx) (a b x : Nat) : (c.setXstat a b x).felim = c.felim := rfl
@[simp] theorem Ctx.setXstat_crewSlot (c : Ctx) (a b x : Nat) : (c.setXstat a b x).crewSlot = c.crewSlot := rfl
@[simp] theorem Ctx.setXstat_codeId (c : Ctx) (a b x : Nat) : (c.setXstat a b x).codeId = c.codeId := rfl
@[simp] theorem Ctx.setXstat_park (c : Ctx) (a b x : Nat) : (c.setXstat a b x).park = c.park := rfl
@[simp] theorem Ctx.setXstat_bindU (c : Ctx) (a b x : Nat) : (c.setXstat a b x).bindU = c.bindU := rfl
@[simp] theorem Ctx.setXstat_bindV (c : Ctx) (a b x : Nat) : (c.setXstat a b x).bindV = c.bindV := rfl
@[simp] theorem Ctx.setXstat_held28 (c : Ctx) (a b x : Nat) : (c.setXstat a b x).held28 = c.held28 := rfl
@[simp] theorem Ctx.setXstat_held29 (c : Ctx) (a b x : Nat) : (c.setXstat a b x).held29 = c.held29 := rfl
@[simp] theorem Ctx.setXstat_pend (c : Ctx) (a b x : Nat) : (c.setXstat a b x).pend = c.pend := rfl
@[simp] theorem Ctx.setXstat_place (c : Ctx) (a b x : Nat) : (c.setXstat a b x).place = c.place := rfl
@[simp] theorem Ctx.setXstat_status (c : Ctx) (a b x : Nat) : (c.setXstat a b x).status = c.status := rfl
@[simp] theorem Ctx.setXstat_readyAt (c : Ctx) (a b x : Nat) : (c.setXstat a b x).readyAt = c.readyAt := rfl
@[simp] theorem Ctx.setXstat_wait (c : Ctx) (a b x : Nat) : (c.setXstat a b x).wait = c.wait := rfl
@[simp] theorem Ctx.setXstat_called (c : Ctx) (a b x : Nat) : (c.setXstat a b x).called = c.called := rfl
@[simp] theorem Ctx.setXstat_throttled (c : Ctx) (a b x : Nat) : (c.setXstat a b x).throttled = c.throttled := rfl
@[simp] theorem Ctx.setXstat_calling (c : Ctx) (a b x : Nat) : (c.setXstat a b x).calling = c.calling := rfl
@[simp] theorem Ctx.setXstat_fetch (c : Ctx) (a b x : Nat) : (c.setXstat a b x).fetch = c.fetch := rfl
@[simp] theorem Ctx.setXstat_fetching (c : Ctx) (a b x : Nat) : (c.setXstat a b x).fetching = c.fetching := rfl
@[simp] theorem Ctx.setXstat_lastOutcome (c : Ctx) (a b x : Nat) : (c.setXstat a b x).lastOutcome = c.lastOutcome := rfl
@[simp] theorem Ctx.setXstat_lastCounter (c : Ctx) (a b x : Nat) : (c.setXstat a b x).lastCounter = c.lastCounter := rfl
@[simp] theorem Ctx.setXstat_unacked (c : Ctx) (a b x : Nat) : (c.setXstat a b x).unacked = c.unacked := rfl
@[simp] theorem Ctx.setXstat_spawner (c : Ctx) (a b x : Nat) : (c.setXstat a b x).spawner = c.spawner := rfl
@[simp] theorem Ctx.setXstat_isMember (c : Ctx) (a b x : Nat) : (c.setXstat a b x).isMember = c.isMember := rfl
@[simp] theorem Ctx.setXstat_arrived (c : Ctx) (a b x : Nat) : (c.setXstat a b x).arrived = c.arrived := rfl
@[simp] theorem Ctx.setXstat_gang (c : Ctx) (a b x : Nat) : (c.setXstat a b x).gang = c.gang := rfl
@[simp] theorem Ctx.setXstat_reduction (c : Ctx) (a b x : Nat) : (c.setXstat a b x).reduction = c.reduction := rfl
@[simp] theorem Ctx.setXstat_ticket (c : Ctx) (a b x : Nat) : (c.setXstat a b x).ticket = c.ticket := rfl
@[simp] theorem Ctx.setXstat_role (c : Ctx) (a b x : Nat) : (c.setXstat a b x).role = c.role := rfl
@[simp] theorem Ctx.setXstat_finale (c : Ctx) (a b x : Nat) : (c.setXstat a b x).finale = c.finale := rfl
@[simp] theorem Ctx.setXstat_suspended (c : Ctx) (a b x : Nat) : (c.setXstat a b x).suspended = c.suspended := rfl
@[simp] theorem Ctx.setXstat_suspendedAt (c : Ctx) (a b x : Nat) : (c.setXstat a b x).suspendedAt = c.suspendedAt := rfl
@[simp] theorem Ctx.setXstat_suspendedOn (c : Ctx) (a b x : Nat) : (c.setXstat a b x).suspendedOn = c.suspendedOn := rfl
@[simp] theorem Ctx.setXstat_stopped (c : Ctx) (a b x : Nat) : (c.setXstat a b x).stopped = c.stopped := rfl
@[simp] theorem Ctx.setXstat_ending (c : Ctx) (a b x : Nat) : (c.setXstat a b x).ending = c.ending := rfl
@[simp] theorem Ctx.setXstat_halted (c : Ctx) (a b x : Nat) : (c.setXstat a b x).halted = c.halted := rfl
@[simp] theorem Ctx.setXstat_monitored (c : Ctx) (a b x : Nat) : (c.setXstat a b x).monitored = c.monitored := rfl
@[simp] theorem Ctx.setXstat_current (c : Ctx) (a b x : Nat) : (c.setXstat a b x).current = c.current := rfl
@[simp] theorem Ctx.setXstat_timeoutAt (c : Ctx) (a b x : Nat) : (c.setXstat a b x).timeoutAt = c.timeoutAt := rfl
@[simp] theorem Ctx.setPrioField_g (c : Ctx) (a b x : Nat) : (c.setPrioField a b x).g = c.g := rfl
@[simp] theorem Ctx.setPrioField_v (c : Ctx) (a b x : Nat) : (c.setPrioField a b x).v = c.v := rfl
@[simp] theorem Ctx.setPrioField_p (c : Ctx) (a b x : Nat) : (c.setPrioField a b x).p = c.p := rfl
@[simp] theorem Ctx.setPrioField_e (c : Ctx) (a b x : Nat) : (c.setPrioField a b x).e = c.e := rfl
@[simp] theorem Ctx.setPrioField_pc (c : Ctx) (a b x : Nat) : (c.setPrioField a b x).pc = c.pc := rfl
@[simp] theorem Ctx.setPrioField_xpc (c : Ctx) (a b x : Nat) : (c.setPrioField a b x).xpc = c.xpc := rfl
@[simp] theorem Ctx.setPrioField_xval (c : Ctx) (a b x : Nat) : (c.setPrioField a b x).xval = c.xval := rfl
@[simp] theorem Ctx.setPrioField_xvec (c : Ctx) (a b x : Nat) : (c.setPrioField a b x).xvec = c.xvec := rfl
@[simp] theorem Ctx.setPrioField_xcause (c : Ctx) (a b x : Nat) : (c.setPrioField a b x).xcause = c.xcause := rfl
@[simp] theorem Ctx.setPrioField_xstat (c : Ctx) (a b x : Nat) : (c.setPrioField a b x).xstat = c.xstat := rfl
@[simp] theorem Ctx.setPrioField_fpc (c : Ctx) (a b x : Nat) : (c.setPrioField a b x).fpc = c.fpc := rfl
@[simp] theorem Ctx.setPrioField_ctxid (c : Ctx) (a b x : Nat) : (c.setPrioField a b x).ctxid = c.ctxid := rfl
@[simp] theorem Ctx.setPrioField_rank (c : Ctx) (a b x : Nat) : (c.setPrioField a b x).rank = c.rank := rfl
@[simp] theorem Ctx.setPrioField_gsize (c : Ctx) (a b x : Nat) : (c.setPrioField a b x).gsize = c.gsize := rfl
@[simp] theorem Ctx.setPrioField_crewsz (c : Ctx) (a b x : Nat) : (c.setPrioField a b x).crewsz = c.crewsz := rfl
@[simp] theorem Ctx.setPrioField_felim (c : Ctx) (a b x : Nat) : (c.setPrioField a b x).felim = c.felim := rfl
@[simp] theorem Ctx.setPrioField_crewSlot (c : Ctx) (a b x : Nat) : (c.setPrioField a b x).crewSlot = c.crewSlot := rfl
@[simp] theorem Ctx.setPrioField_codeId (c : Ctx) (a b x : Nat) : (c.setPrioField a b x).codeId = c.codeId := rfl
@[simp] theorem Ctx.setPrioField_park (c : Ctx) (a b x : Nat) : (c.setPrioField a b x).park = c.park := rfl
@[simp] theorem Ctx.setPrioField_bindU (c : Ctx) (a b x : Nat) : (c.setPrioField a b x).bindU = c.bindU := rfl
@[simp] theorem Ctx.setPrioField_bindV (c : Ctx) (a b x : Nat) : (c.setPrioField a b x).bindV = c.bindV := rfl
@[simp] theorem Ctx.setPrioField_held28 (c : Ctx) (a b x : Nat) : (c.setPrioField a b x).held28 = c.held28 := rfl
@[simp] theorem Ctx.setPrioField_held29 (c : Ctx) (a b x : Nat) : (c.setPrioField a b x).held29 = c.held29 := rfl
@[simp] theorem Ctx.setPrioField_pend (c : Ctx) (a b x : Nat) : (c.setPrioField a b x).pend = c.pend := rfl
@[simp] theorem Ctx.setPrioField_place (c : Ctx) (a b x : Nat) : (c.setPrioField a b x).place = c.place := rfl
@[simp] theorem Ctx.setPrioField_status (c : Ctx) (a b x : Nat) : (c.setPrioField a b x).status = c.status := rfl
@[simp] theorem Ctx.setPrioField_readyAt (c : Ctx) (a b x : Nat) : (c.setPrioField a b x).readyAt = c.readyAt := rfl
@[simp] theorem Ctx.setPrioField_wait (c : Ctx) (a b x : Nat) : (c.setPrioField a b x).wait = c.wait := rfl
@[simp] theorem Ctx.setPrioField_called (c : Ctx) (a b x : Nat) : (c.setPrioField a b x).called = c.called := rfl
@[simp] theorem Ctx.setPrioField_throttled (c : Ctx) (a b x : Nat) : (c.setPrioField a b x).throttled = c.throttled := rfl
@[simp] theorem Ctx.setPrioField_calling (c : Ctx) (a b x : Nat) : (c.setPrioField a b x).calling = c.calling := rfl
@[simp] theorem Ctx.setPrioField_fetch (c : Ctx) (a b x : Nat) : (c.setPrioField a b x).fetch = c.fetch := rfl
@[simp] theorem Ctx.setPrioField_fetching (c : Ctx) (a b x : Nat) : (c.setPrioField a b x).fetching = c.fetching := rfl
@[simp] theorem Ctx.setPrioField_lastOutcome (c : Ctx) (a b x : Nat) : (c.setPrioField a b x).lastOutcome = c.lastOutcome := rfl
@[simp] theorem Ctx.setPrioField_lastCounter (c : Ctx) (a b x : Nat) : (c.setPrioField a b x).lastCounter = c.lastCounter := rfl
@[simp] theorem Ctx.setPrioField_unacked (c : Ctx) (a b x : Nat) : (c.setPrioField a b x).unacked = c.unacked := rfl
@[simp] theorem Ctx.setPrioField_spawner (c : Ctx) (a b x : Nat) : (c.setPrioField a b x).spawner = c.spawner := rfl
@[simp] theorem Ctx.setPrioField_isMember (c : Ctx) (a b x : Nat) : (c.setPrioField a b x).isMember = c.isMember := rfl
@[simp] theorem Ctx.setPrioField_arrived (c : Ctx) (a b x : Nat) : (c.setPrioField a b x).arrived = c.arrived := rfl
@[simp] theorem Ctx.setPrioField_gang (c : Ctx) (a b x : Nat) : (c.setPrioField a b x).gang = c.gang := rfl
@[simp] theorem Ctx.setPrioField_reduction (c : Ctx) (a b x : Nat) : (c.setPrioField a b x).reduction = c.reduction := rfl
@[simp] theorem Ctx.setPrioField_ticket (c : Ctx) (a b x : Nat) : (c.setPrioField a b x).ticket = c.ticket := rfl
@[simp] theorem Ctx.setPrioField_role (c : Ctx) (a b x : Nat) : (c.setPrioField a b x).role = c.role := rfl
@[simp] theorem Ctx.setPrioField_finale (c : Ctx) (a b x : Nat) : (c.setPrioField a b x).finale = c.finale := rfl
@[simp] theorem Ctx.setPrioField_suspended (c : Ctx) (a b x : Nat) : (c.setPrioField a b x).suspended = c.suspended := rfl
@[simp] theorem Ctx.setPrioField_suspendedAt (c : Ctx) (a b x : Nat) : (c.setPrioField a b x).suspendedAt = c.suspendedAt := rfl
@[simp] theorem Ctx.setPrioField_suspendedOn (c : Ctx) (a b x : Nat) : (c.setPrioField a b x).suspendedOn = c.suspendedOn := rfl
@[simp] theorem Ctx.setPrioField_stopped (c : Ctx) (a b x : Nat) : (c.setPrioField a b x).stopped = c.stopped := rfl
@[simp] theorem Ctx.setPrioField_ending (c : Ctx) (a b x : Nat) : (c.setPrioField a b x).ending = c.ending := rfl
@[simp] theorem Ctx.setPrioField_halted (c : Ctx) (a b x : Nat) : (c.setPrioField a b x).halted = c.halted := rfl
@[simp] theorem Ctx.setPrioField_monitored (c : Ctx) (a b x : Nat) : (c.setPrioField a b x).monitored = c.monitored := rfl
@[simp] theorem Ctx.setPrioField_current (c : Ctx) (a b x : Nat) : (c.setPrioField a b x).current = c.current := rfl
@[simp] theorem Ctx.setPrioField_timeoutAt (c : Ctx) (a b x : Nat) : (c.setPrioField a b x).timeoutAt = c.timeoutAt := rfl
@[simp] theorem setPriority_g (k : Core) (p : Nat) (c : Ctx) : (setPriority k p c).g = c.g := rfl
@[simp] theorem setPriority_v (k : Core) (p : Nat) (c : Ctx) : (setPriority k p c).v = c.v := rfl
@[simp] theorem setPriority_p (k : Core) (p : Nat) (c : Ctx) : (setPriority k p c).p = c.p := rfl
@[simp] theorem setPriority_e (k : Core) (p : Nat) (c : Ctx) : (setPriority k p c).e = c.e := rfl
@[simp] theorem setPriority_pc (k : Core) (p : Nat) (c : Ctx) : (setPriority k p c).pc = c.pc := rfl
@[simp] theorem setPriority_xpc (k : Core) (p : Nat) (c : Ctx) : (setPriority k p c).xpc = c.xpc := rfl
@[simp] theorem setPriority_xval (k : Core) (p : Nat) (c : Ctx) : (setPriority k p c).xval = c.xval := rfl
@[simp] theorem setPriority_xvec (k : Core) (p : Nat) (c : Ctx) : (setPriority k p c).xvec = c.xvec := rfl
@[simp] theorem setPriority_xcause (k : Core) (p : Nat) (c : Ctx) : (setPriority k p c).xcause = c.xcause := rfl
@[simp] theorem setPriority_xstat (k : Core) (p : Nat) (c : Ctx) : (setPriority k p c).xstat = c.xstat := rfl
@[simp] theorem setPriority_fpc (k : Core) (p : Nat) (c : Ctx) : (setPriority k p c).fpc = c.fpc := rfl
@[simp] theorem setPriority_ctxid (k : Core) (p : Nat) (c : Ctx) : (setPriority k p c).ctxid = c.ctxid := rfl
@[simp] theorem setPriority_rank (k : Core) (p : Nat) (c : Ctx) : (setPriority k p c).rank = c.rank := rfl
@[simp] theorem setPriority_gsize (k : Core) (p : Nat) (c : Ctx) : (setPriority k p c).gsize = c.gsize := rfl
@[simp] theorem setPriority_crewsz (k : Core) (p : Nat) (c : Ctx) : (setPriority k p c).crewsz = c.crewsz := rfl
@[simp] theorem setPriority_felim (k : Core) (p : Nat) (c : Ctx) : (setPriority k p c).felim = c.felim := rfl
@[simp] theorem setPriority_crewSlot (k : Core) (p : Nat) (c : Ctx) : (setPriority k p c).crewSlot = c.crewSlot := rfl
@[simp] theorem setPriority_codeId (k : Core) (p : Nat) (c : Ctx) : (setPriority k p c).codeId = c.codeId := rfl
@[simp] theorem setPriority_park (k : Core) (p : Nat) (c : Ctx) : (setPriority k p c).park = c.park := rfl
@[simp] theorem setPriority_bindU (k : Core) (p : Nat) (c : Ctx) : (setPriority k p c).bindU = c.bindU := rfl
@[simp] theorem setPriority_bindV (k : Core) (p : Nat) (c : Ctx) : (setPriority k p c).bindV = c.bindV := rfl
@[simp] theorem setPriority_held28 (k : Core) (p : Nat) (c : Ctx) : (setPriority k p c).held28 = c.held28 := rfl
@[simp] theorem setPriority_held29 (k : Core) (p : Nat) (c : Ctx) : (setPriority k p c).held29 = c.held29 := rfl
@[simp] theorem setPriority_pend (k : Core) (p : Nat) (c : Ctx) : (setPriority k p c).pend = c.pend := rfl
@[simp] theorem setPriority_place (k : Core) (p : Nat) (c : Ctx) : (setPriority k p c).place = c.place := rfl
@[simp] theorem setPriority_status (k : Core) (p : Nat) (c : Ctx) : (setPriority k p c).status = c.status := rfl
@[simp] theorem setPriority_readyAt (k : Core) (p : Nat) (c : Ctx) : (setPriority k p c).readyAt = c.readyAt := rfl
@[simp] theorem setPriority_wait (k : Core) (p : Nat) (c : Ctx) : (setPriority k p c).wait = c.wait := rfl
@[simp] theorem setPriority_called (k : Core) (p : Nat) (c : Ctx) : (setPriority k p c).called = c.called := rfl
@[simp] theorem setPriority_throttled (k : Core) (p : Nat) (c : Ctx) : (setPriority k p c).throttled = c.throttled := rfl
@[simp] theorem setPriority_calling (k : Core) (p : Nat) (c : Ctx) : (setPriority k p c).calling = c.calling := rfl
@[simp] theorem setPriority_fetch (k : Core) (p : Nat) (c : Ctx) : (setPriority k p c).fetch = c.fetch := rfl
@[simp] theorem setPriority_fetching (k : Core) (p : Nat) (c : Ctx) : (setPriority k p c).fetching = c.fetching := rfl
@[simp] theorem setPriority_lastOutcome (k : Core) (p : Nat) (c : Ctx) : (setPriority k p c).lastOutcome = c.lastOutcome := rfl
@[simp] theorem setPriority_lastCounter (k : Core) (p : Nat) (c : Ctx) : (setPriority k p c).lastCounter = c.lastCounter := rfl
@[simp] theorem setPriority_unacked (k : Core) (p : Nat) (c : Ctx) : (setPriority k p c).unacked = c.unacked := rfl
@[simp] theorem setPriority_spawner (k : Core) (p : Nat) (c : Ctx) : (setPriority k p c).spawner = c.spawner := rfl
@[simp] theorem setPriority_isMember (k : Core) (p : Nat) (c : Ctx) : (setPriority k p c).isMember = c.isMember := rfl
@[simp] theorem setPriority_arrived (k : Core) (p : Nat) (c : Ctx) : (setPriority k p c).arrived = c.arrived := rfl
@[simp] theorem setPriority_gang (k : Core) (p : Nat) (c : Ctx) : (setPriority k p c).gang = c.gang := rfl
@[simp] theorem setPriority_reduction (k : Core) (p : Nat) (c : Ctx) : (setPriority k p c).reduction = c.reduction := rfl
@[simp] theorem setPriority_ticket (k : Core) (p : Nat) (c : Ctx) : (setPriority k p c).ticket = c.ticket := rfl
@[simp] theorem setPriority_role (k : Core) (p : Nat) (c : Ctx) : (setPriority k p c).role = c.role := rfl
@[simp] theorem setPriority_finale (k : Core) (p : Nat) (c : Ctx) : (setPriority k p c).finale = c.finale := rfl
@[simp] theorem setPriority_suspended (k : Core) (p : Nat) (c : Ctx) : (setPriority k p c).suspended = c.suspended := rfl
@[simp] theorem setPriority_suspendedAt (k : Core) (p : Nat) (c : Ctx) : (setPriority k p c).suspendedAt = c.suspendedAt := rfl
@[simp] theorem setPriority_suspendedOn (k : Core) (p : Nat) (c : Ctx) : (setPriority k p c).suspendedOn = c.suspendedOn := rfl
@[simp] theorem setPriority_stopped (k : Core) (p : Nat) (c : Ctx) : (setPriority k p c).stopped = c.stopped := rfl
@[simp] theorem setPriority_ending (k : Core) (p : Nat) (c : Ctx) : (setPriority k p c).ending = c.ending := rfl
@[simp] theorem setPriority_halted (k : Core) (p : Nat) (c : Ctx) : (setPriority k p c).halted = c.halted := rfl
@[simp] theorem setPriority_monitored (k : Core) (p : Nat) (c : Ctx) : (setPriority k p c).monitored = c.monitored := rfl
@[simp] theorem setPriority_current (k : Core) (p : Nat) (c : Ctx) : (setPriority k p c).current = c.current := rfl
@[simp] theorem setPriority_timeoutAt (k : Core) (p : Nat) (c : Ctx) : (setPriority k p c).timeoutAt = c.timeoutAt := rfl

/-! ### Registers -/

@[simp] theorem Ctx.rg_zero (c : Ctx) : c.rg 0 = 0 := rfl
@[simp] theorem Ctx.rp_zero (c : Ctx) : c.rp 0 = BitVec.allOnes 32 := rfl

/-- A g register after a write: the value written, unless the register is g0. -/
theorem Ctx.rg_wg (c : Ctx) (r r' : Nat) (x : Word) :
    (c.wg r x).rg r' = if r' = r then (if r = 0 then 0 else x) else c.rg r' := by
  unfold Ctx.rg Ctx.wg
  by_cases h : r = 0
  · subst h
    by_cases h' : r' = 0 <;> simp [h']
  · by_cases h' : r' = r
    · simp [h, h']
    · simp [h, h', Map.get_set_ne _ _ _ h']

@[simp] theorem Ctx.rg_wg_same (c : Ctx) (r : Nat) (x : Word) : (c.wg r x).rg r = if r = 0 then 0 else x := by
  simp [Ctx.rg_wg]

theorem Ctx.rg_wg_ne (c : Ctx) {r r' : Nat} (x : Word) (h : r' ≠ r) : (c.wg r x).rg r' = c.rg r' := by
  simp [Ctx.rg_wg, h]

/-- A v register after a write. -/
theorem Ctx.rv_wv (c : Ctx) (r r' : Nat) (x : W256) : (c.wv r x).rv r' = if r' = r then x else c.rv r' := by
  simp [Ctx.rv, Ctx.wv, Map.get_set]

/-- An e register after a write. -/
theorem Ctx.re_we (c : Ctx) (r r' : Nat) (x : Word) : (c.we r x).re r' = if r' = r then x else c.re r' := by
  simp [Ctx.re, Ctx.we, Map.get_set]

/-- A predicate after a write; p0 reads all ones whatever is written. -/
theorem Ctx.rp_wp (c : Ctx) (r r' : Nat) (x : W32) :
    (c.wp r x).rp r' = if r' = 0 then BitVec.allOnes 32 else if r' = r then x else c.rp r' := by
  unfold Ctx.rp Ctx.wp
  split
  · rfl
  · simp [Map.get_set]

@[simp] theorem Ctx.rv_of_wg (c : Ctx) (r r' : Nat) (x : Word) : (c.wg r x).rv r' = c.rv r' := by simp [Ctx.rv]
@[simp] theorem Ctx.re_of_wg (c : Ctx) (r r' : Nat) (x : Word) : (c.wg r x).re r' = c.re r' := by simp [Ctx.re]
@[simp] theorem Ctx.rp_of_wg (c : Ctx) (r r' : Nat) (x : Word) : (c.wg r x).rp r' = c.rp r' := by simp [Ctx.rp]
@[simp] theorem Ctx.rg_of_wv (c : Ctx) (r r' : Nat) (x : W256) : (c.wv r x).rg r' = c.rg r' := by simp [Ctx.rg]
@[simp] theorem Ctx.re_of_wv (c : Ctx) (r r' : Nat) (x : W256) : (c.wv r x).re r' = c.re r' := by simp [Ctx.re]
@[simp] theorem Ctx.rp_of_wv (c : Ctx) (r r' : Nat) (x : W256) : (c.wv r x).rp r' = c.rp r' := by simp [Ctx.rp]
@[simp] theorem Ctx.rg_of_we (c : Ctx) (r r' : Nat) (x : Word) : (c.we r x).rg r' = c.rg r' := by simp [Ctx.rg]
@[simp] theorem Ctx.rv_of_we (c : Ctx) (r r' : Nat) (x : Word) : (c.we r x).rv r' = c.rv r' := by simp [Ctx.rv]
@[simp] theorem Ctx.rp_of_we (c : Ctx) (r r' : Nat) (x : Word) : (c.we r x).rp r' = c.rp r' := by simp [Ctx.rp]
@[simp] theorem Ctx.rg_of_wp (c : Ctx) (r r' : Nat) (x : W32) : (c.wp r x).rg r' = c.rg r' := by simp [Ctx.rg]
@[simp] theorem Ctx.rv_of_wp (c : Ctx) (r r' : Nat) (x : W32) : (c.wp r x).rv r' = c.rv r' := by simp [Ctx.rv]
@[simp] theorem Ctx.re_of_wp (c : Ctx) (r r' : Nat) (x : W32) : (c.wp r x).re r' = c.re r' := by simp [Ctx.re]
@[simp] theorem Ctx.bound_of_wg (c : Ctx) (r : Nat) (x : Word) : (c.wg r x).bound = c.bound := by simp [Ctx.bound]
@[simp] theorem Ctx.bound_of_wv (c : Ctx) (r : Nat) (x : W256) : (c.wv r x).bound = c.bound := by simp [Ctx.bound]
@[simp] theorem Ctx.bound_of_we (c : Ctx) (r : Nat) (x : Word) : (c.we r x).bound = c.bound := by simp [Ctx.bound]
@[simp] theorem Ctx.bound_of_wp (c : Ctx) (r : Nat) (x : W32) : (c.wp r x).bound = c.bound := by simp [Ctx.bound]
@[simp] theorem Ctx.mode_of_wg (c : Ctx) (r : Nat) (x : Word) : (c.wg r x).mode = c.mode := by simp [Ctx.mode]
@[simp] theorem Ctx.mode_of_wv (c : Ctx) (r : Nat) (x : W256) : (c.wv r x).mode = c.mode := by simp [Ctx.mode]
@[simp] theorem Ctx.mode_of_we (c : Ctx) (r : Nat) (x : Word) : (c.we r x).mode = c.mode := by simp [Ctx.mode]
@[simp] theorem Ctx.mode_of_wp (c : Ctx) (r : Nat) (x : W32) : (c.wp r x).mode = c.mode := by simp [Ctx.mode]
@[simp] theorem Ctx.intrap_of_wg (c : Ctx) (r : Nat) (x : Word) : (c.wg r x).intrap = c.intrap := by simp [Ctx.intrap]
@[simp] theorem Ctx.intrap_of_wv (c : Ctx) (r : Nat) (x : W256) : (c.wv r x).intrap = c.intrap := by simp [Ctx.intrap]
@[simp] theorem Ctx.intrap_of_we (c : Ctx) (r : Nat) (x : Word) : (c.we r x).intrap = c.intrap := by simp [Ctx.intrap]
@[simp] theorem Ctx.intrap_of_wp (c : Ctx) (r : Nat) (x : W32) : (c.wp r x).intrap = c.intrap := by simp [Ctx.intrap]
@[simp] theorem Ctx.priority_of_wg (c : Ctx) (r : Nat) (x : Word) : (c.wg r x).priority = c.priority := by simp [Ctx.priority]
@[simp] theorem Ctx.priority_of_wv (c : Ctx) (r : Nat) (x : W256) : (c.wv r x).priority = c.priority := by simp [Ctx.priority]
@[simp] theorem Ctx.priority_of_we (c : Ctx) (r : Nat) (x : Word) : (c.we r x).priority = c.priority := by simp [Ctx.priority]
@[simp] theorem Ctx.priority_of_wp (c : Ctx) (r : Nat) (x : W32) : (c.wp r x).priority = c.priority := by simp [Ctx.priority]
@[simp] theorem Ctx.ceil_of_wg (c : Ctx) (r : Nat) (x : Word) : (c.wg r x).ceil = c.ceil := by simp [Ctx.ceil]
@[simp] theorem Ctx.ceil_of_wv (c : Ctx) (r : Nat) (x : W256) : (c.wv r x).ceil = c.ceil := by simp [Ctx.ceil]
@[simp] theorem Ctx.ceil_of_we (c : Ctx) (r : Nat) (x : Word) : (c.we r x).ceil = c.ceil := by simp [Ctx.ceil]
@[simp] theorem Ctx.ceil_of_wp (c : Ctx) (r : Nat) (x : W32) : (c.wp r x).ceil = c.ceil := by simp [Ctx.ceil]
@[simp] theorem Ctx.eff_of_wg (c : Ctx) (r : Nat) (x : Word) : (c.wg r x).eff = c.eff := by simp [Ctx.eff]
@[simp] theorem Ctx.eff_of_wv (c : Ctx) (r : Nat) (x : W256) : (c.wv r x).eff = c.eff := by simp [Ctx.eff]
@[simp] theorem Ctx.eff_of_we (c : Ctx) (r : Nat) (x : Word) : (c.we r x).eff = c.eff := by simp [Ctx.eff]
@[simp] theorem Ctx.eff_of_wp (c : Ctx) (r : Nat) (x : W32) : (c.wp r x).eff = c.eff := by simp [Ctx.eff]
@[simp] theorem Ctx.handle_of_wg (c : Ctx) (r : Nat) (x : Word) : (c.wg r x).handle = c.handle := by simp [Ctx.handle]
@[simp] theorem Ctx.handle_of_wv (c : Ctx) (r : Nat) (x : W256) : (c.wv r x).handle = c.handle := by simp [Ctx.handle]
@[simp] theorem Ctx.handle_of_we (c : Ctx) (r : Nat) (x : Word) : (c.we r x).handle = c.handle := by simp [Ctx.handle]
@[simp] theorem Ctx.handle_of_wp (c : Ctx) (r : Nat) (x : W32) : (c.wp r x).handle = c.handle := by simp [Ctx.handle]
@[simp] theorem Ctx.crewRank_of_wg (c : Ctx) (r : Nat) (x : Word) : (c.wg r x).crewRank = c.crewRank := by simp [Ctx.crewRank]
@[simp] theorem Ctx.crewRank_of_wv (c : Ctx) (r : Nat) (x : W256) : (c.wv r x).crewRank = c.crewRank := by simp [Ctx.crewRank]
@[simp] theorem Ctx.crewRank_of_we (c : Ctx) (r : Nat) (x : Word) : (c.we r x).crewRank = c.crewRank := by simp [Ctx.crewRank]
@[simp] theorem Ctx.crewRank_of_wp (c : Ctx) (r : Nat) (x : W32) : (c.wp r x).crewRank = c.crewRank := by simp [Ctx.crewRank]
@[simp] theorem Ctx.isLive_of_wg (c : Ctx) (r : Nat) (x : Word) : (c.wg r x).isLive = c.isLive := by simp [Ctx.isLive]
@[simp] theorem Ctx.isLive_of_wv (c : Ctx) (r : Nat) (x : W256) : (c.wv r x).isLive = c.isLive := by simp [Ctx.isLive]
@[simp] theorem Ctx.isLive_of_we (c : Ctx) (r : Nat) (x : Word) : (c.we r x).isLive = c.isLive := by simp [Ctx.isLive]
@[simp] theorem Ctx.isLive_of_wp (c : Ctx) (r : Nat) (x : W32) : (c.wp r x).isLive = c.isLive := by simp [Ctx.isLive]
@[simp] theorem Ctx.isWinged_of_wg (c : Ctx) (r : Nat) (x : Word) : (c.wg r x).isWinged = c.isWinged := by simp [Ctx.isWinged]
@[simp] theorem Ctx.isWinged_of_wv (c : Ctx) (r : Nat) (x : W256) : (c.wv r x).isWinged = c.isWinged := by simp [Ctx.isWinged]
@[simp] theorem Ctx.isWinged_of_we (c : Ctx) (r : Nat) (x : Word) : (c.we r x).isWinged = c.isWinged := by simp [Ctx.isWinged]
@[simp] theorem Ctx.isWinged_of_wp (c : Ctx) (r : Nat) (x : W32) : (c.wp r x).isWinged = c.isWinged := by simp [Ctx.isWinged]
@[simp] theorem Ctx.slot_of_wg (c : Ctx) (r : Nat) (x : Word) : (c.wg r x).slot = c.slot := by simp [Ctx.slot]
@[simp] theorem Ctx.slot_of_wv (c : Ctx) (r : Nat) (x : W256) : (c.wv r x).slot = c.slot := by simp [Ctx.slot]
@[simp] theorem Ctx.slot_of_we (c : Ctx) (r : Nat) (x : Word) : (c.we r x).slot = c.slot := by simp [Ctx.slot]
@[simp] theorem Ctx.slot_of_wp (c : Ctx) (r : Nat) (x : W32) : (c.wp r x).slot = c.slot := by simp [Ctx.slot]

/-! ### What reads after an update of a core or a context -/

@[simp] theorem State.core_setCore_same (s : State) (k : Nat) (c : Core) : (s.setCore k c).core k = c := by
  simp [State.core, State.setCore]

theorem State.core_setCore_ne (s : State) {k j : Nat} (c : Core) (h : j ≠ k) : (s.setCore k c).core j = s.core j := by
  simp [State.core, State.setCore, Tbl.get?_put_ne _ _ h]

/-- A core after another or the same was replaced. -/
theorem State.core_setCore (s : State) (k j : Nat) (c : Core) : (s.setCore k c).core j = if j = k then c else s.core j := by
  split
  · subst_vars; simp
  · exact s.core_setCore_ne c ‹_›

@[simp] theorem State.setCore_setCore (s : State) (k : Nat) (c d : Core) : (s.setCore k c).setCore k d = s.setCore k d := by
  simp [State.setCore]

@[simp] theorem State.here_setHere (s : State) (c : Core) : (s.setHere c).here = c := by simp [State.here, State.setHere]

@[simp] theorem State.setHere_setHere (s : State) (c d : Core) : (s.setHere c).setHere d = s.setHere d := by
  simp [State.setHere]

theorem State.ctx?_setCtx (s : State) (a b : Actor) (c : Ctx) : (s.setCtx a c).ctx? b = if b = a then some c else s.ctx? b := by
  obtain ⟨ak, at_⟩ := a
  obtain ⟨bk, bt⟩ := b
  simp only [State.ctx?, State.setCtx, State.core_setCore, Actor.mk.injEq]
  by_cases hk : bk = ak
  · by_cases ht : bt = at_
    · simp [hk, ht]
    · simp [hk, ht, Tbl.get?_put_ne _ _ ht]
  · simp [hk]

@[simp] theorem State.ctx?_setCtx_same (s : State) (a : Actor) (c : Ctx) : (s.setCtx a c).ctx? a = some c := by
  simp [State.ctx?_setCtx]

@[simp] theorem State.ctx_setCtx_same (s : State) (a : Actor) (c : Ctx) : (s.setCtx a c).ctx a = c := by
  simp [State.ctx]

theorem State.ctx_setCtx (s : State) (a b : Actor) (c : Ctx) : (s.setCtx a c).ctx b = if b = a then c else s.ctx b := by
  unfold State.ctx
  rw [State.ctx?_setCtx]
  split <;> rfl

@[simp] theorem State.me_setMe (s : State) (c : Ctx) : (s.setMe c).me = c := by simp [State.me, State.setMe]
@[simp] theorem State.me_onMe (s : State) (f : Ctx → Ctx) : (s.onMe f).me = f s.me := by simp [State.onMe]

@[simp] theorem State.setCtx_setCtx (s : State) (a : Actor) (c d : Ctx) : (s.setCtx a c).setCtx a d = s.setCtx a d := by
  simp [State.setCtx]

@[simp] theorem State.setMe_setMe (s : State) (c d : Ctx) : (s.setMe c).setMe d = s.setMe d := by simp [State.setMe]
@[simp] theorem State.onMe_setMe (s : State) (c : Ctx) (f : Ctx → Ctx) : (s.setMe c).onMe f = s.setMe (f c) := by simp [State.onMe]
@[simp] theorem State.onMe_onMe (s : State) (f g : Ctx → Ctx) : (s.onMe f).onMe g = s.onMe fun c => g (f c) := by
  simp [State.onMe]

/-- A core after a context of it, or of another, was replaced. -/
theorem State.core_setCtx (s : State) (a : Actor) (c : Ctx) (k : Nat) :
    (s.setCtx a c).core k =
      if k = a.core then { s.core k with threads := Tbl.put (s.core k).threads a.thread c } else s.core k := by
  unfold State.setCtx
  rw [State.core_setCore]
  split <;> simp_all

@[simp] theorem State.here_setMe (s : State) (c : Ctx) :
    (s.setMe c).here = { s.here with threads := Tbl.put s.here.threads s.actor.thread c } := by
  simp [State.here, State.setMe, State.core_setCtx]

/-- The acting thread's context, in terms of its core. -/
theorem State.me_eq (s : State) : s.me = (Tbl.get? s.here.threads s.actor.thread).getD Ctx.fresh := rfl

@[simp] theorem State.me_setHere (s : State) (c : Core) :
    (s.setHere c).me = (Tbl.get? c.threads s.actor.thread).getD Ctx.fresh := by
  simp [State.me_eq, State.here, State.setHere]

end Sys2Proof.Machine
end

