-- ==== Sys2Proof/Laws/Ops.lean ====
section
/-! SUPPORT. What the shared operations do: the ends of an instruction, the operand forms, and taking a cause. -/

namespace Sys2Proof.Machine

/-! ### Frames -/

/-- The state after an instruction that changed only its own context, to `c`. -/
def State.afterOwn (s : State) (c : Ctx) (slot : Nat) : State :=
  s.setHere { s.here with
    threads := Tbl.put s.here.threads s.actor.thread c
    instret := s.here.instret + 1
    lastSlot := slot
    nextIssue := s.now + 1 }

@[simp] theorem State.afterOwn_me (s : State) (c : Ctx) (n : Nat) : (s.afterOwn c n).me = c := by simp [State.afterOwn]

@[simp] theorem State.afterOwn_here (s : State) (c : Ctx) (n : Nat) : (s.afterOwn c n).here =
    { s.here with
      threads := Tbl.put s.here.threads s.actor.thread c
      instret := s.here.instret + 1
      lastSlot := n
      nextIssue := s.now + 1 } := by simp [State.afterOwn]

/-- Such an instruction changes nothing outside its thread. -/
theorem State.onlyThread_afterOwn (s : State) (c : Ctx) (n : Nat) : OnlyThread s (s.afterOwn c n) := by
  refine ⟨rfl, fun j hj => ?_, fun t ht => ?_, ?_⟩
  · exact s.core_setCore_ne _ hj
  · simp [State.ctx?, State.afterOwn, State.setHere, State.here, Tbl.get?_put_ne _ _ ht]
  · simp [CoreIssued]

/-! ### The ends of an instruction -/

/-- An instruction that changes only its context and completes. -/
theorem goTo_setMe (pc : Word) (occ : Nat) (s : State) (c : Ctx) :
    goTo pc occ (s.setMe c) =
      s.afterOwn { c with pc := pc, readyAt := s.now + occ, wait := none } c.slot := by
  simp [goTo, State.afterOwn, State.onMe, State.setMe, State.setCtx, State.setHere, State.here, State.me, State.ctx,
    State.ctx?]

theorem goTo_eq (pc : Word) (occ : Nat) (s : State) :
    goTo pc occ s = s.afterOwn { s.me with pc := pc, readyAt := s.now + occ, wait := none } s.me.slot := by
  simp [goTo, State.afterOwn, State.onMe, State.setMe, State.setCtx, State.setHere, State.here, State.me, State.ctx,
    State.ctx?]

@[simp] theorem goTo_me (pc : Word) (occ : Nat) (s : State) :
    (goTo pc occ s).me = { s.me with pc := pc, readyAt := s.now + occ, wait := none } := by simp [goTo_eq]

/-- Nothing written: the PC and the marks of an issue. -/
theorem goTo_noResult (pc : Word) (occ : Nat) (s : State) : NoResult pc occ s (goTo pc occ s) := by
  rw [goTo_eq]
  exact ⟨⟨by simp, by simp, by simp⟩, by simp [CtxKept], s.onlyThread_afterOwn _ _⟩

/-- A g register written, and the instruction completes: the whole effect. -/
theorem goTo_writesG (pc : Word) (occ d : Nat) (x : Word) (s : State) :
    WritesG d x s (goTo pc occ (s.onMe (·.wg d x))) ∧ CompletedAt pc occ s (goTo pc occ (s.onMe (·.wg d x))) ∧
      CtxKeptButG s (goTo pc occ (s.onMe (·.wg d x))) ∧ OnlyThread s (goTo pc occ (s.onMe (·.wg d x))) := by
  rw [State.onMe, goTo_setMe]
  refine ⟨⟨?_, fun r hr => ?_⟩, ⟨by simp, by simp, by simp⟩, ?_, s.onlyThread_afterOwn _ _⟩
  · have := (s.me.rg_wg_same d x)
    simpa [Ctx.rg] using this
  · have := s.me.rg_wg_ne x hr
    simpa [Ctx.rg] using this
  · unfold CtxKeptButG
    rw [State.afterOwn_me]
    unfold Ctx.wg
    split <;> rfl

theorem retire_eq (len occ : Nat) (s : State) : retire len occ s = goTo (s.me.pc + word len) occ s := rfl

/-! ### Operands that are registers -/

theorem operandStop_unbound {s : State} (h : s.me.bound = false) (reads writes : List Nat) :
    operandStop reads writes s = none := by simp [operandStop, h]

theorem takeReads_unbound {c : Ctx} (h : c.bound = false) (vals : List Word) (reads : List Nat) :
    takeReads c vals reads = reads.map c.rg := by
  induction reads with
  | nil => rfl
  | cons r rs ih => simp [takeReads, h, ih]

theorem operands_unbound {s : State} (h : s.me.bound = false) (reads : List Nat) :
    operands reads s = reads.map s.me.rg := takeReads_unbound h _ _

theorem popReads_unbound {s : State} (h : s.me.bound = false) (reads : List Nat) : popReads reads s = s := by
  simp [popReads, popsOf, h, popValues]

theorem writeReg_unbound {s : State} (h : s.me.bound = false) (d : Nat) (x : Word) :
    writeReg d x s = s.onMe (·.wg d x) := by simp [writeReg, h]

theorem withOperands_unbound {s : State} (h : s.me.bound = false) (reads writes : List Nat) (go : List Word → State → State) :
    withOperands reads writes go s = go (reads.map s.me.rg) s := by
  simp [withOperands, operandStop_unbound h, operands_unbound h]

/-- A register-to-register instruction over registers. -/
theorem compute_unbound {s : State} (h : s.me.bound = false) (len occ : Nat) (reads : List Nat) (d : Nat)
    (f : List Word → Word) :
    compute len occ reads d f s =
      goTo (s.me.pc + word len) occ (s.onMe (·.wg d (f (reads.map s.me.rg)))) := by
  simp [compute, withOperands_unbound h, popReads_unbound h, writeReg_unbound h, retire_eq]

/-- Its whole effect. -/
theorem compute_result {s : State} (h : s.me.bound = false) (len occ : Nat) (reads : List Nat) (d : Nat)
    (f : List Word → Word) :
    RegisterResult len occ d (f (reads.map s.me.rg)) s (compute len occ reads d f s) := by
  rw [compute_unbound h]
  exact ⟨(goTo_writesG ..).1, (goTo_writesG ..).2.1, (goTo_writesG ..).2.2⟩

/-! ### Stacks that accept no command (R437) -/

/-- While no stack has passed 105 °C, none is shut. -/
theorem anyShut_of_cold {s : State} (h : ∀ i < 12, (Map.get 0 s.plat.stackState i).testBit 2 = false) : s.anyShut = false := by
  simpa [State.anyShut, State.isShut] using h

/-- Then the device's own structures can be reached, … -/
theorem hitsShut_of_cold {s : State} (h : s.anyShut = false) (addr n : Nat) : hitsShut s addr n = false := by
  simp [hitsShut, h]

/-- … walks go through, … -/
theorem walkShut_of_cold {s : State} (h : s.anyShut = false) (space va : Nat) : walkShut s space va = false := by
  simp [walkShut, h]

/-- … and an access waits for nothing but a link slot of its space. -/
theorem awaitsMemory_of_cold {s : State} (h : s.anyShut = false) {space : Nat} (hl : s.linkAllowed space = true) (g va n : Nat) :
    awaitsMemory s g space va n = false := by
  simp [awaitsMemory, awaitsLink, awaitsStack, h, hl]

end Sys2Proof.Machine
end

