-- ==== Sys2Proof/Laws/PerInstr.lean ====
section
/-! SUPPORT. Decoding undoes encoding, one lemma per instruction: the word that `encode` gives a
well-formed instruction decodes to that instruction. A device step has no word, so its lemma holds of
no word. The lemmas rest on what a word with values placed in disjoint bit ranges reads as. -/

namespace Sys2Proof.Laws.RoundTrip

/-- A word with the values `xs` placed at the bits that the shape gives, over the constant `m`. -/
def placed : Nat → List Nat → List (Nat × Nat) → Nat
  | m, x :: xs, p :: ps => placed (m + x * 2 ^ p.1) xs ps
  | m, _, _ => m

/-- Two bit ranges that share no bit. -/
def apart (p q : Nat × Nat) : Bool := p.1 + p.2 ≤ q.1 || q.1 + q.2 ≤ p.1

/-- The constant is clear at every range of the shape, and no two ranges share a bit. -/
def clear (m : Nat) : List (Nat × Nat) → Bool
  | [] => true
  | p :: ps => field m p.1 p.2 == 0 && ps.all (apart p) && clear m ps

/-- Every value fits its range. -/
def fits : List Nat → List (Nat × Nat) → Prop
  | x :: xs, p :: ps => x < 2 ^ p.2 ∧ fits xs ps
  | _, _ => True

/-- Every range of the word holds its value. -/
def reads (w : Nat) : List Nat → List (Nat × Nat) → Prop
  | x :: xs, p :: ps => field w p.1 p.2 = x ∧ reads w xs ps
  | _, _ => True

theorem field_add_of_apart {m x : Nat} {p q : Nat × Nat} (h0 : field m p.1 p.2 = 0) (hx : x < 2 ^ p.2)
    (ha : apart p q = true) : field (m + x * 2 ^ p.1) q.1 q.2 = field m q.1 q.2 := by
  obtain ⟨l, n⟩ := p
  obtain ⟨l', n'⟩ := q
  simp only [apart, Bool.or_eq_true, decide_eq_true_eq] at ha
  simp only [field] at h0 hx ⊢
  rcases ha with h | h
  · have hr : m % 2 ^ (l + n) < 2 ^ l := by
      rw [Nat.pow_add, Nat.mod_mul, h0]; simpa using Nat.mod_lt m (Nat.two_pow_pos l)
    have key : (m + x * 2 ^ l) / 2 ^ (l + n) = m / 2 ^ (l + n) := by
      have hs : m % 2 ^ (l + n) + x * 2 ^ l < 2 ^ (l + n) := by
        have : (x + 1) * 2 ^ l ≤ 2 ^ n * 2 ^ l := Nat.mul_le_mul_right _ hx
        rw [Nat.pow_add, Nat.mul_comm (2 ^ l)]
        rw [Nat.add_mul, Nat.one_mul] at this
        rw [Nat.pow_add, Nat.mul_comm (2 ^ l)] at hr
        omega
      have hm := Nat.div_add_mod m (2 ^ (l + n))
      rw [← hm, Nat.add_assoc, Nat.mul_add_div (Nat.two_pow_pos _), Nat.div_eq_of_lt hs, hm, Nat.add_zero]
    obtain ⟨j, rfl⟩ := Nat.exists_eq_add_of_le h
    rw [Nat.pow_add _ (l + n), ← Nat.div_div_eq_div_mul, ← Nat.div_div_eq_div_mul, key]
  · obtain ⟨j, rfl⟩ := Nat.exists_eq_add_of_le h
    have : x * 2 ^ (l' + n' + j) = 2 ^ l' * (2 ^ n' * (2 ^ j * x)) := by
      rw [Nat.pow_add, Nat.pow_add]; ac_rfl
    rw [this, Nat.add_mul_div_left _ _ (Nat.two_pow_pos l'), Nat.add_mul_mod_self_left]

theorem field_add_self {m x l n : Nat} (h0 : field m l n = 0) (hx : x < 2 ^ n) :
    field (m + x * 2 ^ l) l n = x := by
  unfold field at *
  rw [Nat.add_mul_div_right _ _ (Nat.two_pow_pos l), Nat.add_mod, h0, Nat.zero_add, Nat.mod_mod,
    Nat.mod_eq_of_lt hx]

theorem clear_add {m x : Nat} {p : Nat × Nat} (h0 : field m p.1 p.2 = 0) (hx : x < 2 ^ p.2) :
    ∀ {ps : List (Nat × Nat)}, ps.all (apart p) = true → clear m ps = true → clear (m + x * 2 ^ p.1) ps = true
  | [], _, _ => rfl
  | q :: qs, ha, hc => by
    simp only [List.all_cons, Bool.and_eq_true, clear, beq_iff_eq] at ha hc ⊢
    exact ⟨⟨(field_add_of_apart h0 hx ha.1).trans hc.1.1, hc.1.2⟩, clear_add h0 hx ha.2 hc.2⟩

/-- A range apart from every placed one reads as the constant does. -/
theorem placed_const {q : Nat × Nat} : ∀ {m : Nat} {xs : List Nat} {ps : List (Nat × Nat)},
    clear m ps = true → fits xs ps → ps.all (fun p => apart p q) = true →
      field (placed m xs ps) q.1 q.2 = field m q.1 q.2
  | _, [], _, _, _, _ => by simp [placed]
  | _, _ :: _, [], _, _, _ => by simp [placed]
  | m, x :: xs, p :: ps, hc, hf, ha => by
    simp only [List.all_cons, Bool.and_eq_true, clear, beq_iff_eq, fits] at ha hc hf
    rw [placed, placed_const (clear_add hc.1.1 hf.1 hc.1.2 hc.2) hf.2 ha.2,
      field_add_of_apart hc.1.1 hf.1 ha.1]

/-- Every placed range reads as the value placed there. -/
theorem placed_reads : ∀ {m : Nat} {xs : List Nat} {ps : List (Nat × Nat)},
    clear m ps = true → fits xs ps → reads (placed m xs ps) xs ps
  | _, [], _, _, _ => by simp [reads]
  | _, _ :: _, [], _, _ => by simp [reads]
  | m, x :: xs, p :: ps, hc, hf => by
    simp only [Bool.and_eq_true, clear, beq_iff_eq, fits] at hc hf
    have hc' := clear_add hc.1.1 hf.1 hc.1.2 hc.2
    refine ⟨?_, placed_reads hc' hf.2⟩
    have ha : ps.all (fun q => apart q p) = true := by
      rw [List.all_eq_true] at *
      intro q hq
      have := hc.1.2 q hq
      simp only [apart, Bool.or_eq_true, decide_eq_true_eq] at this ⊢
      exact this.symm
    rw [placed, placed_const hc' hf.2 ha, field_add_self hc.1.1 hf.1]
/-- Every word that `encode` gives the instruction decodes back to it. -/
def Statement (i : Instr) : Prop :=
  i.WellFormed → ∀ nbits w, encode i = some (nbits, w) → decodeWord (nbits / 8) w = .ok i

theorem of_word {a b c d : Nat} (h : some (a, b) = some (c, d)) : a = c ∧ b = d := by
  simpa using h

theorem add (d a b : Nat) : Statement (.add d a b) := by
  intro hwf nbits word he
  obtain ⟨rfl, hw⟩ := of_word (b := placed 0x1 [d, a, b] [(22, 5), (17, 5), (12, 5)]) he
  have hwf := of_decide_eq_true (p := d < 32 ∧ a < 32 ∧ b < 32) hwf
  have hc : clear 0x1 [(22, 5), (17, 5), (12, 5)] = true := by decide
  have hf : fits [d, a, b] [(22, 5), (17, 5), (12, 5)] := ⟨hwf.1, hwf.2.1, hwf.2.2, trivial⟩
  obtain ⟨e22, e17, e12, -⟩ := placed_reads hc hf
  have e1 : field _ 1 3 = 0 := placed_const (q := (1, 3)) hc hf (by decide)
  have e4 : field _ 4 8 = 0 := placed_const (q := (4, 8)) hc hf (by decide)
  have e27 : field _ 27 5 = 0 := placed_const (q := (27, 5)) hc hf (by decide)
  rw [hw] at e22 e17 e12 e1 e4 e27
  simp [decodeWord, decode32, decodeAlu, unlessReserved, e1, e4, e12, e17, e22, e27]

theorem sub (d a b : Nat) : Statement (.sub d a b) := by
  intro hwf nbits word he
  obtain ⟨rfl, hw⟩ := of_word (b := placed 0x11 [d, a, b] [(22, 5), (17, 5), (12, 5)]) he
  have hwf := of_decide_eq_true (p := d < 32 ∧ a < 32 ∧ b < 32) hwf
  have hc : clear 0x11 [(22, 5), (17, 5), (12, 5)] = true := by decide
  have hf : fits [d, a, b] [(22, 5), (17, 5), (12, 5)] := ⟨hwf.1, hwf.2.1, hwf.2.2, trivial⟩
  obtain ⟨e22, e17, e12, -⟩ := placed_reads hc hf
  have e1 : field _ 1 3 = 0 := placed_const (q := (1, 3)) hc hf (by decide)
  have e4 : field _ 4 8 = 1 := placed_const (q := (4, 8)) hc hf (by decide)
  have e27 : field _ 27 5 = 0 := placed_const (q := (27, 5)) hc hf (by decide)
  rw [hw] at e22 e17 e12 e1 e4 e27
  simp [decodeWord, decode32, decodeAlu, unlessReserved, e1, e4, e12, e17, e22, e27]

theorem and (d a b : Nat) : Statement (.and d a b) := by
  intro hwf nbits word he
  obtain ⟨rfl, hw⟩ := of_word (b := placed 0x21 [d, a, b] [(22, 5), (17, 5), (12, 5)]) he
  have hwf := of_decide_eq_true (p := d < 32 ∧ a < 32 ∧ b < 32) hwf
  have hc : clear 0x21 [(22, 5), (17, 5), (12, 5)] = true := by decide
  have hf : fits [d, a, b] [(22, 5), (17, 5), (12, 5)] := ⟨hwf.1, hwf.2.1, hwf.2.2, trivial⟩
  obtain ⟨e22, e17, e12, -⟩ := placed_reads hc hf
  have e1 : field _ 1 3 = 0 := placed_const (q := (1, 3)) hc hf (by decide)
  have e4 : field _ 4 8 = 2 := placed_const (q := (4, 8)) hc hf (by decide)
  have e27 : field _ 27 5 = 0 := placed_const (q := (27, 5)) hc hf (by decide)
  rw [hw] at e22 e17 e12 e1 e4 e27
  simp [decodeWord, decode32, decodeAlu, unlessReserved, e1, e4, e12, e17, e22, e27]

theorem or (d a b : Nat) : Statement (.or d a b) := by
  intro hwf nbits word he
  obtain ⟨rfl, hw⟩ := of_word (b := placed 0x31 [d, a, b] [(22, 5), (17, 5), (12, 5)]) he
  have hwf := of_decide_eq_true (p := d < 32 ∧ a < 32 ∧ b < 32) hwf
  have hc : clear 0x31 [(22, 5), (17, 5), (12, 5)] = true := by decide
  have hf : fits [d, a, b] [(22, 5), (17, 5), (12, 5)] := ⟨hwf.1, hwf.2.1, hwf.2.2, trivial⟩
  obtain ⟨e22, e17, e12, -⟩ := placed_reads hc hf
  have e1 : field _ 1 3 = 0 := placed_const (q := (1, 3)) hc hf (by decide)
  have e4 : field _ 4 8 = 3 := placed_const (q := (4, 8)) hc hf (by decide)
  have e27 : field _ 27 5 = 0 := placed_const (q := (27, 5)) hc hf (by decide)
  rw [hw] at e22 e17 e12 e1 e4 e27
  simp [decodeWord, decode32, decodeAlu, unlessReserved, e1, e4, e12, e17, e22, e27]

theorem xor (d a b : Nat) : Statement (.xor d a b) := by
  intro hwf nbits word he
  obtain ⟨rfl, hw⟩ := of_word (b := placed 0x41 [d, a, b] [(22, 5), (17, 5), (12, 5)]) he
  have hwf := of_decide_eq_true (p := d < 32 ∧ a < 32 ∧ b < 32) hwf
  have hc : clear 0x41 [(22, 5), (17, 5), (12, 5)] = true := by decide
  have hf : fits [d, a, b] [(22, 5), (17, 5), (12, 5)] := ⟨hwf.1, hwf.2.1, hwf.2.2, trivial⟩
  obtain ⟨e22, e17, e12, -⟩ := placed_reads hc hf
  have e1 : field _ 1 3 = 0 := placed_const (q := (1, 3)) hc hf (by decide)
  have e4 : field _ 4 8 = 4 := placed_const (q := (4, 8)) hc hf (by decide)
  have e27 : field _ 27 5 = 0 := placed_const (q := (27, 5)) hc hf (by decide)
  rw [hw] at e22 e17 e12 e1 e4 e27
  simp [decodeWord, decode32, decodeAlu, unlessReserved, e1, e4, e12, e17, e22, e27]

theorem andn (d a b : Nat) : Statement (.andn d a b) := by
  intro hwf nbits word he
  obtain ⟨rfl, hw⟩ := of_word (b := placed 0x51 [d, a, b] [(22, 5), (17, 5), (12, 5)]) he
  have hwf := of_decide_eq_true (p := d < 32 ∧ a < 32 ∧ b < 32) hwf
  have hc : clear 0x51 [(22, 5), (17, 5), (12, 5)] = true := by decide
  have hf : fits [d, a, b] [(22, 5), (17, 5), (12, 5)] := ⟨hwf.1, hwf.2.1, hwf.2.2, trivial⟩
  obtain ⟨e22, e17, e12, -⟩ := placed_reads hc hf
  have e1 : field _ 1 3 = 0 := placed_const (q := (1, 3)) hc hf (by decide)
  have e4 : field _ 4 8 = 5 := placed_const (q := (4, 8)) hc hf (by decide)
  have e27 : field _ 27 5 = 0 := placed_const (q := (27, 5)) hc hf (by decide)
  rw [hw] at e22 e17 e12 e1 e4 e27
  simp [decodeWord, decode32, decodeAlu, unlessReserved, e1, e4, e12, e17, e22, e27]

theorem sll (d a b : Nat) : Statement (.sll d a b) := by
  intro hwf nbits word he
  obtain ⟨rfl, hw⟩ := of_word (b := placed 0x81 [d, a, b] [(22, 5), (17, 5), (12, 5)]) he
  have hwf := of_decide_eq_true (p := d < 32 ∧ a < 32 ∧ b < 32) hwf
  have hc : clear 0x81 [(22, 5), (17, 5), (12, 5)] = true := by decide
  have hf : fits [d, a, b] [(22, 5), (17, 5), (12, 5)] := ⟨hwf.1, hwf.2.1, hwf.2.2, trivial⟩
  obtain ⟨e22, e17, e12, -⟩ := placed_reads hc hf
  have e1 : field _ 1 3 = 0 := placed_const (q := (1, 3)) hc hf (by decide)
  have e4 : field _ 4 8 = 8 := placed_const (q := (4, 8)) hc hf (by decide)
  have e27 : field _ 27 5 = 0 := placed_const (q := (27, 5)) hc hf (by decide)
  rw [hw] at e22 e17 e12 e1 e4 e27
  simp [decodeWord, decode32, decodeAlu, unlessReserved, e1, e4, e12, e17, e22, e27]

theorem srl (d a b : Nat) : Statement (.srl d a b) := by
  intro hwf nbits word he
  obtain ⟨rfl, hw⟩ := of_word (b := placed 0x91 [d, a, b] [(22, 5), (17, 5), (12, 5)]) he
  have hwf := of_decide_eq_true (p := d < 32 ∧ a < 32 ∧ b < 32) hwf
  have hc : clear 0x91 [(22, 5), (17, 5), (12, 5)] = true := by decide
  have hf : fits [d, a, b] [(22, 5), (17, 5), (12, 5)] := ⟨hwf.1, hwf.2.1, hwf.2.2, trivial⟩
  obtain ⟨e22, e17, e12, -⟩ := placed_reads hc hf
  have e1 : field _ 1 3 = 0 := placed_const (q := (1, 3)) hc hf (by decide)
  have e4 : field _ 4 8 = 9 := placed_const (q := (4, 8)) hc hf (by decide)
  have e27 : field _ 27 5 = 0 := placed_const (q := (27, 5)) hc hf (by decide)
  rw [hw] at e22 e17 e12 e1 e4 e27
  simp [decodeWord, decode32, decodeAlu, unlessReserved, e1, e4, e12, e17, e22, e27]

theorem sra (d a b : Nat) : Statement (.sra d a b) := by
  intro hwf nbits word he
  obtain ⟨rfl, hw⟩ := of_word (b := placed 0xa1 [d, a, b] [(22, 5), (17, 5), (12, 5)]) he
  have hwf := of_decide_eq_true (p := d < 32 ∧ a < 32 ∧ b < 32) hwf
  have hc : clear 0xa1 [(22, 5), (17, 5), (12, 5)] = true := by decide
  have hf : fits [d, a, b] [(22, 5), (17, 5), (12, 5)] := ⟨hwf.1, hwf.2.1, hwf.2.2, trivial⟩
  obtain ⟨e22, e17, e12, -⟩ := placed_reads hc hf
  have e1 : field _ 1 3 = 0 := placed_const (q := (1, 3)) hc hf (by decide)
  have e4 : field _ 4 8 = 10 := placed_const (q := (4, 8)) hc hf (by decide)
  have e27 : field _ 27 5 = 0 := placed_const (q := (27, 5)) hc hf (by decide)
  rw [hw] at e22 e17 e12 e1 e4 e27
  simp [decodeWord, decode32, decodeAlu, unlessReserved, e1, e4, e12, e17, e22, e27]

theorem rol (d a b : Nat) : Statement (.rol d a b) := by
  intro hwf nbits word he
  obtain ⟨rfl, hw⟩ := of_word (b := placed 0xb1 [d, a, b] [(22, 5), (17, 5), (12, 5)]) he
  have hwf := of_decide_eq_true (p := d < 32 ∧ a < 32 ∧ b < 32) hwf
  have hc : clear 0xb1 [(22, 5), (17, 5), (12, 5)] = true := by decide
  have hf : fits [d, a, b] [(22, 5), (17, 5), (12, 5)] := ⟨hwf.1, hwf.2.1, hwf.2.2, trivial⟩
  obtain ⟨e22, e17, e12, -⟩ := placed_reads hc hf
  have e1 : field _ 1 3 = 0 := placed_const (q := (1, 3)) hc hf (by decide)
  have e4 : field _ 4 8 = 11 := placed_const (q := (4, 8)) hc hf (by decide)
  have e27 : field _ 27 5 = 0 := placed_const (q := (27, 5)) hc hf (by decide)
  rw [hw] at e22 e17 e12 e1 e4 e27
  simp [decodeWord, decode32, decodeAlu, unlessReserved, e1, e4, e12, e17, e22, e27]

theorem min (d a b : Nat) : Statement (.min d a b) := by
  intro hwf nbits word he
  obtain ⟨rfl, hw⟩ := of_word (b := placed 0x101 [d, a, b] [(22, 5), (17, 5), (12, 5)]) he
  have hwf := of_decide_eq_true (p := d < 32 ∧ a < 32 ∧ b < 32) hwf
  have hc : clear 0x101 [(22, 5), (17, 5), (12, 5)] = true := by decide
  have hf : fits [d, a, b] [(22, 5), (17, 5), (12, 5)] := ⟨hwf.1, hwf.2.1, hwf.2.2, trivial⟩
  obtain ⟨e22, e17, e12, -⟩ := placed_reads hc hf
  have e1 : field _ 1 3 = 0 := placed_const (q := (1, 3)) hc hf (by decide)
  have e4 : field _ 4 8 = 16 := placed_const (q := (4, 8)) hc hf (by decide)
  have e27 : field _ 27 5 = 0 := placed_const (q := (27, 5)) hc hf (by decide)
  rw [hw] at e22 e17 e12 e1 e4 e27
  simp [decodeWord, decode32, decodeAlu, unlessReserved, e1, e4, e12, e17, e22, e27]

theorem max (d a b : Nat) : Statement (.max d a b) := by
  intro hwf nbits word he
  obtain ⟨rfl, hw⟩ := of_word (b := placed 0x111 [d, a, b] [(22, 5), (17, 5), (12, 5)]) he
  have hwf := of_decide_eq_true (p := d < 32 ∧ a < 32 ∧ b < 32) hwf
  have hc : clear 0x111 [(22, 5), (17, 5), (12, 5)] = true := by decide
  have hf : fits [d, a, b] [(22, 5), (17, 5), (12, 5)] := ⟨hwf.1, hwf.2.1, hwf.2.2, trivial⟩
  obtain ⟨e22, e17, e12, -⟩ := placed_reads hc hf
  have e1 : field _ 1 3 = 0 := placed_const (q := (1, 3)) hc hf (by decide)
  have e4 : field _ 4 8 = 17 := placed_const (q := (4, 8)) hc hf (by decide)
  have e27 : field _ 27 5 = 0 := placed_const (q := (27, 5)) hc hf (by decide)
  rw [hw] at e22 e17 e12 e1 e4 e27
  simp [decodeWord, decode32, decodeAlu, unlessReserved, e1, e4, e12, e17, e22, e27]

theorem minn (d a b : Nat) : Statement (.minn d a b) := by
  intro hwf nbits word he
  obtain ⟨rfl, hw⟩ := of_word (b := placed 0x121 [d, a, b] [(22, 5), (17, 5), (12, 5)]) he
  have hwf := of_decide_eq_true (p := d < 32 ∧ a < 32 ∧ b < 32) hwf
  have hc : clear 0x121 [(22, 5), (17, 5), (12, 5)] = true := by decide
  have hf : fits [d, a, b] [(22, 5), (17, 5), (12, 5)] := ⟨hwf.1, hwf.2.1, hwf.2.2, trivial⟩
  obtain ⟨e22, e17, e12, -⟩ := placed_reads hc hf
  have e1 : field _ 1 3 = 0 := placed_const (q := (1, 3)) hc hf (by decide)
  have e4 : field _ 4 8 = 18 := placed_const (q := (4, 8)) hc hf (by decide)
  have e27 : field _ 27 5 = 0 := placed_const (q := (27, 5)) hc hf (by decide)
  rw [hw] at e22 e17 e12 e1 e4 e27
  simp [decodeWord, decode32, decodeAlu, unlessReserved, e1, e4, e12, e17, e22, e27]

theorem maxn (d a b : Nat) : Statement (.maxn d a b) := by
  intro hwf nbits word he
  obtain ⟨rfl, hw⟩ := of_word (b := placed 0x131 [d, a, b] [(22, 5), (17, 5), (12, 5)]) he
  have hwf := of_decide_eq_true (p := d < 32 ∧ a < 32 ∧ b < 32) hwf
  have hc : clear 0x131 [(22, 5), (17, 5), (12, 5)] = true := by decide
  have hf : fits [d, a, b] [(22, 5), (17, 5), (12, 5)] := ⟨hwf.1, hwf.2.1, hwf.2.2, trivial⟩
  obtain ⟨e22, e17, e12, -⟩ := placed_reads hc hf
  have e1 : field _ 1 3 = 0 := placed_const (q := (1, 3)) hc hf (by decide)
  have e4 : field _ 4 8 = 19 := placed_const (q := (4, 8)) hc hf (by decide)
  have e27 : field _ 27 5 = 0 := placed_const (q := (27, 5)) hc hf (by decide)
  rw [hw] at e22 e17 e12 e1 e4 e27
  simp [decodeWord, decode32, decodeAlu, unlessReserved, e1, e4, e12, e17, e22, e27]

theorem slt (d a b : Nat) : Statement (.slt d a b) := by
  intro hwf nbits word he
  obtain ⟨rfl, hw⟩ := of_word (b := placed 0x141 [d, a, b] [(22, 5), (17, 5), (12, 5)]) he
  have hwf := of_decide_eq_true (p := d < 32 ∧ a < 32 ∧ b < 32) hwf
  have hc : clear 0x141 [(22, 5), (17, 5), (12, 5)] = true := by decide
  have hf : fits [d, a, b] [(22, 5), (17, 5), (12, 5)] := ⟨hwf.1, hwf.2.1, hwf.2.2, trivial⟩
  obtain ⟨e22, e17, e12, -⟩ := placed_reads hc hf
  have e1 : field _ 1 3 = 0 := placed_const (q := (1, 3)) hc hf (by decide)
  have e4 : field _ 4 8 = 20 := placed_const (q := (4, 8)) hc hf (by decide)
  have e27 : field _ 27 5 = 0 := placed_const (q := (27, 5)) hc hf (by decide)
  rw [hw] at e22 e17 e12 e1 e4 e27
  simp [decodeWord, decode32, decodeAlu, unlessReserved, e1, e4, e12, e17, e22, e27]

theorem sltn (d a b : Nat) : Statement (.sltn d a b) := by
  intro hwf nbits word he
  obtain ⟨rfl, hw⟩ := of_word (b := placed 0x151 [d, a, b] [(22, 5), (17, 5), (12, 5)]) he
  have hwf := of_decide_eq_true (p := d < 32 ∧ a < 32 ∧ b < 32) hwf
  have hc : clear 0x151 [(22, 5), (17, 5), (12, 5)] = true := by decide
  have hf : fits [d, a, b] [(22, 5), (17, 5), (12, 5)] := ⟨hwf.1, hwf.2.1, hwf.2.2, trivial⟩
  obtain ⟨e22, e17, e12, -⟩ := placed_reads hc hf
  have e1 : field _ 1 3 = 0 := placed_const (q := (1, 3)) hc hf (by decide)
  have e4 : field _ 4 8 = 21 := placed_const (q := (4, 8)) hc hf (by decide)
  have e27 : field _ 27 5 = 0 := placed_const (q := (27, 5)) hc hf (by decide)
  rw [hw] at e22 e17 e12 e1 e4 e27
  simp [decodeWord, decode32, decodeAlu, unlessReserved, e1, e4, e12, e17, e22, e27]

theorem sel (d a b : Nat) : Statement (.sel d a b) := by
  intro hwf nbits word he
  obtain ⟨rfl, hw⟩ := of_word (b := placed 0x161 [d, a, b] [(22, 5), (17, 5), (12, 5)]) he
  have hwf := of_decide_eq_true (p := d < 32 ∧ a < 32 ∧ b < 32) hwf
  have hc : clear 0x161 [(22, 5), (17, 5), (12, 5)] = true := by decide
  have hf : fits [d, a, b] [(22, 5), (17, 5), (12, 5)] := ⟨hwf.1, hwf.2.1, hwf.2.2, trivial⟩
  obtain ⟨e22, e17, e12, -⟩ := placed_reads hc hf
  have e1 : field _ 1 3 = 0 := placed_const (q := (1, 3)) hc hf (by decide)
  have e4 : field _ 4 8 = 22 := placed_const (q := (4, 8)) hc hf (by decide)
  have e27 : field _ 27 5 = 0 := placed_const (q := (27, 5)) hc hf (by decide)
  rw [hw] at e22 e17 e12 e1 e4 e27
  simp [decodeWord, decode32, decodeAlu, unlessReserved, e1, e4, e12, e17, e22, e27]

theorem addsh (d a b s : Nat) : Statement (.addsh d a b s) := by
  intro hwf nbits word he
  obtain ⟨rfl, hw⟩ := of_word (b := placed 0x181 [d, a, b, s] [(22, 5), (17, 5), (12, 5), (1, 3)]) he
  have hwf := of_decide_eq_true (p := d < 32 ∧ a < 32 ∧ b < 32 ∧ s < 8) hwf
  have hc : clear 0x181 [(22, 5), (17, 5), (12, 5), (1, 3)] = true := by decide
  have hf : fits [d, a, b, s] [(22, 5), (17, 5), (12, 5), (1, 3)] := ⟨hwf.1, hwf.2.1, hwf.2.2.1, hwf.2.2.2, trivial⟩
  obtain ⟨e22, e17, e12, e1, -⟩ := placed_reads hc hf
  have e4 : field _ 4 8 = 24 := placed_const (q := (4, 8)) hc hf (by decide)
  have e27 : field _ 27 5 = 0 := placed_const (q := (27, 5)) hc hf (by decide)
  rw [hw] at e22 e17 e12 e1 e4 e27
  simp [decodeWord, decode32, decodeAlu, e1, e4, e12, e17, e22, e27]

theorem mul (d a b : Nat) : Statement (.mul d a b) := by
  intro hwf nbits word he
  obtain ⟨rfl, hw⟩ := of_word (b := placed 0x201 [d, a, b] [(22, 5), (17, 5), (12, 5)]) he
  have hwf := of_decide_eq_true (p := d < 32 ∧ a < 32 ∧ b < 32) hwf
  have hc : clear 0x201 [(22, 5), (17, 5), (12, 5)] = true := by decide
  have hf : fits [d, a, b] [(22, 5), (17, 5), (12, 5)] := ⟨hwf.1, hwf.2.1, hwf.2.2, trivial⟩
  obtain ⟨e22, e17, e12, -⟩ := placed_reads hc hf
  have e1 : field _ 1 3 = 0 := placed_const (q := (1, 3)) hc hf (by decide)
  have e4 : field _ 4 8 = 32 := placed_const (q := (4, 8)) hc hf (by decide)
  have e27 : field _ 27 5 = 0 := placed_const (q := (27, 5)) hc hf (by decide)
  rw [hw] at e22 e17 e12 e1 e4 e27
  simp [decodeWord, decode32, decodeAlu, unlessReserved, e1, e4, e12, e17, e22, e27]

theorem mulh (d a b : Nat) : Statement (.mulh d a b) := by
  intro hwf nbits word he
  obtain ⟨rfl, hw⟩ := of_word (b := placed 0x211 [d, a, b] [(22, 5), (17, 5), (12, 5)]) he
  have hwf := of_decide_eq_true (p := d < 32 ∧ a < 32 ∧ b < 32) hwf
  have hc : clear 0x211 [(22, 5), (17, 5), (12, 5)] = true := by decide
  have hf : fits [d, a, b] [(22, 5), (17, 5), (12, 5)] := ⟨hwf.1, hwf.2.1, hwf.2.2, trivial⟩
  obtain ⟨e22, e17, e12, -⟩ := placed_reads hc hf
  have e1 : field _ 1 3 = 0 := placed_const (q := (1, 3)) hc hf (by decide)
  have e4 : field _ 4 8 = 33 := placed_const (q := (4, 8)) hc hf (by decide)
  have e27 : field _ 27 5 = 0 := placed_const (q := (27, 5)) hc hf (by decide)
  rw [hw] at e22 e17 e12 e1 e4 e27
  simp [decodeWord, decode32, decodeAlu, unlessReserved, e1, e4, e12, e17, e22, e27]

theorem mulhn (d a b : Nat) : Statement (.mulhn d a b) := by
  intro hwf nbits word he
  obtain ⟨rfl, hw⟩ := of_word (b := placed 0x221 [d, a, b] [(22, 5), (17, 5), (12, 5)]) he
  have hwf := of_decide_eq_true (p := d < 32 ∧ a < 32 ∧ b < 32) hwf
  have hc : clear 0x221 [(22, 5), (17, 5), (12, 5)] = true := by decide
  have hf : fits [d, a, b] [(22, 5), (17, 5), (12, 5)] := ⟨hwf.1, hwf.2.1, hwf.2.2, trivial⟩
  obtain ⟨e22, e17, e12, -⟩ := placed_reads hc hf
  have e1 : field _ 1 3 = 0 := placed_const (q := (1, 3)) hc hf (by decide)
  have e4 : field _ 4 8 = 34 := placed_const (q := (4, 8)) hc hf (by decide)
  have e27 : field _ 27 5 = 0 := placed_const (q := (27, 5)) hc hf (by decide)
  rw [hw] at e22 e17 e12 e1 e4 e27
  simp [decodeWord, decode32, decodeAlu, unlessReserved, e1, e4, e12, e17, e22, e27]

theorem div (d a b : Nat) : Statement (.div d a b) := by
  intro hwf nbits word he
  obtain ⟨rfl, hw⟩ := of_word (b := placed 0x241 [d, a, b] [(22, 5), (17, 5), (12, 5)]) he
  have hwf := of_decide_eq_true (p := d < 32 ∧ a < 32 ∧ b < 32) hwf
  have hc : clear 0x241 [(22, 5), (17, 5), (12, 5)] = true := by decide
  have hf : fits [d, a, b] [(22, 5), (17, 5), (12, 5)] := ⟨hwf.1, hwf.2.1, hwf.2.2, trivial⟩
  obtain ⟨e22, e17, e12, -⟩ := placed_reads hc hf
  have e1 : field _ 1 3 = 0 := placed_const (q := (1, 3)) hc hf (by decide)
  have e4 : field _ 4 8 = 36 := placed_const (q := (4, 8)) hc hf (by decide)
  have e27 : field _ 27 5 = 0 := placed_const (q := (27, 5)) hc hf (by decide)
  rw [hw] at e22 e17 e12 e1 e4 e27
  simp [decodeWord, decode32, decodeAlu, unlessReserved, e1, e4, e12, e17, e22, e27]

theorem divn (d a b : Nat) : Statement (.divn d a b) := by
  intro hwf nbits word he
  obtain ⟨rfl, hw⟩ := of_word (b := placed 0x251 [d, a, b] [(22, 5), (17, 5), (12, 5)]) he
  have hwf := of_decide_eq_true (p := d < 32 ∧ a < 32 ∧ b < 32) hwf
  have hc : clear 0x251 [(22, 5), (17, 5), (12, 5)] = true := by decide
  have hf : fits [d, a, b] [(22, 5), (17, 5), (12, 5)] := ⟨hwf.1, hwf.2.1, hwf.2.2, trivial⟩
  obtain ⟨e22, e17, e12, -⟩ := placed_reads hc hf
  have e1 : field _ 1 3 = 0 := placed_const (q := (1, 3)) hc hf (by decide)
  have e4 : field _ 4 8 = 37 := placed_const (q := (4, 8)) hc hf (by decide)
  have e27 : field _ 27 5 = 0 := placed_const (q := (27, 5)) hc hf (by decide)
  rw [hw] at e22 e17 e12 e1 e4 e27
  simp [decodeWord, decode32, decodeAlu, unlessReserved, e1, e4, e12, e17, e22, e27]

theorem rem (d a b : Nat) : Statement (.rem d a b) := by
  intro hwf nbits word he
  obtain ⟨rfl, hw⟩ := of_word (b := placed 0x261 [d, a, b] [(22, 5), (17, 5), (12, 5)]) he
  have hwf := of_decide_eq_true (p := d < 32 ∧ a < 32 ∧ b < 32) hwf
  have hc : clear 0x261 [(22, 5), (17, 5), (12, 5)] = true := by decide
  have hf : fits [d, a, b] [(22, 5), (17, 5), (12, 5)] := ⟨hwf.1, hwf.2.1, hwf.2.2, trivial⟩
  obtain ⟨e22, e17, e12, -⟩ := placed_reads hc hf
  have e1 : field _ 1 3 = 0 := placed_const (q := (1, 3)) hc hf (by decide)
  have e4 : field _ 4 8 = 38 := placed_const (q := (4, 8)) hc hf (by decide)
  have e27 : field _ 27 5 = 0 := placed_const (q := (27, 5)) hc hf (by decide)
  rw [hw] at e22 e17 e12 e1 e4 e27
  simp [decodeWord, decode32, decodeAlu, unlessReserved, e1, e4, e12, e17, e22, e27]

theorem remn (d a b : Nat) : Statement (.remn d a b) := by
  intro hwf nbits word he
  obtain ⟨rfl, hw⟩ := of_word (b := placed 0x271 [d, a, b] [(22, 5), (17, 5), (12, 5)]) he
  have hwf := of_decide_eq_true (p := d < 32 ∧ a < 32 ∧ b < 32) hwf
  have hc : clear 0x271 [(22, 5), (17, 5), (12, 5)] = true := by decide
  have hf : fits [d, a, b] [(22, 5), (17, 5), (12, 5)] := ⟨hwf.1, hwf.2.1, hwf.2.2, trivial⟩
  obtain ⟨e22, e17, e12, -⟩ := placed_reads hc hf
  have e1 : field _ 1 3 = 0 := placed_const (q := (1, 3)) hc hf (by decide)
  have e4 : field _ 4 8 = 39 := placed_const (q := (4, 8)) hc hf (by decide)
  have e27 : field _ 27 5 = 0 := placed_const (q := (27, 5)) hc hf (by decide)
  rw [hw] at e22 e17 e12 e1 e4 e27
  simp [decodeWord, decode32, decodeAlu, unlessReserved, e1, e4, e12, e17, e22, e27]

theorem clz (d a : Nat) : Statement (.clz d a) := by
  intro hwf nbits word he
  obtain ⟨rfl, hw⟩ := of_word (b := placed 0x301 [d, a] [(22, 5), (17, 5)]) he
  have hwf := of_decide_eq_true (p := d < 32 ∧ a < 32) hwf
  have hc : clear 0x301 [(22, 5), (17, 5)] = true := by decide
  have hf : fits [d, a] [(22, 5), (17, 5)] := ⟨hwf.1, hwf.2, trivial⟩
  obtain ⟨e22, e17, -⟩ := placed_reads hc hf
  have e1 : field _ 1 3 = 0 := placed_const (q := (1, 3)) hc hf (by decide)
  have e4 : field _ 4 8 = 48 := placed_const (q := (4, 8)) hc hf (by decide)
  have e12 : field _ 12 5 = 0 := placed_const (q := (12, 5)) hc hf (by decide)
  have e27 : field _ 27 5 = 0 := placed_const (q := (27, 5)) hc hf (by decide)
  rw [hw] at e22 e17 e1 e4 e12 e27
  simp [decodeWord, decode32, decodeAlu, unlessReserved, e1, e4, e12, e17, e22, e27]

theorem ctz (d a : Nat) : Statement (.ctz d a) := by
  intro hwf nbits word he
  obtain ⟨rfl, hw⟩ := of_word (b := placed 0x311 [d, a] [(22, 5), (17, 5)]) he
  have hwf := of_decide_eq_true (p := d < 32 ∧ a < 32) hwf
  have hc : clear 0x311 [(22, 5), (17, 5)] = true := by decide
  have hf : fits [d, a] [(22, 5), (17, 5)] := ⟨hwf.1, hwf.2, trivial⟩
  obtain ⟨e22, e17, -⟩ := placed_reads hc hf
  have e1 : field _ 1 3 = 0 := placed_const (q := (1, 3)) hc hf (by decide)
  have e4 : field _ 4 8 = 49 := placed_const (q := (4, 8)) hc hf (by decide)
  have e12 : field _ 12 5 = 0 := placed_const (q := (12, 5)) hc hf (by decide)
  have e27 : field _ 27 5 = 0 := placed_const (q := (27, 5)) hc hf (by decide)
  rw [hw] at e22 e17 e1 e4 e12 e27
  simp [decodeWord, decode32, decodeAlu, unlessReserved, e1, e4, e12, e17, e22, e27]

theorem popc (d a : Nat) : Statement (.popc d a) := by
  intro hwf nbits word he
  obtain ⟨rfl, hw⟩ := of_word (b := placed 0x321 [d, a] [(22, 5), (17, 5)]) he
  have hwf := of_decide_eq_true (p := d < 32 ∧ a < 32) hwf
  have hc : clear 0x321 [(22, 5), (17, 5)] = true := by decide
  have hf : fits [d, a] [(22, 5), (17, 5)] := ⟨hwf.1, hwf.2, trivial⟩
  obtain ⟨e22, e17, -⟩ := placed_reads hc hf
  have e1 : field _ 1 3 = 0 := placed_const (q := (1, 3)) hc hf (by decide)
  have e4 : field _ 4 8 = 50 := placed_const (q := (4, 8)) hc hf (by decide)
  have e12 : field _ 12 5 = 0 := placed_const (q := (12, 5)) hc hf (by decide)
  have e27 : field _ 27 5 = 0 := placed_const (q := (27, 5)) hc hf (by decide)
  rw [hw] at e22 e17 e1 e4 e12 e27
  simp [decodeWord, decode32, decodeAlu, unlessReserved, e1, e4, e12, e17, e22, e27]

theorem bswap (d a : Nat) : Statement (.bswap d a) := by
  intro hwf nbits word he
  obtain ⟨rfl, hw⟩ := of_word (b := placed 0x331 [d, a] [(22, 5), (17, 5)]) he
  have hwf := of_decide_eq_true (p := d < 32 ∧ a < 32) hwf
  have hc : clear 0x331 [(22, 5), (17, 5)] = true := by decide
  have hf : fits [d, a] [(22, 5), (17, 5)] := ⟨hwf.1, hwf.2, trivial⟩
  obtain ⟨e22, e17, -⟩ := placed_reads hc hf
  have e1 : field _ 1 3 = 0 := placed_const (q := (1, 3)) hc hf (by decide)
  have e4 : field _ 4 8 = 51 := placed_const (q := (4, 8)) hc hf (by decide)
  have e12 : field _ 12 5 = 0 := placed_const (q := (12, 5)) hc hf (by decide)
  have e27 : field _ 27 5 = 0 := placed_const (q := (27, 5)) hc hf (by decide)
  rw [hw] at e22 e17 e1 e4 e12 e27
  simp [decodeWord, decode32, decodeAlu, unlessReserved, e1, e4, e12, e17, e22, e27]

theorem slli (d a s h : Nat) : Statement (.slli d a s h) := by
  intro hwf nbits word he
  obtain ⟨rfl, hw⟩ := of_word (b := placed 0x28000001 [d, a, s, h] [(22, 5), (17, 5), (12, 5), (6, 1)]) he
  have hwf := of_decide_eq_true (p := d < 32 ∧ a < 32 ∧ s < 32 ∧ h < 2) hwf
  have hc : clear 0x28000001 [(22, 5), (17, 5), (12, 5), (6, 1)] = true := by decide
  have hf : fits [d, a, s, h] [(22, 5), (17, 5), (12, 5), (6, 1)] := ⟨hwf.1, hwf.2.1, hwf.2.2.1, hwf.2.2.2, trivial⟩
  obtain ⟨e22, e17, e12, e6, -⟩ := placed_reads hc hf
  have e1 : field _ 1 3 = 0 := placed_const (q := (1, 3)) hc hf (by decide)
  have e4 : field _ 4 2 = 0 := placed_const (q := (4, 2)) hc hf (by decide)
  have e7 : field _ 7 5 = 0 := placed_const (q := (7, 5)) hc hf (by decide)
  have e27 : field _ 27 5 = 5 := placed_const (q := (27, 5)) hc hf (by decide)
  rw [hw] at e22 e17 e12 e6 e1 e4 e7 e27
  simp [decodeWord, decode32, decodeShi, unlessReserved, e1, e4, e6, e7, e12, e17, e22, e27]

theorem srli (d a s h : Nat) : Statement (.srli d a s h) := by
  intro hwf nbits word he
  obtain ⟨rfl, hw⟩ := of_word (b := placed 0x28000011 [d, a, s, h] [(22, 5), (17, 5), (12, 5), (6, 1)]) he
  have hwf := of_decide_eq_true (p := d < 32 ∧ a < 32 ∧ s < 32 ∧ h < 2) hwf
  have hc : clear 0x28000011 [(22, 5), (17, 5), (12, 5), (6, 1)] = true := by decide
  have hf : fits [d, a, s, h] [(22, 5), (17, 5), (12, 5), (6, 1)] := ⟨hwf.1, hwf.2.1, hwf.2.2.1, hwf.2.2.2, trivial⟩
  obtain ⟨e22, e17, e12, e6, -⟩ := placed_reads hc hf
  have e1 : field _ 1 3 = 0 := placed_const (q := (1, 3)) hc hf (by decide)
  have e4 : field _ 4 2 = 1 := placed_const (q := (4, 2)) hc hf (by decide)
  have e7 : field _ 7 5 = 0 := placed_const (q := (7, 5)) hc hf (by decide)
  have e27 : field _ 27 5 = 5 := placed_const (q := (27, 5)) hc hf (by decide)
  rw [hw] at e22 e17 e12 e6 e1 e4 e7 e27
  simp [decodeWord, decode32, decodeShi, unlessReserved, e1, e4, e6, e7, e12, e17, e22, e27]

theorem srai (d a s h : Nat) : Statement (.srai d a s h) := by
  intro hwf nbits word he
  obtain ⟨rfl, hw⟩ := of_word (b := placed 0x28000021 [d, a, s, h] [(22, 5), (17, 5), (12, 5), (6, 1)]) he
  have hwf := of_decide_eq_true (p := d < 32 ∧ a < 32 ∧ s < 32 ∧ h < 2) hwf
  have hc : clear 0x28000021 [(22, 5), (17, 5), (12, 5), (6, 1)] = true := by decide
  have hf : fits [d, a, s, h] [(22, 5), (17, 5), (12, 5), (6, 1)] := ⟨hwf.1, hwf.2.1, hwf.2.2.1, hwf.2.2.2, trivial⟩
  obtain ⟨e22, e17, e12, e6, -⟩ := placed_reads hc hf
  have e1 : field _ 1 3 = 0 := placed_const (q := (1, 3)) hc hf (by decide)
  have e4 : field _ 4 2 = 2 := placed_const (q := (4, 2)) hc hf (by decide)
  have e7 : field _ 7 5 = 0 := placed_const (q := (7, 5)) hc hf (by decide)
  have e27 : field _ 27 5 = 5 := placed_const (q := (27, 5)) hc hf (by decide)
  rw [hw] at e22 e17 e12 e6 e1 e4 e7 e27
  simp [decodeWord, decode32, decodeShi, unlessReserved, e1, e4, e6, e7, e12, e17, e22, e27]

theorem roli (d a s h : Nat) : Statement (.roli d a s h) := by
  intro hwf nbits word he
  obtain ⟨rfl, hw⟩ := of_word (b := placed 0x28000031 [d, a, s, h] [(22, 5), (17, 5), (12, 5), (6, 1)]) he
  have hwf := of_decide_eq_true (p := d < 32 ∧ a < 32 ∧ s < 32 ∧ h < 2) hwf
  have hc : clear 0x28000031 [(22, 5), (17, 5), (12, 5), (6, 1)] = true := by decide
  have hf : fits [d, a, s, h] [(22, 5), (17, 5), (12, 5), (6, 1)] := ⟨hwf.1, hwf.2.1, hwf.2.2.1, hwf.2.2.2, trivial⟩
  obtain ⟨e22, e17, e12, e6, -⟩ := placed_reads hc hf
  have e1 : field _ 1 3 = 0 := placed_const (q := (1, 3)) hc hf (by decide)
  have e4 : field _ 4 2 = 3 := placed_const (q := (4, 2)) hc hf (by decide)
  have e7 : field _ 7 5 = 0 := placed_const (q := (7, 5)) hc hf (by decide)
  have e27 : field _ 27 5 = 5 := placed_const (q := (27, 5)) hc hf (by decide)
  rw [hw] at e22 e17 e12 e6 e1 e4 e7 e27
  simp [decodeWord, decode32, decodeShi, unlessReserved, e1, e4, e6, e7, e12, e17, e22, e27]

theorem addi (d a i : Nat) : Statement (.addi d a i) := by
  intro hwf nbits word he
  obtain ⟨rfl, hw⟩ := of_word (b := placed 0x8000001 [d, a, i] [(22, 5), (17, 5), (1, 16)]) he
  have hwf := of_decide_eq_true (p := d < 32 ∧ a < 32 ∧ i < 65536) hwf
  have hc : clear 0x8000001 [(22, 5), (17, 5), (1, 16)] = true := by decide
  have hf : fits [d, a, i] [(22, 5), (17, 5), (1, 16)] := ⟨hwf.1, hwf.2.1, hwf.2.2, trivial⟩
  obtain ⟨e22, e17, e1, -⟩ := placed_reads hc hf
  have e27 : field _ 27 5 = 1 := placed_const (q := (27, 5)) hc hf (by decide)
  rw [hw] at e22 e17 e1 e27
  simp [decodeWord, decode32, e1, e17, e22, e27]

theorem andi (d a i : Nat) : Statement (.andi d a i) := by
  intro hwf nbits word he
  obtain ⟨rfl, hw⟩ := of_word (b := placed 0x10000001 [d, a, i] [(22, 5), (17, 5), (1, 16)]) he
  have hwf := of_decide_eq_true (p := d < 32 ∧ a < 32 ∧ i < 65536) hwf
  have hc : clear 0x10000001 [(22, 5), (17, 5), (1, 16)] = true := by decide
  have hf : fits [d, a, i] [(22, 5), (17, 5), (1, 16)] := ⟨hwf.1, hwf.2.1, hwf.2.2, trivial⟩
  obtain ⟨e22, e17, e1, -⟩ := placed_reads hc hf
  have e27 : field _ 27 5 = 2 := placed_const (q := (27, 5)) hc hf (by decide)
  rw [hw] at e22 e17 e1 e27
  simp [decodeWord, decode32, e1, e17, e22, e27]

theorem ori (d a i : Nat) : Statement (.ori d a i) := by
  intro hwf nbits word he
  obtain ⟨rfl, hw⟩ := of_word (b := placed 0x18000001 [d, a, i] [(22, 5), (17, 5), (1, 16)]) he
  have hwf := of_decide_eq_true (p := d < 32 ∧ a < 32 ∧ i < 65536) hwf
  have hc : clear 0x18000001 [(22, 5), (17, 5), (1, 16)] = true := by decide
  have hf : fits [d, a, i] [(22, 5), (17, 5), (1, 16)] := ⟨hwf.1, hwf.2.1, hwf.2.2, trivial⟩
  obtain ⟨e22, e17, e1, -⟩ := placed_reads hc hf
  have e27 : field _ 27 5 = 3 := placed_const (q := (27, 5)) hc hf (by decide)
  rw [hw] at e22 e17 e1 e27
  simp [decodeWord, decode32, e1, e17, e22, e27]

theorem xori (d a i : Nat) : Statement (.xori d a i) := by
  intro hwf nbits word he
  obtain ⟨rfl, hw⟩ := of_word (b := placed 0x20000001 [d, a, i] [(22, 5), (17, 5), (1, 16)]) he
  have hwf := of_decide_eq_true (p := d < 32 ∧ a < 32 ∧ i < 65536) hwf
  have hc : clear 0x20000001 [(22, 5), (17, 5), (1, 16)] = true := by decide
  have hf : fits [d, a, i] [(22, 5), (17, 5), (1, 16)] := ⟨hwf.1, hwf.2.1, hwf.2.2, trivial⟩
  obtain ⟨e22, e17, e1, -⟩ := placed_reads hc hf
  have e27 : field _ 27 5 = 4 := placed_const (q := (27, 5)) hc hf (by decide)
  rw [hw] at e22 e17 e1 e27
  simp [decodeWord, decode32, e1, e17, e22, e27]

theorem slti (d a i : Nat) : Statement (.slti d a i) := by
  intro hwf nbits word he
  obtain ⟨rfl, hw⟩ := of_word (b := placed 0x30000001 [d, a, i] [(22, 5), (17, 5), (1, 16)]) he
  have hwf := of_decide_eq_true (p := d < 32 ∧ a < 32 ∧ i < 65536) hwf
  have hc : clear 0x30000001 [(22, 5), (17, 5), (1, 16)] = true := by decide
  have hf : fits [d, a, i] [(22, 5), (17, 5), (1, 16)] := ⟨hwf.1, hwf.2.1, hwf.2.2, trivial⟩
  obtain ⟨e22, e17, e1, -⟩ := placed_reads hc hf
  have e27 : field _ 27 5 = 6 := placed_const (q := (27, 5)) hc hf (by decide)
  rw [hw] at e22 e17 e1 e27
  simp [decodeWord, decode32, e1, e17, e22, e27]

theorem lui (d i : Nat) : Statement (.lui d i) := by
  intro hwf nbits word he
  obtain ⟨rfl, hw⟩ := of_word (b := placed 0x38000001 [d, i] [(22, 5), (1, 21)]) he
  have hwf := of_decide_eq_true (p := d < 32 ∧ i < 2097152) hwf
  have hc : clear 0x38000001 [(22, 5), (1, 21)] = true := by decide
  have hf : fits [d, i] [(22, 5), (1, 21)] := ⟨hwf.1, hwf.2, trivial⟩
  obtain ⟨e22, e1, -⟩ := placed_reads hc hf
  have e27 : field _ 27 5 = 7 := placed_const (q := (27, 5)) hc hf (by decide)
  rw [hw] at e22 e1 e27
  simp [decodeWord, decode32, e1, e22, e27]

theorem addpc (d i : Nat) : Statement (.addpc d i) := by
  intro hwf nbits word he
  obtain ⟨rfl, hw⟩ := of_word (b := placed 0x40000001 [d, i] [(22, 5), (1, 21)]) he
  have hwf := of_decide_eq_true (p := d < 32 ∧ i < 2097152) hwf
  have hc : clear 0x40000001 [(22, 5), (1, 21)] = true := by decide
  have hf : fits [d, i] [(22, 5), (1, 21)] := ⟨hwf.1, hwf.2, trivial⟩
  obtain ⟨e22, e1, -⟩ := placed_reads hc hf
  have e27 : field _ 27 5 = 8 := placed_const (q := (27, 5)) hc hf (by decide)
  rw [hw] at e22 e1 e27
  simp [decodeWord, decode32, e1, e22, e27]

theorem beq (a b o : Nat) : Statement (.beq a b o) := by
  intro hwf nbits word he
  obtain ⟨rfl, hw⟩ := of_word (b := placed 0x48000001 [a, b, o] [(22, 5), (17, 5), (1, 13)]) he
  have hwf := of_decide_eq_true (p := a < 32 ∧ b < 32 ∧ o < 8192) hwf
  have hc : clear 0x48000001 [(22, 5), (17, 5), (1, 13)] = true := by decide
  have hf : fits [a, b, o] [(22, 5), (17, 5), (1, 13)] := ⟨hwf.1, hwf.2.1, hwf.2.2, trivial⟩
  obtain ⟨e22, e17, e1, -⟩ := placed_reads hc hf
  have e14 : field _ 14 3 = 0 := placed_const (q := (14, 3)) hc hf (by decide)
  have e27 : field _ 27 5 = 9 := placed_const (q := (27, 5)) hc hf (by decide)
  rw [hw] at e22 e17 e1 e14 e27
  simp [decodeWord, decode32, decodeBr, e1, e14, e17, e22, e27]

theorem bne (a b o : Nat) : Statement (.bne a b o) := by
  intro hwf nbits word he
  obtain ⟨rfl, hw⟩ := of_word (b := placed 0x48004001 [a, b, o] [(22, 5), (17, 5), (1, 13)]) he
  have hwf := of_decide_eq_true (p := a < 32 ∧ b < 32 ∧ o < 8192) hwf
  have hc : clear 0x48004001 [(22, 5), (17, 5), (1, 13)] = true := by decide
  have hf : fits [a, b, o] [(22, 5), (17, 5), (1, 13)] := ⟨hwf.1, hwf.2.1, hwf.2.2, trivial⟩
  obtain ⟨e22, e17, e1, -⟩ := placed_reads hc hf
  have e14 : field _ 14 3 = 1 := placed_const (q := (14, 3)) hc hf (by decide)
  have e27 : field _ 27 5 = 9 := placed_const (q := (27, 5)) hc hf (by decide)
  rw [hw] at e22 e17 e1 e14 e27
  simp [decodeWord, decode32, decodeBr, e1, e14, e17, e22, e27]

theorem blt (a b o : Nat) : Statement (.blt a b o) := by
  intro hwf nbits word he
  obtain ⟨rfl, hw⟩ := of_word (b := placed 0x48008001 [a, b, o] [(22, 5), (17, 5), (1, 13)]) he
  have hwf := of_decide_eq_true (p := a < 32 ∧ b < 32 ∧ o < 8192) hwf
  have hc : clear 0x48008001 [(22, 5), (17, 5), (1, 13)] = true := by decide
  have hf : fits [a, b, o] [(22, 5), (17, 5), (1, 13)] := ⟨hwf.1, hwf.2.1, hwf.2.2, trivial⟩
  obtain ⟨e22, e17, e1, -⟩ := placed_reads hc hf
  have e14 : field _ 14 3 = 2 := placed_const (q := (14, 3)) hc hf (by decide)
  have e27 : field _ 27 5 = 9 := placed_const (q := (27, 5)) hc hf (by decide)
  rw [hw] at e22 e17 e1 e14 e27
  simp [decodeWord, decode32, decodeBr, e1, e14, e17, e22, e27]

theorem bge (a b o : Nat) : Statement (.bge a b o) := by
  intro hwf nbits word he
  obtain ⟨rfl, hw⟩ := of_word (b := placed 0x4800c001 [a, b, o] [(22, 5), (17, 5), (1, 13)]) he
  have hwf := of_decide_eq_true (p := a < 32 ∧ b < 32 ∧ o < 8192) hwf
  have hc : clear 0x4800c001 [(22, 5), (17, 5), (1, 13)] = true := by decide
  have hf : fits [a, b, o] [(22, 5), (17, 5), (1, 13)] := ⟨hwf.1, hwf.2.1, hwf.2.2, trivial⟩
  obtain ⟨e22, e17, e1, -⟩ := placed_reads hc hf
  have e14 : field _ 14 3 = 3 := placed_const (q := (14, 3)) hc hf (by decide)
  have e27 : field _ 27 5 = 9 := placed_const (q := (27, 5)) hc hf (by decide)
  rw [hw] at e22 e17 e1 e14 e27
  simp [decodeWord, decode32, decodeBr, e1, e14, e17, e22, e27]

theorem bltn (a b o : Nat) : Statement (.bltn a b o) := by
  intro hwf nbits word he
  obtain ⟨rfl, hw⟩ := of_word (b := placed 0x48010001 [a, b, o] [(22, 5), (17, 5), (1, 13)]) he
  have hwf := of_decide_eq_true (p := a < 32 ∧ b < 32 ∧ o < 8192) hwf
  have hc : clear 0x48010001 [(22, 5), (17, 5), (1, 13)] = true := by decide
  have hf : fits [a, b, o] [(22, 5), (17, 5), (1, 13)] := ⟨hwf.1, hwf.2.1, hwf.2.2, trivial⟩
  obtain ⟨e22, e17, e1, -⟩ := placed_reads hc hf
  have e14 : field _ 14 3 = 4 := placed_const (q := (14, 3)) hc hf (by decide)
  have e27 : field _ 27 5 = 9 := placed_const (q := (27, 5)) hc hf (by decide)
  rw [hw] at e22 e17 e1 e14 e27
  simp [decodeWord, decode32, decodeBr, e1, e14, e17, e22, e27]

theorem bgen (a b o : Nat) : Statement (.bgen a b o) := by
  intro hwf nbits word he
  obtain ⟨rfl, hw⟩ := of_word (b := placed 0x48014001 [a, b, o] [(22, 5), (17, 5), (1, 13)]) he
  have hwf := of_decide_eq_true (p := a < 32 ∧ b < 32 ∧ o < 8192) hwf
  have hc : clear 0x48014001 [(22, 5), (17, 5), (1, 13)] = true := by decide
  have hf : fits [a, b, o] [(22, 5), (17, 5), (1, 13)] := ⟨hwf.1, hwf.2.1, hwf.2.2, trivial⟩
  obtain ⟨e22, e17, e1, -⟩ := placed_reads hc hf
  have e14 : field _ 14 3 = 5 := placed_const (q := (14, 3)) hc hf (by decide)
  have e27 : field _ 27 5 = 9 := placed_const (q := (27, 5)) hc hf (by decide)
  rw [hw] at e22 e17 e1 e14 e27
  simp [decodeWord, decode32, decodeBr, e1, e14, e17, e22, e27]

theorem bany (a b o : Nat) : Statement (.bany a b o) := by
  intro hwf nbits word he
  obtain ⟨rfl, hw⟩ := of_word (b := placed 0x48018001 [a, b, o] [(22, 5), (17, 5), (1, 13)]) he
  have hwf := of_decide_eq_true (p := a < 32 ∧ b < 32 ∧ o < 8192) hwf
  have hc : clear 0x48018001 [(22, 5), (17, 5), (1, 13)] = true := by decide
  have hf : fits [a, b, o] [(22, 5), (17, 5), (1, 13)] := ⟨hwf.1, hwf.2.1, hwf.2.2, trivial⟩
  obtain ⟨e22, e17, e1, -⟩ := placed_reads hc hf
  have e14 : field _ 14 3 = 6 := placed_const (q := (14, 3)) hc hf (by decide)
  have e27 : field _ 27 5 = 9 := placed_const (q := (27, 5)) hc hf (by decide)
  rw [hw] at e22 e17 e1 e14 e27
  simp [decodeWord, decode32, decodeBr, e1, e14, e17, e22, e27]

theorem bnone (a b o : Nat) : Statement (.bnone a b o) := by
  intro hwf nbits word he
  obtain ⟨rfl, hw⟩ := of_word (b := placed 0x4801c001 [a, b, o] [(22, 5), (17, 5), (1, 13)]) he
  have hwf := of_decide_eq_true (p := a < 32 ∧ b < 32 ∧ o < 8192) hwf
  have hc : clear 0x4801c001 [(22, 5), (17, 5), (1, 13)] = true := by decide
  have hf : fits [a, b, o] [(22, 5), (17, 5), (1, 13)] := ⟨hwf.1, hwf.2.1, hwf.2.2, trivial⟩
  obtain ⟨e22, e17, e1, -⟩ := placed_reads hc hf
  have e14 : field _ 14 3 = 7 := placed_const (q := (14, 3)) hc hf (by decide)
  have e27 : field _ 27 5 = 9 := placed_const (q := (27, 5)) hc hf (by decide)
  rw [hw] at e22 e17 e1 e14 e27
  simp [decodeWord, decode32, decodeBr, e1, e14, e17, e22, e27]

theorem j (o : Nat) : Statement (.j o) := by
  intro hwf nbits word he
  obtain ⟨rfl, hw⟩ := of_word (b := placed 0x50000001 [o] [(1, 26)]) he
  have hwf := of_decide_eq_true (p := o < 67108864) hwf
  have hc : clear 0x50000001 [(1, 26)] = true := by decide
  have hf : fits [o] [(1, 26)] := ⟨hwf, trivial⟩
  obtain ⟨e1, -⟩ := placed_reads hc hf
  have e27 : field _ 27 5 = 10 := placed_const (q := (27, 5)) hc hf (by decide)
  rw [hw] at e1 e27
  simp [decodeWord, decode32, e1, e27]

theorem jal (o : Nat) : Statement (.jal o) := by
  intro hwf nbits word he
  obtain ⟨rfl, hw⟩ := of_word (b := placed 0x58000001 [o] [(1, 26)]) he
  have hwf := of_decide_eq_true (p := o < 67108864) hwf
  have hc : clear 0x58000001 [(1, 26)] = true := by decide
  have hf : fits [o] [(1, 26)] := ⟨hwf, trivial⟩
  obtain ⟨e1, -⟩ := placed_reads hc hf
  have e27 : field _ 27 5 = 11 := placed_const (q := (27, 5)) hc hf (by decide)
  rw [hw] at e1 e27
  simp [decodeWord, decode32, e1, e27]

theorem jalr (d a i : Nat) : Statement (.jalr d a i) := by
  intro hwf nbits word he
  obtain ⟨rfl, hw⟩ := of_word (b := placed 0x60000001 [d, a, i] [(22, 5), (17, 5), (1, 16)]) he
  have hwf := of_decide_eq_true (p := d < 32 ∧ a < 32 ∧ i < 65536) hwf
  have hc : clear 0x60000001 [(22, 5), (17, 5), (1, 16)] = true := by decide
  have hf : fits [d, a, i] [(22, 5), (17, 5), (1, 16)] := ⟨hwf.1, hwf.2.1, hwf.2.2, trivial⟩
  obtain ⟨e22, e17, e1, -⟩ := placed_reads hc hf
  have e27 : field _ 27 5 = 12 := placed_const (q := (27, 5)) hc hf (by decide)
  rw [hw] at e22 e17 e1 e27
  simp [decodeWord, decode32, e1, e17, e22, e27]

theorem ld (d a w o : Nat) : Statement (.ld d a w o) := by
  intro hwf nbits word he
  obtain ⟨rfl, hw⟩ := of_word (b := placed 0x68000001 [d, a, w, o] [(22, 5), (17, 5), (14, 3), (1, 13)]) he
  have hwf := of_decide_eq_true (p := d < 32 ∧ a < 32 ∧ w < 8 ∧ o < 8192 ∧ w < 7) hwf
  have hc : clear 0x68000001 [(22, 5), (17, 5), (14, 3), (1, 13)] = true := by decide
  have hf : fits [d, a, w, o] [(22, 5), (17, 5), (14, 3), (1, 13)] := ⟨hwf.1, hwf.2.1, hwf.2.2.1, hwf.2.2.2.1, trivial⟩
  obtain ⟨e22, e17, e14, e1, -⟩ := placed_reads hc hf
  have e27 : field _ 27 5 = 13 := placed_const (q := (27, 5)) hc hf (by decide)
  rw [hw] at e22 e17 e14 e1 e27
  simp [decodeWord, decode32, e1, e14, e17, e22, e27]
  omega

theorem st (d a w o : Nat) : Statement (.st d a w o) := by
  intro hwf nbits word he
  obtain ⟨rfl, hw⟩ := of_word (b := placed 0x70000001 [d, a, w, o] [(22, 5), (17, 5), (14, 3), (1, 13)]) he
  have hwf := of_decide_eq_true (p := d < 32 ∧ a < 32 ∧ w < 8 ∧ o < 8192 ∧ w < 4) hwf
  have hc : clear 0x70000001 [(22, 5), (17, 5), (14, 3), (1, 13)] = true := by decide
  have hf : fits [d, a, w, o] [(22, 5), (17, 5), (14, 3), (1, 13)] := ⟨hwf.1, hwf.2.1, hwf.2.2.1, hwf.2.2.2.1, trivial⟩
  obtain ⟨e22, e17, e14, e1, -⟩ := placed_reads hc hf
  have e27 : field _ 27 5 = 14 := placed_const (q := (27, 5)) hc hf (by decide)
  rw [hw] at e22 e17 e14 e1 e27
  simp [decodeWord, decode32, e1, e14, e17, e22, e27]
  omega

theorem cMv (d s : Nat) : Statement (.cMv d s) := by
  intro hwf nbits word he
  obtain ⟨rfl, hw⟩ := of_word (b := placed 0x0 [d, s] [(6, 5), (1, 5)]) he
  have hwf := of_decide_eq_true (p := d < 32 ∧ s < 32 ∧ ¬ (d = 0 ∧ s = 0)) hwf
  have hc : clear 0x0 [(6, 5), (1, 5)] = true := by decide
  have hf : fits [d, s] [(6, 5), (1, 5)] := ⟨hwf.1, hwf.2.1, trivial⟩
  obtain ⟨e6, e1, -⟩ := placed_reads hc hf
  have e11 : field _ 11 5 = 0 := placed_const (q := (11, 5)) hc hf (by decide)
  rw [hw] at e6 e1 e11
  simp [decodeWord, decode16, e1, e6, e11]
  rintro rfl
  exact hwf.2.2 ⟨by simpa [field] using e6.symm, by simpa [field] using e1.symm⟩

theorem cAdd (d s : Nat) : Statement (.cAdd d s) := by
  intro hwf nbits word he
  obtain ⟨rfl, hw⟩ := of_word (b := placed 0x800 [d, s] [(6, 5), (1, 5)]) he
  have hwf := of_decide_eq_true (p := d < 32 ∧ s < 32) hwf
  have hc : clear 0x800 [(6, 5), (1, 5)] = true := by decide
  have hf : fits [d, s] [(6, 5), (1, 5)] := ⟨hwf.1, hwf.2, trivial⟩
  obtain ⟨e6, e1, -⟩ := placed_reads hc hf
  have e11 : field _ 11 5 = 1 := placed_const (q := (11, 5)) hc hf (by decide)
  rw [hw] at e6 e1 e11
  simp [decodeWord, decode16, e1, e6, e11]

theorem cSub (d s : Nat) : Statement (.cSub d s) := by
  intro hwf nbits word he
  obtain ⟨rfl, hw⟩ := of_word (b := placed 0x1000 [d, s] [(6, 5), (1, 5)]) he
  have hwf := of_decide_eq_true (p := d < 32 ∧ s < 32) hwf
  have hc : clear 0x1000 [(6, 5), (1, 5)] = true := by decide
  have hf : fits [d, s] [(6, 5), (1, 5)] := ⟨hwf.1, hwf.2, trivial⟩
  obtain ⟨e6, e1, -⟩ := placed_reads hc hf
  have e11 : field _ 11 5 = 2 := placed_const (q := (11, 5)) hc hf (by decide)
  rw [hw] at e6 e1 e11
  simp [decodeWord, decode16, e1, e6, e11]

theorem cAnd (d s : Nat) : Statement (.cAnd d s) := by
  intro hwf nbits word he
  obtain ⟨rfl, hw⟩ := of_word (b := placed 0x1800 [d, s] [(6, 5), (1, 5)]) he
  have hwf := of_decide_eq_true (p := d < 32 ∧ s < 32) hwf
  have hc : clear 0x1800 [(6, 5), (1, 5)] = true := by decide
  have hf : fits [d, s] [(6, 5), (1, 5)] := ⟨hwf.1, hwf.2, trivial⟩
  obtain ⟨e6, e1, -⟩ := placed_reads hc hf
  have e11 : field _ 11 5 = 3 := placed_const (q := (11, 5)) hc hf (by decide)
  rw [hw] at e6 e1 e11
  simp [decodeWord, decode16, e1, e6, e11]

theorem cOr (d s : Nat) : Statement (.cOr d s) := by
  intro hwf nbits word he
  obtain ⟨rfl, hw⟩ := of_word (b := placed 0x2000 [d, s] [(6, 5), (1, 5)]) he
  have hwf := of_decide_eq_true (p := d < 32 ∧ s < 32) hwf
  have hc : clear 0x2000 [(6, 5), (1, 5)] = true := by decide
  have hf : fits [d, s] [(6, 5), (1, 5)] := ⟨hwf.1, hwf.2, trivial⟩
  obtain ⟨e6, e1, -⟩ := placed_reads hc hf
  have e11 : field _ 11 5 = 4 := placed_const (q := (11, 5)) hc hf (by decide)
  rw [hw] at e6 e1 e11
  simp [decodeWord, decode16, e1, e6, e11]

theorem cAddi (d i : Nat) : Statement (.cAddi d i) := by
  intro hwf nbits word he
  obtain ⟨rfl, hw⟩ := of_word (b := placed 0x2800 [d, i] [(6, 5), (1, 5)]) he
  have hwf := of_decide_eq_true (p := d < 32 ∧ i < 32) hwf
  have hc : clear 0x2800 [(6, 5), (1, 5)] = true := by decide
  have hf : fits [d, i] [(6, 5), (1, 5)] := ⟨hwf.1, hwf.2, trivial⟩
  obtain ⟨e6, e1, -⟩ := placed_reads hc hf
  have e11 : field _ 11 5 = 5 := placed_const (q := (11, 5)) hc hf (by decide)
  rw [hw] at e6 e1 e11
  simp [decodeWord, decode16, e1, e6, e11]

theorem cLi (d i : Nat) : Statement (.cLi d i) := by
  intro hwf nbits word he
  obtain ⟨rfl, hw⟩ := of_word (b := placed 0x3000 [d, i] [(6, 5), (1, 5)]) he
  have hwf := of_decide_eq_true (p := d < 32 ∧ i < 32) hwf
  have hc : clear 0x3000 [(6, 5), (1, 5)] = true := by decide
  have hf : fits [d, i] [(6, 5), (1, 5)] := ⟨hwf.1, hwf.2, trivial⟩
  obtain ⟨e6, e1, -⟩ := placed_reads hc hf
  have e11 : field _ 11 5 = 6 := placed_const (q := (11, 5)) hc hf (by decide)
  rw [hw] at e6 e1 e11
  simp [decodeWord, decode16, e1, e6, e11]

theorem cSlli (d s : Nat) : Statement (.cSlli d s) := by
  intro hwf nbits word he
  obtain ⟨rfl, hw⟩ := of_word (b := placed 0x3800 [d, s] [(6, 5), (1, 5)]) he
  have hwf := of_decide_eq_true (p := d < 32 ∧ s < 32) hwf
  have hc : clear 0x3800 [(6, 5), (1, 5)] = true := by decide
  have hf : fits [d, s] [(6, 5), (1, 5)] := ⟨hwf.1, hwf.2, trivial⟩
  obtain ⟨e6, e1, -⟩ := placed_reads hc hf
  have e11 : field _ 11 5 = 7 := placed_const (q := (11, 5)) hc hf (by decide)
  rw [hw] at e6 e1 e11
  simp [decodeWord, decode16, e1, e6, e11]

theorem cSrli (d s : Nat) : Statement (.cSrli d s) := by
  intro hwf nbits word he
  obtain ⟨rfl, hw⟩ := of_word (b := placed 0x4000 [d, s] [(6, 5), (1, 5)]) he
  have hwf := of_decide_eq_true (p := d < 32 ∧ s < 32) hwf
  have hc : clear 0x4000 [(6, 5), (1, 5)] = true := by decide
  have hf : fits [d, s] [(6, 5), (1, 5)] := ⟨hwf.1, hwf.2, trivial⟩
  obtain ⟨e6, e1, -⟩ := placed_reads hc hf
  have e11 : field _ 11 5 = 8 := placed_const (q := (11, 5)) hc hf (by decide)
  rw [hw] at e6 e1 e11
  simp [decodeWord, decode16, e1, e6, e11]

theorem cSrai (d s : Nat) : Statement (.cSrai d s) := by
  intro hwf nbits word he
  obtain ⟨rfl, hw⟩ := of_word (b := placed 0x4800 [d, s] [(6, 5), (1, 5)]) he
  have hwf := of_decide_eq_true (p := d < 32 ∧ s < 32) hwf
  have hc : clear 0x4800 [(6, 5), (1, 5)] = true := by decide
  have hf : fits [d, s] [(6, 5), (1, 5)] := ⟨hwf.1, hwf.2, trivial⟩
  obtain ⟨e6, e1, -⟩ := placed_reads hc hf
  have e11 : field _ 11 5 = 9 := placed_const (q := (11, 5)) hc hf (by decide)
  rw [hw] at e6 e1 e11
  simp [decodeWord, decode16, e1, e6, e11]

theorem cLw (d s : Nat) : Statement (.cLw d s) := by
  intro hwf nbits word he
  obtain ⟨rfl, hw⟩ := of_word (b := placed 0x5000 [d, s] [(6, 5), (1, 5)]) he
  have hwf := of_decide_eq_true (p := d < 32 ∧ s < 32) hwf
  have hc : clear 0x5000 [(6, 5), (1, 5)] = true := by decide
  have hf : fits [d, s] [(6, 5), (1, 5)] := ⟨hwf.1, hwf.2, trivial⟩
  obtain ⟨e6, e1, -⟩ := placed_reads hc hf
  have e11 : field _ 11 5 = 10 := placed_const (q := (11, 5)) hc hf (by decide)
  rw [hw] at e6 e1 e11
  simp [decodeWord, decode16, e1, e6, e11]

theorem cSw (d s : Nat) : Statement (.cSw d s) := by
  intro hwf nbits word he
  obtain ⟨rfl, hw⟩ := of_word (b := placed 0x5800 [d, s] [(6, 5), (1, 5)]) he
  have hwf := of_decide_eq_true (p := d < 32 ∧ s < 32) hwf
  have hc : clear 0x5800 [(6, 5), (1, 5)] = true := by decide
  have hf : fits [d, s] [(6, 5), (1, 5)] := ⟨hwf.1, hwf.2, trivial⟩
  obtain ⟨e6, e1, -⟩ := placed_reads hc hf
  have e11 : field _ 11 5 = 11 := placed_const (q := (11, 5)) hc hf (by decide)
  rw [hw] at e6 e1 e11
  simp [decodeWord, decode16, e1, e6, e11]

theorem cBeqz (d o : Nat) : Statement (.cBeqz d o) := by
  intro hwf nbits word he
  obtain ⟨rfl, hw⟩ := of_word (b := placed 0x6000 [d, o] [(6, 5), (1, 5)]) he
  have hwf := of_decide_eq_true (p := d < 32 ∧ o < 32) hwf
  have hc : clear 0x6000 [(6, 5), (1, 5)] = true := by decide
  have hf : fits [d, o] [(6, 5), (1, 5)] := ⟨hwf.1, hwf.2, trivial⟩
  obtain ⟨e6, e1, -⟩ := placed_reads hc hf
  have e11 : field _ 11 5 = 12 := placed_const (q := (11, 5)) hc hf (by decide)
  rw [hw] at e6 e1 e11
  simp [decodeWord, decode16, e1, e6, e11]

theorem cBnez (d o : Nat) : Statement (.cBnez d o) := by
  intro hwf nbits word he
  obtain ⟨rfl, hw⟩ := of_word (b := placed 0x6800 [d, o] [(6, 5), (1, 5)]) he
  have hwf := of_decide_eq_true (p := d < 32 ∧ o < 32) hwf
  have hc : clear 0x6800 [(6, 5), (1, 5)] = true := by decide
  have hf : fits [d, o] [(6, 5), (1, 5)] := ⟨hwf.1, hwf.2, trivial⟩
  obtain ⟨e6, e1, -⟩ := placed_reads hc hf
  have e11 : field _ 11 5 = 13 := placed_const (q := (11, 5)) hc hf (by decide)
  rw [hw] at e6 e1 e11
  simp [decodeWord, decode16, e1, e6, e11]

theorem cJr (s : Nat) : Statement (.cJr s) := by
  intro hwf nbits word he
  obtain ⟨rfl, hw⟩ := of_word (b := placed 0x7000 [s] [(1, 5)]) he
  have hwf := of_decide_eq_true (p := s < 32) hwf
  have hc : clear 0x7000 [(1, 5)] = true := by decide
  have hf : fits [s] [(1, 5)] := ⟨hwf, trivial⟩
  obtain ⟨e1, -⟩ := placed_reads hc hf
  have e6 : field _ 6 5 = 0 := placed_const (q := (6, 5)) hc hf (by decide)
  have e11 : field _ 11 5 = 14 := placed_const (q := (11, 5)) hc hf (by decide)
  rw [hw] at e1 e6 e11
  simp [decodeWord, decode16, unlessReserved, e1, e6, e11]

theorem exti (n s i : Nat) : Statement (.exti n s i) := by
  intro hwf nbits word he
  obtain ⟨rfl, hw⟩ := of_word (b := placed 0xa8000001 [n, s, i] [(22, 3), (17, 2), (1, 16)]) he
  have hwf := of_decide_eq_true (p := n < 8 ∧ s < 4 ∧ i < 65536) hwf
  have hc : clear 0xa8000001 [(22, 3), (17, 2), (1, 16)] = true := by decide
  have hf : fits [n, s, i] [(22, 3), (17, 2), (1, 16)] := ⟨hwf.1, hwf.2.1, hwf.2.2, trivial⟩
  obtain ⟨e22, e17, e1, -⟩ := placed_reads hc hf
  have e19 : field _ 19 3 = 0 := placed_const (q := (19, 3)) hc hf (by decide)
  have e25 : field _ 25 2 = 0 := placed_const (q := (25, 2)) hc hf (by decide)
  have e27 : field _ 27 5 = 21 := placed_const (q := (27, 5)) hc hf (by decide)
  rw [hw] at e22 e17 e1 e19 e25 e27
  simp [decodeWord, decode32, decodeExt, unlessReserved, e1, e17, e19, e22, e25, e27]

theorem extr (n a : Nat) : Statement (.extr n a) := by
  intro hwf nbits word he
  obtain ⟨rfl, hw⟩ := of_word (b := placed 0xaa000001 [n, a] [(22, 3), (17, 5)]) he
  have hwf := of_decide_eq_true (p := n < 8 ∧ a < 32) hwf
  have hc : clear 0xaa000001 [(22, 3), (17, 5)] = true := by decide
  have hf : fits [n, a] [(22, 3), (17, 5)] := ⟨hwf.1, hwf.2, trivial⟩
  obtain ⟨e22, e17, -⟩ := placed_reads hc hf
  have e1 : field _ 1 16 = 0 := placed_const (q := (1, 16)) hc hf (by decide)
  have e25 : field _ 25 2 = 1 := placed_const (q := (25, 2)) hc hf (by decide)
  have e27 : field _ 27 5 = 21 := placed_const (q := (27, 5)) hc hf (by decide)
  rw [hw] at e22 e17 e1 e25 e27
  simp [decodeWord, decode32, decodeExt, unlessReserved, e1, e17, e22, e25, e27]

theorem ldfe (d a q : Nat) : Statement (.ldfe d a q) := by
  intro hwf nbits word he
  obtain ⟨rfl, hw⟩ := of_word (b := placed 0x78000001 [d, a, q] [(22, 5), (17, 5), (1, 3)]) he
  have hwf := of_decide_eq_true (p := d < 32 ∧ a < 32 ∧ q < 8 ∧ (q = 2 ∨ q = 3)) hwf
  have hc : clear 0x78000001 [(22, 5), (17, 5), (1, 3)] = true := by decide
  have hf : fits [d, a, q] [(22, 5), (17, 5), (1, 3)] := ⟨hwf.1, hwf.2.1, hwf.2.2.1, trivial⟩
  obtain ⟨e22, e17, e1, -⟩ := placed_reads hc hf
  have e4 : field _ 4 8 = 0 := placed_const (q := (4, 8)) hc hf (by decide)
  have e12 : field _ 12 5 = 0 := placed_const (q := (12, 5)) hc hf (by decide)
  have e27 : field _ 27 5 = 15 := placed_const (q := (27, 5)) hc hf (by decide)
  rw [hw] at e22 e17 e1 e4 e12 e27
  simp [decodeWord, decode32, decodeSyncMem, unlessReserved, e1, e4, e12, e17, e22, e27]
  omega

theorem ldf (d a q : Nat) : Statement (.ldf d a q) := by
  intro hwf nbits word he
  obtain ⟨rfl, hw⟩ := of_word (b := placed 0x78000011 [d, a, q] [(22, 5), (17, 5), (1, 3)]) he
  have hwf := of_decide_eq_true (p := d < 32 ∧ a < 32 ∧ q < 8 ∧ (q = 2 ∨ q = 3)) hwf
  have hc : clear 0x78000011 [(22, 5), (17, 5), (1, 3)] = true := by decide
  have hf : fits [d, a, q] [(22, 5), (17, 5), (1, 3)] := ⟨hwf.1, hwf.2.1, hwf.2.2.1, trivial⟩
  obtain ⟨e22, e17, e1, -⟩ := placed_reads hc hf
  have e4 : field _ 4 8 = 1 := placed_const (q := (4, 8)) hc hf (by decide)
  have e12 : field _ 12 5 = 0 := placed_const (q := (12, 5)) hc hf (by decide)
  have e27 : field _ 27 5 = 15 := placed_const (q := (27, 5)) hc hf (by decide)
  rw [hw] at e22 e17 e1 e4 e12 e27
  simp [decodeWord, decode32, decodeSyncMem, unlessReserved, e1, e4, e12, e17, e22, e27]
  omega

theorem stfe (d a q : Nat) : Statement (.stfe d a q) := by
  intro hwf nbits word he
  obtain ⟨rfl, hw⟩ := of_word (b := placed 0x78000021 [d, a, q] [(22, 5), (17, 5), (1, 3)]) he
  have hwf := of_decide_eq_true (p := d < 32 ∧ a < 32 ∧ q < 8 ∧ (q = 2 ∨ q = 3)) hwf
  have hc : clear 0x78000021 [(22, 5), (17, 5), (1, 3)] = true := by decide
  have hf : fits [d, a, q] [(22, 5), (17, 5), (1, 3)] := ⟨hwf.1, hwf.2.1, hwf.2.2.1, trivial⟩
  obtain ⟨e22, e17, e1, -⟩ := placed_reads hc hf
  have e4 : field _ 4 8 = 2 := placed_const (q := (4, 8)) hc hf (by decide)
  have e12 : field _ 12 5 = 0 := placed_const (q := (12, 5)) hc hf (by decide)
  have e27 : field _ 27 5 = 15 := placed_const (q := (27, 5)) hc hf (by decide)
  rw [hw] at e22 e17 e1 e4 e12 e27
  simp [decodeWord, decode32, decodeSyncMem, unlessReserved, e1, e4, e12, e17, e22, e27]
  omega

theorem stf (d a q : Nat) : Statement (.stf d a q) := by
  intro hwf nbits word he
  obtain ⟨rfl, hw⟩ := of_word (b := placed 0x78000031 [d, a, q] [(22, 5), (17, 5), (1, 3)]) he
  have hwf := of_decide_eq_true (p := d < 32 ∧ a < 32 ∧ q < 8 ∧ (q = 2 ∨ q = 3)) hwf
  have hc : clear 0x78000031 [(22, 5), (17, 5), (1, 3)] = true := by decide
  have hf : fits [d, a, q] [(22, 5), (17, 5), (1, 3)] := ⟨hwf.1, hwf.2.1, hwf.2.2.1, trivial⟩
  obtain ⟨e22, e17, e1, -⟩ := placed_reads hc hf
  have e4 : field _ 4 8 = 3 := placed_const (q := (4, 8)) hc hf (by decide)
  have e12 : field _ 12 5 = 0 := placed_const (q := (12, 5)) hc hf (by decide)
  have e27 : field _ 27 5 = 15 := placed_const (q := (27, 5)) hc hf (by decide)
  rw [hw] at e22 e17 e1 e4 e12 e27
  simp [decodeWord, decode32, decodeSyncMem, unlessReserved, e1, e4, e12, e17, e22, e27]
  omega

theorem feset (a s q : Nat) : Statement (.feset a s q) := by
  intro hwf nbits word he
  obtain ⟨rfl, hw⟩ := of_word (b := placed 0x78000041 [a, s, q] [(17, 5), (12, 2), (1, 3)]) he
  have hwf := of_decide_eq_true (p := a < 32 ∧ s < 4 ∧ q < 8 ∧ (q = 2 ∨ q = 3)) hwf
  have hc : clear 0x78000041 [(17, 5), (12, 2), (1, 3)] = true := by decide
  have hf : fits [a, s, q] [(17, 5), (12, 2), (1, 3)] := ⟨hwf.1, hwf.2.1, hwf.2.2.1, trivial⟩
  obtain ⟨e17, e12, e1, -⟩ := placed_reads hc hf
  have e4 : field _ 4 8 = 4 := placed_const (q := (4, 8)) hc hf (by decide)
  have e14 : field _ 14 3 = 0 := placed_const (q := (14, 3)) hc hf (by decide)
  have e22 : field _ 22 5 = 0 := placed_const (q := (22, 5)) hc hf (by decide)
  have e27 : field _ 27 5 = 15 := placed_const (q := (27, 5)) hc hf (by decide)
  rw [hw] at e17 e12 e1 e4 e14 e22 e27
  simp [decodeWord, decode32, decodeSyncMem, unlessReserved, e1, e4, e12, e14, e17, e22, e27]
  omega

theorem feq (d a : Nat) : Statement (.feq d a) := by
  intro hwf nbits word he
  obtain ⟨rfl, hw⟩ := of_word (b := placed 0x78000051 [d, a] [(22, 5), (17, 5)]) he
  have hwf := of_decide_eq_true (p := d < 32 ∧ a < 32) hwf
  have hc : clear 0x78000051 [(22, 5), (17, 5)] = true := by decide
  have hf : fits [d, a] [(22, 5), (17, 5)] := ⟨hwf.1, hwf.2, trivial⟩
  obtain ⟨e22, e17, -⟩ := placed_reads hc hf
  have e1 : field _ 1 3 = 0 := placed_const (q := (1, 3)) hc hf (by decide)
  have e4 : field _ 4 8 = 5 := placed_const (q := (4, 8)) hc hf (by decide)
  have e12 : field _ 12 5 = 0 := placed_const (q := (12, 5)) hc hf (by decide)
  have e27 : field _ 27 5 = 15 := placed_const (q := (27, 5)) hc hf (by decide)
  rw [hw] at e22 e17 e1 e4 e12 e27
  simp [decodeWord, decode32, decodeSyncMem, unlessReserved, e1, e4, e12, e17, e22, e27]

theorem feqTake (d a : Nat) : Statement (.feqTake d a) := by
  intro hwf nbits word he
  obtain ⟨rfl, hw⟩ := of_word (b := placed 0x78000053 [d, a] [(22, 5), (17, 5)]) he
  have hwf := of_decide_eq_true (p := d < 32 ∧ a < 32) hwf
  have hc : clear 0x78000053 [(22, 5), (17, 5)] = true := by decide
  have hf : fits [d, a] [(22, 5), (17, 5)] := ⟨hwf.1, hwf.2, trivial⟩
  obtain ⟨e22, e17, -⟩ := placed_reads hc hf
  have e1 : field _ 1 3 = 1 := placed_const (q := (1, 3)) hc hf (by decide)
  have e4 : field _ 4 8 = 5 := placed_const (q := (4, 8)) hc hf (by decide)
  have e12 : field _ 12 5 = 0 := placed_const (q := (12, 5)) hc hf (by decide)
  have e27 : field _ 27 5 = 15 := placed_const (q := (27, 5)) hc hf (by decide)
  rw [hw] at e22 e17 e1 e4 e12 e27
  simp [decodeWord, decode32, decodeSyncMem, unlessReserved, e1, e4, e12, e17, e22, e27]

theorem cas (d a b q : Nat) : Statement (.cas d a b q) := by
  intro hwf nbits word he
  obtain ⟨rfl, hw⟩ := of_word (b := placed 0x78000081 [d, a, b, q] [(22, 5), (17, 5), (12, 5), (1, 3)]) he
  have hwf := of_decide_eq_true (p := d < 32 ∧ a < 32 ∧ b < 32 ∧ q < 8 ∧ (q = 2 ∨ q = 3)) hwf
  have hc : clear 0x78000081 [(22, 5), (17, 5), (12, 5), (1, 3)] = true := by decide
  have hf : fits [d, a, b, q] [(22, 5), (17, 5), (12, 5), (1, 3)] := ⟨hwf.1, hwf.2.1, hwf.2.2.1, hwf.2.2.2.1, trivial⟩
  obtain ⟨e22, e17, e12, e1, -⟩ := placed_reads hc hf
  have e4 : field _ 4 8 = 8 := placed_const (q := (4, 8)) hc hf (by decide)
  have e27 : field _ 27 5 = 15 := placed_const (q := (27, 5)) hc hf (by decide)
  rw [hw] at e22 e17 e12 e1 e4 e27
  simp [decodeWord, decode32, decodeSyncMem, e1, e4, e12, e17, e22, e27]
  omega

theorem amoAdd (d a b q : Nat) : Statement (.amoAdd d a b q) := by
  intro hwf nbits word he
  obtain ⟨rfl, hw⟩ := of_word (b := placed 0x78000101 [d, a, b, q] [(22, 5), (17, 5), (12, 5), (1, 3)]) he
  have hwf := of_decide_eq_true (p := d < 32 ∧ a < 32 ∧ b < 32 ∧ q < 8 ∧ (q = 2 ∨ q = 3)) hwf
  have hc : clear 0x78000101 [(22, 5), (17, 5), (12, 5), (1, 3)] = true := by decide
  have hf : fits [d, a, b, q] [(22, 5), (17, 5), (12, 5), (1, 3)] := ⟨hwf.1, hwf.2.1, hwf.2.2.1, hwf.2.2.2.1, trivial⟩
  obtain ⟨e22, e17, e12, e1, -⟩ := placed_reads hc hf
  have e4 : field _ 4 8 = 16 := placed_const (q := (4, 8)) hc hf (by decide)
  have e27 : field _ 27 5 = 15 := placed_const (q := (27, 5)) hc hf (by decide)
  rw [hw] at e22 e17 e12 e1 e4 e27
  simp [decodeWord, decode32, decodeSyncMem, e1, e4, e12, e17, e22, e27]
  omega

theorem amoAnd (d a b q : Nat) : Statement (.amoAnd d a b q) := by
  intro hwf nbits word he
  obtain ⟨rfl, hw⟩ := of_word (b := placed 0x78000111 [d, a, b, q] [(22, 5), (17, 5), (12, 5), (1, 3)]) he
  have hwf := of_decide_eq_true (p := d < 32 ∧ a < 32 ∧ b < 32 ∧ q < 8 ∧ (q = 2 ∨ q = 3)) hwf
  have hc : clear 0x78000111 [(22, 5), (17, 5), (12, 5), (1, 3)] = true := by decide
  have hf : fits [d, a, b, q] [(22, 5), (17, 5), (12, 5), (1, 3)] := ⟨hwf.1, hwf.2.1, hwf.2.2.1, hwf.2.2.2.1, trivial⟩
  obtain ⟨e22, e17, e12, e1, -⟩ := placed_reads hc hf
  have e4 : field _ 4 8 = 17 := placed_const (q := (4, 8)) hc hf (by decide)
  have e27 : field _ 27 5 = 15 := placed_const (q := (27, 5)) hc hf (by decide)
  rw [hw] at e22 e17 e12 e1 e4 e27
  simp [decodeWord, decode32, decodeSyncMem, e1, e4, e12, e17, e22, e27]
  omega

theorem amoOr (d a b q : Nat) : Statement (.amoOr d a b q) := by
  intro hwf nbits word he
  obtain ⟨rfl, hw⟩ := of_word (b := placed 0x78000121 [d, a, b, q] [(22, 5), (17, 5), (12, 5), (1, 3)]) he
  have hwf := of_decide_eq_true (p := d < 32 ∧ a < 32 ∧ b < 32 ∧ q < 8 ∧ (q = 2 ∨ q = 3)) hwf
  have hc : clear 0x78000121 [(22, 5), (17, 5), (12, 5), (1, 3)] = true := by decide
  have hf : fits [d, a, b, q] [(22, 5), (17, 5), (12, 5), (1, 3)] := ⟨hwf.1, hwf.2.1, hwf.2.2.1, hwf.2.2.2.1, trivial⟩
  obtain ⟨e22, e17, e12, e1, -⟩ := placed_reads hc hf
  have e4 : field _ 4 8 = 18 := placed_const (q := (4, 8)) hc hf (by decide)
  have e27 : field _ 27 5 = 15 := placed_const (q := (27, 5)) hc hf (by decide)
  rw [hw] at e22 e17 e12 e1 e4 e27
  simp [decodeWord, decode32, decodeSyncMem, e1, e4, e12, e17, e22, e27]
  omega

theorem amoXor (d a b q : Nat) : Statement (.amoXor d a b q) := by
  intro hwf nbits word he
  obtain ⟨rfl, hw⟩ := of_word (b := placed 0x78000131 [d, a, b, q] [(22, 5), (17, 5), (12, 5), (1, 3)]) he
  have hwf := of_decide_eq_true (p := d < 32 ∧ a < 32 ∧ b < 32 ∧ q < 8 ∧ (q = 2 ∨ q = 3)) hwf
  have hc : clear 0x78000131 [(22, 5), (17, 5), (12, 5), (1, 3)] = true := by decide
  have hf : fits [d, a, b, q] [(22, 5), (17, 5), (12, 5), (1, 3)] := ⟨hwf.1, hwf.2.1, hwf.2.2.1, hwf.2.2.2.1, trivial⟩
  obtain ⟨e22, e17, e12, e1, -⟩ := placed_reads hc hf
  have e4 : field _ 4 8 = 19 := placed_const (q := (4, 8)) hc hf (by decide)
  have e27 : field _ 27 5 = 15 := placed_const (q := (27, 5)) hc hf (by decide)
  rw [hw] at e22 e17 e12 e1 e4 e27
  simp [decodeWord, decode32, decodeSyncMem, e1, e4, e12, e17, e22, e27]
  omega

theorem amoMin (d a b q : Nat) : Statement (.amoMin d a b q) := by
  intro hwf nbits word he
  obtain ⟨rfl, hw⟩ := of_word (b := placed 0x78000141 [d, a, b, q] [(22, 5), (17, 5), (12, 5), (1, 3)]) he
  have hwf := of_decide_eq_true (p := d < 32 ∧ a < 32 ∧ b < 32 ∧ q < 8 ∧ (q = 2 ∨ q = 3)) hwf
  have hc : clear 0x78000141 [(22, 5), (17, 5), (12, 5), (1, 3)] = true := by decide
  have hf : fits [d, a, b, q] [(22, 5), (17, 5), (12, 5), (1, 3)] := ⟨hwf.1, hwf.2.1, hwf.2.2.1, hwf.2.2.2.1, trivial⟩
  obtain ⟨e22, e17, e12, e1, -⟩ := placed_reads hc hf
  have e4 : field _ 4 8 = 20 := placed_const (q := (4, 8)) hc hf (by decide)
  have e27 : field _ 27 5 = 15 := placed_const (q := (27, 5)) hc hf (by decide)
  rw [hw] at e22 e17 e12 e1 e4 e27
  simp [decodeWord, decode32, decodeSyncMem, e1, e4, e12, e17, e22, e27]
  omega

theorem amoMax (d a b q : Nat) : Statement (.amoMax d a b q) := by
  intro hwf nbits word he
  obtain ⟨rfl, hw⟩ := of_word (b := placed 0x78000151 [d, a, b, q] [(22, 5), (17, 5), (12, 5), (1, 3)]) he
  have hwf := of_decide_eq_true (p := d < 32 ∧ a < 32 ∧ b < 32 ∧ q < 8 ∧ (q = 2 ∨ q = 3)) hwf
  have hc : clear 0x78000151 [(22, 5), (17, 5), (12, 5), (1, 3)] = true := by decide
  have hf : fits [d, a, b, q] [(22, 5), (17, 5), (12, 5), (1, 3)] := ⟨hwf.1, hwf.2.1, hwf.2.2.1, hwf.2.2.2.1, trivial⟩
  obtain ⟨e22, e17, e12, e1, -⟩ := placed_reads hc hf
  have e4 : field _ 4 8 = 21 := placed_const (q := (4, 8)) hc hf (by decide)
  have e27 : field _ 27 5 = 15 := placed_const (q := (27, 5)) hc hf (by decide)
  rw [hw] at e22 e17 e12 e1 e4 e27
  simp [decodeWord, decode32, decodeSyncMem, e1, e4, e12, e17, e22, e27]
  omega

theorem amoMinn (d a b q : Nat) : Statement (.amoMinn d a b q) := by
  intro hwf nbits word he
  obtain ⟨rfl, hw⟩ := of_word (b := placed 0x78000161 [d, a, b, q] [(22, 5), (17, 5), (12, 5), (1, 3)]) he
  have hwf := of_decide_eq_true (p := d < 32 ∧ a < 32 ∧ b < 32 ∧ q < 8 ∧ (q = 2 ∨ q = 3)) hwf
  have hc : clear 0x78000161 [(22, 5), (17, 5), (12, 5), (1, 3)] = true := by decide
  have hf : fits [d, a, b, q] [(22, 5), (17, 5), (12, 5), (1, 3)] := ⟨hwf.1, hwf.2.1, hwf.2.2.1, hwf.2.2.2.1, trivial⟩
  obtain ⟨e22, e17, e12, e1, -⟩ := placed_reads hc hf
  have e4 : field _ 4 8 = 22 := placed_const (q := (4, 8)) hc hf (by decide)
  have e27 : field _ 27 5 = 15 := placed_const (q := (27, 5)) hc hf (by decide)
  rw [hw] at e22 e17 e12 e1 e4 e27
  simp [decodeWord, decode32, decodeSyncMem, e1, e4, e12, e17, e22, e27]
  omega

theorem amoMaxn (d a b q : Nat) : Statement (.amoMaxn d a b q) := by
  intro hwf nbits word he
  obtain ⟨rfl, hw⟩ := of_word (b := placed 0x78000171 [d, a, b, q] [(22, 5), (17, 5), (12, 5), (1, 3)]) he
  have hwf := of_decide_eq_true (p := d < 32 ∧ a < 32 ∧ b < 32 ∧ q < 8 ∧ (q = 2 ∨ q = 3)) hwf
  have hc : clear 0x78000171 [(22, 5), (17, 5), (12, 5), (1, 3)] = true := by decide
  have hf : fits [d, a, b, q] [(22, 5), (17, 5), (12, 5), (1, 3)] := ⟨hwf.1, hwf.2.1, hwf.2.2.1, hwf.2.2.2.1, trivial⟩
  obtain ⟨e22, e17, e12, e1, -⟩ := placed_reads hc hf
  have e4 : field _ 4 8 = 23 := placed_const (q := (4, 8)) hc hf (by decide)
  have e27 : field _ 27 5 = 15 := placed_const (q := (27, 5)) hc hf (by decide)
  rw [hw] at e22 e17 e12 e1 e4 e27
  simp [decodeWord, decode32, decodeSyncMem, e1, e4, e12, e17, e22, e27]
  omega

theorem amoSwap (d a b q : Nat) : Statement (.amoSwap d a b q) := by
  intro hwf nbits word he
  obtain ⟨rfl, hw⟩ := of_word (b := placed 0x78000181 [d, a, b, q] [(22, 5), (17, 5), (12, 5), (1, 3)]) he
  have hwf := of_decide_eq_true (p := d < 32 ∧ a < 32 ∧ b < 32 ∧ q < 8 ∧ (q = 2 ∨ q = 3)) hwf
  have hc : clear 0x78000181 [(22, 5), (17, 5), (12, 5), (1, 3)] = true := by decide
  have hf : fits [d, a, b, q] [(22, 5), (17, 5), (12, 5), (1, 3)] := ⟨hwf.1, hwf.2.1, hwf.2.2.1, hwf.2.2.2.1, trivial⟩
  obtain ⟨e22, e17, e12, e1, -⟩ := placed_reads hc hf
  have e4 : field _ 4 8 = 24 := placed_const (q := (4, 8)) hc hf (by decide)
  have e27 : field _ 27 5 = 15 := placed_const (q := (27, 5)) hc hf (by decide)
  rw [hw] at e22 e17 e12 e1 e4 e27
  simp [decodeWord, decode32, decodeSyncMem, e1, e4, e12, e17, e22, e27]
  omega

theorem vintVadd (d a b t q : Nat) : Statement (.vintVadd d a b t q) := by
  intro hwf nbits word he
  obtain ⟨rfl, hw⟩ := of_word (b := placed 0x80000001 [d, a, b, t, q] [(22, 5), (17, 5), (12, 5), (4, 4), (1, 3)]) he
  have hwf := of_decide_eq_true (p := d < 32 ∧ a < 32 ∧ b < 32 ∧ t < 16 ∧ q < 8 ∧ t < 8) hwf
  have hc : clear 0x80000001 [(22, 5), (17, 5), (12, 5), (4, 4), (1, 3)] = true := by decide
  have hf : fits [d, a, b, t, q] [(22, 5), (17, 5), (12, 5), (4, 4), (1, 3)] := ⟨hwf.1, hwf.2.1, hwf.2.2.1, hwf.2.2.2.1, hwf.2.2.2.2.1, trivial⟩
  obtain ⟨e22, e17, e12, e4, e1, -⟩ := placed_reads hc hf
  have e8 : field _ 8 4 = 0 := placed_const (q := (8, 4)) hc hf (by decide)
  have e27 : field _ 27 5 = 16 := placed_const (q := (27, 5)) hc hf (by decide)
  rw [hw] at e22 e17 e12 e4 e1 e8 e27
  simp [decodeWord, decode32, decodeVInt, e1, e4, e8, e12, e17, e22, e27]
  omega

theorem vintVsub (d a b t q : Nat) : Statement (.vintVsub d a b t q) := by
  intro hwf nbits word he
  obtain ⟨rfl, hw⟩ := of_word (b := placed 0x80000101 [d, a, b, t, q] [(22, 5), (17, 5), (12, 5), (4, 4), (1, 3)]) he
  have hwf := of_decide_eq_true (p := d < 32 ∧ a < 32 ∧ b < 32 ∧ t < 16 ∧ q < 8 ∧ t < 8) hwf
  have hc : clear 0x80000101 [(22, 5), (17, 5), (12, 5), (4, 4), (1, 3)] = true := by decide
  have hf : fits [d, a, b, t, q] [(22, 5), (17, 5), (12, 5), (4, 4), (1, 3)] := ⟨hwf.1, hwf.2.1, hwf.2.2.1, hwf.2.2.2.1, hwf.2.2.2.2.1, trivial⟩
  obtain ⟨e22, e17, e12, e4, e1, -⟩ := placed_reads hc hf
  have e8 : field _ 8 4 = 1 := placed_const (q := (8, 4)) hc hf (by decide)
  have e27 : field _ 27 5 = 16 := placed_const (q := (27, 5)) hc hf (by decide)
  rw [hw] at e22 e17 e12 e4 e1 e8 e27
  simp [decodeWord, decode32, decodeVInt, e1, e4, e8, e12, e17, e22, e27]
  omega

theorem vintVmul (d a b t q : Nat) : Statement (.vintVmul d a b t q) := by
  intro hwf nbits word he
  obtain ⟨rfl, hw⟩ := of_word (b := placed 0x80000201 [d, a, b, t, q] [(22, 5), (17, 5), (12, 5), (4, 4), (1, 3)]) he
  have hwf := of_decide_eq_true (p := d < 32 ∧ a < 32 ∧ b < 32 ∧ t < 16 ∧ q < 8 ∧ t < 8) hwf
  have hc : clear 0x80000201 [(22, 5), (17, 5), (12, 5), (4, 4), (1, 3)] = true := by decide
  have hf : fits [d, a, b, t, q] [(22, 5), (17, 5), (12, 5), (4, 4), (1, 3)] := ⟨hwf.1, hwf.2.1, hwf.2.2.1, hwf.2.2.2.1, hwf.2.2.2.2.1, trivial⟩
  obtain ⟨e22, e17, e12, e4, e1, -⟩ := placed_reads hc hf
  have e8 : field _ 8 4 = 2 := placed_const (q := (8, 4)) hc hf (by decide)
  have e27 : field _ 27 5 = 16 := placed_const (q := (27, 5)) hc hf (by decide)
  rw [hw] at e22 e17 e12 e4 e1 e8 e27
  simp [decodeWord, decode32, decodeVInt, e1, e4, e8, e12, e17, e22, e27]
  omega

theorem vintVmin (d a b t q : Nat) : Statement (.vintVmin d a b t q) := by
  intro hwf nbits word he
  obtain ⟨rfl, hw⟩ := of_word (b := placed 0x80000301 [d, a, b, t, q] [(22, 5), (17, 5), (12, 5), (4, 4), (1, 3)]) he
  have hwf := of_decide_eq_true (p := d < 32 ∧ a < 32 ∧ b < 32 ∧ t < 16 ∧ q < 8 ∧ t < 8) hwf
  have hc : clear 0x80000301 [(22, 5), (17, 5), (12, 5), (4, 4), (1, 3)] = true := by decide
  have hf : fits [d, a, b, t, q] [(22, 5), (17, 5), (12, 5), (4, 4), (1, 3)] := ⟨hwf.1, hwf.2.1, hwf.2.2.1, hwf.2.2.2.1, hwf.2.2.2.2.1, trivial⟩
  obtain ⟨e22, e17, e12, e4, e1, -⟩ := placed_reads hc hf
  have e8 : field _ 8 4 = 3 := placed_const (q := (8, 4)) hc hf (by decide)
  have e27 : field _ 27 5 = 16 := placed_const (q := (27, 5)) hc hf (by decide)
  rw [hw] at e22 e17 e12 e4 e1 e8 e27
  simp [decodeWord, decode32, decodeVInt, e1, e4, e8, e12, e17, e22, e27]
  omega

theorem vintVmax (d a b t q : Nat) : Statement (.vintVmax d a b t q) := by
  intro hwf nbits word he
  obtain ⟨rfl, hw⟩ := of_word (b := placed 0x80000401 [d, a, b, t, q] [(22, 5), (17, 5), (12, 5), (4, 4), (1, 3)]) he
  have hwf := of_decide_eq_true (p := d < 32 ∧ a < 32 ∧ b < 32 ∧ t < 16 ∧ q < 8 ∧ t < 8) hwf
  have hc : clear 0x80000401 [(22, 5), (17, 5), (12, 5), (4, 4), (1, 3)] = true := by decide
  have hf : fits [d, a, b, t, q] [(22, 5), (17, 5), (12, 5), (4, 4), (1, 3)] := ⟨hwf.1, hwf.2.1, hwf.2.2.1, hwf.2.2.2.1, hwf.2.2.2.2.1, trivial⟩
  obtain ⟨e22, e17, e12, e4, e1, -⟩ := placed_reads hc hf
  have e8 : field _ 8 4 = 4 := placed_const (q := (8, 4)) hc hf (by decide)
  have e27 : field _ 27 5 = 16 := placed_const (q := (27, 5)) hc hf (by decide)
  rw [hw] at e22 e17 e12 e4 e1 e8 e27
  simp [decodeWord, decode32, decodeVInt, e1, e4, e8, e12, e17, e22, e27]
  omega

theorem vintVabs (d a t q : Nat) : Statement (.vintVabs d a t q) := by
  intro hwf nbits word he
  obtain ⟨rfl, hw⟩ := of_word (b := placed 0x80000501 [d, a, t, q] [(22, 5), (17, 5), (4, 4), (1, 3)]) he
  have hwf := of_decide_eq_true (p := d < 32 ∧ a < 32 ∧ t < 16 ∧ q < 8 ∧ t < 4) hwf
  have hc : clear 0x80000501 [(22, 5), (17, 5), (4, 4), (1, 3)] = true := by decide
  have hf : fits [d, a, t, q] [(22, 5), (17, 5), (4, 4), (1, 3)] := ⟨hwf.1, hwf.2.1, hwf.2.2.1, hwf.2.2.2.1, trivial⟩
  obtain ⟨e22, e17, e4, e1, -⟩ := placed_reads hc hf
  have e8 : field _ 8 4 = 5 := placed_const (q := (8, 4)) hc hf (by decide)
  have e12 : field _ 12 5 = 0 := placed_const (q := (12, 5)) hc hf (by decide)
  have e27 : field _ 27 5 = 16 := placed_const (q := (27, 5)) hc hf (by decide)
  rw [hw] at e22 e17 e4 e1 e8 e12 e27
  simp [decodeWord, decode32, decodeVInt, unlessReserved, e1, e4, e8, e12, e17, e22, e27]
  omega

theorem vintVneg (d a t q : Nat) : Statement (.vintVneg d a t q) := by
  intro hwf nbits word he
  obtain ⟨rfl, hw⟩ := of_word (b := placed 0x80000601 [d, a, t, q] [(22, 5), (17, 5), (4, 4), (1, 3)]) he
  have hwf := of_decide_eq_true (p := d < 32 ∧ a < 32 ∧ t < 16 ∧ q < 8 ∧ t < 4) hwf
  have hc : clear 0x80000601 [(22, 5), (17, 5), (4, 4), (1, 3)] = true := by decide
  have hf : fits [d, a, t, q] [(22, 5), (17, 5), (4, 4), (1, 3)] := ⟨hwf.1, hwf.2.1, hwf.2.2.1, hwf.2.2.2.1, trivial⟩
  obtain ⟨e22, e17, e4, e1, -⟩ := placed_reads hc hf
  have e8 : field _ 8 4 = 6 := placed_const (q := (8, 4)) hc hf (by decide)
  have e12 : field _ 12 5 = 0 := placed_const (q := (12, 5)) hc hf (by decide)
  have e27 : field _ 27 5 = 16 := placed_const (q := (27, 5)) hc hf (by decide)
  rw [hw] at e22 e17 e4 e1 e8 e12 e27
  simp [decodeWord, decode32, decodeVInt, unlessReserved, e1, e4, e8, e12, e17, e22, e27]
  omega

theorem vintVand (d a b t q : Nat) : Statement (.vintVand d a b t q) := by
  intro hwf nbits word he
  obtain ⟨rfl, hw⟩ := of_word (b := placed 0x80000701 [d, a, b, t, q] [(22, 5), (17, 5), (12, 5), (4, 4), (1, 3)]) he
  have hwf := of_decide_eq_true (p := d < 32 ∧ a < 32 ∧ b < 32 ∧ t < 16 ∧ q < 8 ∧ t < 8) hwf
  have hc : clear 0x80000701 [(22, 5), (17, 5), (12, 5), (4, 4), (1, 3)] = true := by decide
  have hf : fits [d, a, b, t, q] [(22, 5), (17, 5), (12, 5), (4, 4), (1, 3)] := ⟨hwf.1, hwf.2.1, hwf.2.2.1, hwf.2.2.2.1, hwf.2.2.2.2.1, trivial⟩
  obtain ⟨e22, e17, e12, e4, e1, -⟩ := placed_reads hc hf
  have e8 : field _ 8 4 = 7 := placed_const (q := (8, 4)) hc hf (by decide)
  have e27 : field _ 27 5 = 16 := placed_const (q := (27, 5)) hc hf (by decide)
  rw [hw] at e22 e17 e12 e4 e1 e8 e27
  simp [decodeWord, decode32, decodeVInt, e1, e4, e8, e12, e17, e22, e27]
  omega

theorem vintVor (d a b t q : Nat) : Statement (.vintVor d a b t q) := by
  intro hwf nbits word he
  obtain ⟨rfl, hw⟩ := of_word (b := placed 0x80000801 [d, a, b, t, q] [(22, 5), (17, 5), (12, 5), (4, 4), (1, 3)]) he
  have hwf := of_decide_eq_true (p := d < 32 ∧ a < 32 ∧ b < 32 ∧ t < 16 ∧ q < 8 ∧ t < 8) hwf
  have hc : clear 0x80000801 [(22, 5), (17, 5), (12, 5), (4, 4), (1, 3)] = true := by decide
  have hf : fits [d, a, b, t, q] [(22, 5), (17, 5), (12, 5), (4, 4), (1, 3)] := ⟨hwf.1, hwf.2.1, hwf.2.2.1, hwf.2.2.2.1, hwf.2.2.2.2.1, trivial⟩
  obtain ⟨e22, e17, e12, e4, e1, -⟩ := placed_reads hc hf
  have e8 : field _ 8 4 = 8 := placed_const (q := (8, 4)) hc hf (by decide)
  have e27 : field _ 27 5 = 16 := placed_const (q := (27, 5)) hc hf (by decide)
  rw [hw] at e22 e17 e12 e4 e1 e8 e27
  simp [decodeWord, decode32, decodeVInt, e1, e4, e8, e12, e17, e22, e27]
  omega

theorem vintVxor (d a b t q : Nat) : Statement (.vintVxor d a b t q) := by
  intro hwf nbits word he
  obtain ⟨rfl, hw⟩ := of_word (b := placed 0x80000901 [d, a, b, t, q] [(22, 5), (17, 5), (12, 5), (4, 4), (1, 3)]) he
  have hwf := of_decide_eq_true (p := d < 32 ∧ a < 32 ∧ b < 32 ∧ t < 16 ∧ q < 8 ∧ t < 8) hwf
  have hc : clear 0x80000901 [(22, 5), (17, 5), (12, 5), (4, 4), (1, 3)] = true := by decide
  have hf : fits [d, a, b, t, q] [(22, 5), (17, 5), (12, 5), (4, 4), (1, 3)] := ⟨hwf.1, hwf.2.1, hwf.2.2.1, hwf.2.2.2.1, hwf.2.2.2.2.1, trivial⟩
  obtain ⟨e22, e17, e12, e4, e1, -⟩ := placed_reads hc hf
  have e8 : field _ 8 4 = 9 := placed_const (q := (8, 4)) hc hf (by decide)
  have e27 : field _ 27 5 = 16 := placed_const (q := (27, 5)) hc hf (by decide)
  rw [hw] at e22 e17 e12 e4 e1 e8 e27
  simp [decodeWord, decode32, decodeVInt, e1, e4, e8, e12, e17, e22, e27]
  omega

theorem vintVshl (d a b t q : Nat) : Statement (.vintVshl d a b t q) := by
  intro hwf nbits word he
  obtain ⟨rfl, hw⟩ := of_word (b := placed 0x80000a01 [d, a, b, t, q] [(22, 5), (17, 5), (12, 5), (4, 4), (1, 3)]) he
  have hwf := of_decide_eq_true (p := d < 32 ∧ a < 32 ∧ b < 32 ∧ t < 16 ∧ q < 8 ∧ t < 8) hwf
  have hc : clear 0x80000a01 [(22, 5), (17, 5), (12, 5), (4, 4), (1, 3)] = true := by decide
  have hf : fits [d, a, b, t, q] [(22, 5), (17, 5), (12, 5), (4, 4), (1, 3)] := ⟨hwf.1, hwf.2.1, hwf.2.2.1, hwf.2.2.2.1, hwf.2.2.2.2.1, trivial⟩
  obtain ⟨e22, e17, e12, e4, e1, -⟩ := placed_reads hc hf
  have e8 : field _ 8 4 = 10 := placed_const (q := (8, 4)) hc hf (by decide)
  have e27 : field _ 27 5 = 16 := placed_const (q := (27, 5)) hc hf (by decide)
  rw [hw] at e22 e17 e12 e4 e1 e8 e27
  simp [decodeWord, decode32, decodeVInt, e1, e4, e8, e12, e17, e22, e27]
  omega

theorem vintVshr (d a b t q : Nat) : Statement (.vintVshr d a b t q) := by
  intro hwf nbits word he
  obtain ⟨rfl, hw⟩ := of_word (b := placed 0x80000b01 [d, a, b, t, q] [(22, 5), (17, 5), (12, 5), (4, 4), (1, 3)]) he
  have hwf := of_decide_eq_true (p := d < 32 ∧ a < 32 ∧ b < 32 ∧ t < 16 ∧ q < 8 ∧ t < 8) hwf
  have hc : clear 0x80000b01 [(22, 5), (17, 5), (12, 5), (4, 4), (1, 3)] = true := by decide
  have hf : fits [d, a, b, t, q] [(22, 5), (17, 5), (12, 5), (4, 4), (1, 3)] := ⟨hwf.1, hwf.2.1, hwf.2.2.1, hwf.2.2.2.1, hwf.2.2.2.2.1, trivial⟩
  obtain ⟨e22, e17, e12, e4, e1, -⟩ := placed_reads hc hf
  have e8 : field _ 8 4 = 11 := placed_const (q := (8, 4)) hc hf (by decide)
  have e27 : field _ 27 5 = 16 := placed_const (q := (27, 5)) hc hf (by decide)
  rw [hw] at e22 e17 e12 e4 e1 e8 e27
  simp [decodeWord, decode32, decodeVInt, e1, e4, e8, e12, e17, e22, e27]
  omega

theorem vintVcmp (c p a b t q : Nat) : Statement (.vintVcmp c p a b t q) := by
  intro hwf nbits word he
  obtain ⟨rfl, hw⟩ := of_word (b := placed 0x80000c01 [c, p, a, b, t, q] [(25, 2), (22, 3), (17, 5), (12, 5), (4, 4), (1, 3)]) he
  have hwf := of_decide_eq_true (p := c < 4 ∧ p < 8 ∧ a < 32 ∧ b < 32 ∧ t < 16 ∧ q < 8 ∧ t < 8) hwf
  have hc : clear 0x80000c01 [(25, 2), (22, 3), (17, 5), (12, 5), (4, 4), (1, 3)] = true := by decide
  have hf : fits [c, p, a, b, t, q] [(25, 2), (22, 3), (17, 5), (12, 5), (4, 4), (1, 3)] := ⟨hwf.1, hwf.2.1, hwf.2.2.1, hwf.2.2.2.1, hwf.2.2.2.2.1, hwf.2.2.2.2.2.1, trivial⟩
  obtain ⟨e25, e22, e17, e12, e4, e1, -⟩ := placed_reads hc hf
  have e8 : field _ 8 4 = 12 := placed_const (q := (8, 4)) hc hf (by decide)
  have e27 : field _ 27 5 = 16 := placed_const (q := (27, 5)) hc hf (by decide)
  rw [hw] at e25 e22 e17 e12 e4 e1 e8 e27
  simp [decodeWord, decode32, decodeVInt, e1, e4, e8, e12, e17, e22, e25, e27]
  omega

theorem vintVred (d a k t q : Nat) : Statement (.vintVred d a k t q) := by
  intro hwf nbits word he
  obtain ⟨rfl, hw⟩ := of_word (b := placed 0x80000d01 [d, a, k, t, q] [(22, 5), (17, 5), (12, 5), (4, 4), (1, 3)]) he
  have hwf := of_decide_eq_true (p := d < 32 ∧ a < 32 ∧ k < 32 ∧ t < 16 ∧ q < 8 ∧ t < 8 ∧ k < 6) hwf
  have hc : clear 0x80000d01 [(22, 5), (17, 5), (12, 5), (4, 4), (1, 3)] = true := by decide
  have hf : fits [d, a, k, t, q] [(22, 5), (17, 5), (12, 5), (4, 4), (1, 3)] := ⟨hwf.1, hwf.2.1, hwf.2.2.1, hwf.2.2.2.1, hwf.2.2.2.2.1, trivial⟩
  obtain ⟨e22, e17, e12, e4, e1, -⟩ := placed_reads hc hf
  have e8 : field _ 8 4 = 13 := placed_const (q := (8, 4)) hc hf (by decide)
  have e27 : field _ 27 5 = 16 := placed_const (q := (27, 5)) hc hf (by decide)
  rw [hw] at e22 e17 e12 e4 e1 e8 e27
  simp [decodeWord, decode32, decodeVInt, e1, e4, e8, e12, e17, e22, e27]
  omega

theorem vdot4 (d a b t q : Nat) : Statement (.vdot4 d a b t q) := by
  intro hwf nbits word he
  obtain ⟨rfl, hw⟩ := of_word (b := placed 0x80000e01 [d, a, b, t, q] [(22, 5), (17, 5), (12, 5), (4, 4), (1, 3)]) he
  have hwf := of_decide_eq_true (p := d < 32 ∧ a < 32 ∧ b < 32 ∧ t < 16 ∧ q < 8 ∧ (t = 0 ∨ t = 1 ∨ t = 4 ∨ t = 5)) hwf
  have hc : clear 0x80000e01 [(22, 5), (17, 5), (12, 5), (4, 4), (1, 3)] = true := by decide
  have hf : fits [d, a, b, t, q] [(22, 5), (17, 5), (12, 5), (4, 4), (1, 3)] := ⟨hwf.1, hwf.2.1, hwf.2.2.1, hwf.2.2.2.1, hwf.2.2.2.2.1, trivial⟩
  obtain ⟨e22, e17, e12, e4, e1, -⟩ := placed_reads hc hf
  have e8 : field _ 8 4 = 14 := placed_const (q := (8, 4)) hc hf (by decide)
  have e27 : field _ 27 5 = 16 := placed_const (q := (27, 5)) hc hf (by decide)
  rw [hw] at e22 e17 e12 e4 e1 e8 e27
  simp [decodeWord, decode32, decodeVInt, e1, e4, e8, e12, e17, e22, e27]
  omega

theorem vfltVadd (d a b t q : Nat) : Statement (.vfltVadd d a b t q) := by
  intro hwf nbits word he
  obtain ⟨rfl, hw⟩ := of_word (b := placed 0x88000001 [d, a, b, t, q] [(22, 5), (17, 5), (12, 5), (4, 4), (1, 3)]) he
  have hwf := of_decide_eq_true (p := d < 32 ∧ a < 32 ∧ b < 32 ∧ t < 16 ∧ q < 8 ∧ 8 ≤ t ∧ t < 12) hwf
  have hc : clear 0x88000001 [(22, 5), (17, 5), (12, 5), (4, 4), (1, 3)] = true := by decide
  have hf : fits [d, a, b, t, q] [(22, 5), (17, 5), (12, 5), (4, 4), (1, 3)] := ⟨hwf.1, hwf.2.1, hwf.2.2.1, hwf.2.2.2.1, hwf.2.2.2.2.1, trivial⟩
  obtain ⟨e22, e17, e12, e4, e1, -⟩ := placed_reads hc hf
  have e8 : field _ 8 4 = 0 := placed_const (q := (8, 4)) hc hf (by decide)
  have e27 : field _ 27 5 = 17 := placed_const (q := (27, 5)) hc hf (by decide)
  rw [hw] at e22 e17 e12 e4 e1 e8 e27
  simp [decodeWord, decode32, decodeVFlt, e1, e4, e8, e12, e17, e22, e27]
  omega

theorem vfltVsub (d a b t q : Nat) : Statement (.vfltVsub d a b t q) := by
  intro hwf nbits word he
  obtain ⟨rfl, hw⟩ := of_word (b := placed 0x88000101 [d, a, b, t, q] [(22, 5), (17, 5), (12, 5), (4, 4), (1, 3)]) he
  have hwf := of_decide_eq_true (p := d < 32 ∧ a < 32 ∧ b < 32 ∧ t < 16 ∧ q < 8 ∧ 8 ≤ t ∧ t < 12) hwf
  have hc : clear 0x88000101 [(22, 5), (17, 5), (12, 5), (4, 4), (1, 3)] = true := by decide
  have hf : fits [d, a, b, t, q] [(22, 5), (17, 5), (12, 5), (4, 4), (1, 3)] := ⟨hwf.1, hwf.2.1, hwf.2.2.1, hwf.2.2.2.1, hwf.2.2.2.2.1, trivial⟩
  obtain ⟨e22, e17, e12, e4, e1, -⟩ := placed_reads hc hf
  have e8 : field _ 8 4 = 1 := placed_const (q := (8, 4)) hc hf (by decide)
  have e27 : field _ 27 5 = 17 := placed_const (q := (27, 5)) hc hf (by decide)
  rw [hw] at e22 e17 e12 e4 e1 e8 e27
  simp [decodeWord, decode32, decodeVFlt, e1, e4, e8, e12, e17, e22, e27]
  omega

theorem vfltVmul (d a b t q : Nat) : Statement (.vfltVmul d a b t q) := by
  intro hwf nbits word he
  obtain ⟨rfl, hw⟩ := of_word (b := placed 0x88000201 [d, a, b, t, q] [(22, 5), (17, 5), (12, 5), (4, 4), (1, 3)]) he
  have hwf := of_decide_eq_true (p := d < 32 ∧ a < 32 ∧ b < 32 ∧ t < 16 ∧ q < 8 ∧ 8 ≤ t ∧ t < 12) hwf
  have hc : clear 0x88000201 [(22, 5), (17, 5), (12, 5), (4, 4), (1, 3)] = true := by decide
  have hf : fits [d, a, b, t, q] [(22, 5), (17, 5), (12, 5), (4, 4), (1, 3)] := ⟨hwf.1, hwf.2.1, hwf.2.2.1, hwf.2.2.2.1, hwf.2.2.2.2.1, trivial⟩
  obtain ⟨e22, e17, e12, e4, e1, -⟩ := placed_reads hc hf
  have e8 : field _ 8 4 = 2 := placed_const (q := (8, 4)) hc hf (by decide)
  have e27 : field _ 27 5 = 17 := placed_const (q := (27, 5)) hc hf (by decide)
  rw [hw] at e22 e17 e12 e4 e1 e8 e27
  simp [decodeWord, decode32, decodeVFlt, e1, e4, e8, e12, e17, e22, e27]
  omega

theorem vfltVmin (d a b t q : Nat) : Statement (.vfltVmin d a b t q) := by
  intro hwf nbits word he
  obtain ⟨rfl, hw⟩ := of_word (b := placed 0x88000301 [d, a, b, t, q] [(22, 5), (17, 5), (12, 5), (4, 4), (1, 3)]) he
  have hwf := of_decide_eq_true (p := d < 32 ∧ a < 32 ∧ b < 32 ∧ t < 16 ∧ q < 8 ∧ 8 ≤ t ∧ t < 12) hwf
  have hc : clear 0x88000301 [(22, 5), (17, 5), (12, 5), (4, 4), (1, 3)] = true := by decide
  have hf : fits [d, a, b, t, q] [(22, 5), (17, 5), (12, 5), (4, 4), (1, 3)] := ⟨hwf.1, hwf.2.1, hwf.2.2.1, hwf.2.2.2.1, hwf.2.2.2.2.1, trivial⟩
  obtain ⟨e22, e17, e12, e4, e1, -⟩ := placed_reads hc hf
  have e8 : field _ 8 4 = 3 := placed_const (q := (8, 4)) hc hf (by decide)
  have e27 : field _ 27 5 = 17 := placed_const (q := (27, 5)) hc hf (by decide)
  rw [hw] at e22 e17 e12 e4 e1 e8 e27
  simp [decodeWord, decode32, decodeVFlt, e1, e4, e8, e12, e17, e22, e27]
  omega

theorem vfltVmax (d a b t q : Nat) : Statement (.vfltVmax d a b t q) := by
  intro hwf nbits word he
  obtain ⟨rfl, hw⟩ := of_word (b := placed 0x88000401 [d, a, b, t, q] [(22, 5), (17, 5), (12, 5), (4, 4), (1, 3)]) he
  have hwf := of_decide_eq_true (p := d < 32 ∧ a < 32 ∧ b < 32 ∧ t < 16 ∧ q < 8 ∧ 8 ≤ t ∧ t < 12) hwf
  have hc : clear 0x88000401 [(22, 5), (17, 5), (12, 5), (4, 4), (1, 3)] = true := by decide
  have hf : fits [d, a, b, t, q] [(22, 5), (17, 5), (12, 5), (4, 4), (1, 3)] := ⟨hwf.1, hwf.2.1, hwf.2.2.1, hwf.2.2.2.1, hwf.2.2.2.2.1, trivial⟩
  obtain ⟨e22, e17, e12, e4, e1, -⟩ := placed_reads hc hf
  have e8 : field _ 8 4 = 4 := placed_const (q := (8, 4)) hc hf (by decide)
  have e27 : field _ 27 5 = 17 := placed_const (q := (27, 5)) hc hf (by decide)
  rw [hw] at e22 e17 e12 e4 e1 e8 e27
  simp [decodeWord, decode32, decodeVFlt, e1, e4, e8, e12, e17, e22, e27]
  omega

theorem vfltVabs (d a t q : Nat) : Statement (.vfltVabs d a t q) := by
  intro hwf nbits word he
  obtain ⟨rfl, hw⟩ := of_word (b := placed 0x88000501 [d, a, t, q] [(22, 5), (17, 5), (4, 4), (1, 3)]) he
  have hwf := of_decide_eq_true (p := d < 32 ∧ a < 32 ∧ t < 16 ∧ q < 8 ∧ 8 ≤ t ∧ t < 12) hwf
  have hc : clear 0x88000501 [(22, 5), (17, 5), (4, 4), (1, 3)] = true := by decide
  have hf : fits [d, a, t, q] [(22, 5), (17, 5), (4, 4), (1, 3)] := ⟨hwf.1, hwf.2.1, hwf.2.2.1, hwf.2.2.2.1, trivial⟩
  obtain ⟨e22, e17, e4, e1, -⟩ := placed_reads hc hf
  have e8 : field _ 8 4 = 5 := placed_const (q := (8, 4)) hc hf (by decide)
  have e12 : field _ 12 5 = 0 := placed_const (q := (12, 5)) hc hf (by decide)
  have e27 : field _ 27 5 = 17 := placed_const (q := (27, 5)) hc hf (by decide)
  rw [hw] at e22 e17 e4 e1 e8 e12 e27
  simp [decodeWord, decode32, decodeVFlt, unlessReserved, e1, e4, e8, e12, e17, e22, e27]
  omega

theorem vfltVneg (d a t q : Nat) : Statement (.vfltVneg d a t q) := by
  intro hwf nbits word he
  obtain ⟨rfl, hw⟩ := of_word (b := placed 0x88000601 [d, a, t, q] [(22, 5), (17, 5), (4, 4), (1, 3)]) he
  have hwf := of_decide_eq_true (p := d < 32 ∧ a < 32 ∧ t < 16 ∧ q < 8 ∧ 8 ≤ t ∧ t < 12) hwf
  have hc : clear 0x88000601 [(22, 5), (17, 5), (4, 4), (1, 3)] = true := by decide
  have hf : fits [d, a, t, q] [(22, 5), (17, 5), (4, 4), (1, 3)] := ⟨hwf.1, hwf.2.1, hwf.2.2.1, hwf.2.2.2.1, trivial⟩
  obtain ⟨e22, e17, e4, e1, -⟩ := placed_reads hc hf
  have e8 : field _ 8 4 = 6 := placed_const (q := (8, 4)) hc hf (by decide)
  have e12 : field _ 12 5 = 0 := placed_const (q := (12, 5)) hc hf (by decide)
  have e27 : field _ 27 5 = 17 := placed_const (q := (27, 5)) hc hf (by decide)
  rw [hw] at e22 e17 e4 e1 e8 e12 e27
  simp [decodeWord, decode32, decodeVFlt, unlessReserved, e1, e4, e8, e12, e17, e22, e27]
  omega

theorem vfma (d a b t q : Nat) : Statement (.vfma d a b t q) := by
  intro hwf nbits word he
  obtain ⟨rfl, hw⟩ := of_word (b := placed 0x88000701 [d, a, b, t, q] [(22, 5), (17, 5), (12, 5), (4, 4), (1, 3)]) he
  have hwf := of_decide_eq_true (p := d < 32 ∧ a < 32 ∧ b < 32 ∧ t < 16 ∧ q < 8 ∧ 8 ≤ t ∧ t < 12) hwf
  have hc : clear 0x88000701 [(22, 5), (17, 5), (12, 5), (4, 4), (1, 3)] = true := by decide
  have hf : fits [d, a, b, t, q] [(22, 5), (17, 5), (12, 5), (4, 4), (1, 3)] := ⟨hwf.1, hwf.2.1, hwf.2.2.1, hwf.2.2.2.1, hwf.2.2.2.2.1, trivial⟩
  obtain ⟨e22, e17, e12, e4, e1, -⟩ := placed_reads hc hf
  have e8 : field _ 8 4 = 7 := placed_const (q := (8, 4)) hc hf (by decide)
  have e27 : field _ 27 5 = 17 := placed_const (q := (27, 5)) hc hf (by decide)
  rw [hw] at e22 e17 e12 e4 e1 e8 e27
  simp [decodeWord, decode32, decodeVFlt, e1, e4, e8, e12, e17, e22, e27]
  omega

theorem vfnma (d a b t q : Nat) : Statement (.vfnma d a b t q) := by
  intro hwf nbits word he
  obtain ⟨rfl, hw⟩ := of_word (b := placed 0x88000801 [d, a, b, t, q] [(22, 5), (17, 5), (12, 5), (4, 4), (1, 3)]) he
  have hwf := of_decide_eq_true (p := d < 32 ∧ a < 32 ∧ b < 32 ∧ t < 16 ∧ q < 8 ∧ 8 ≤ t ∧ t < 12) hwf
  have hc : clear 0x88000801 [(22, 5), (17, 5), (12, 5), (4, 4), (1, 3)] = true := by decide
  have hf : fits [d, a, b, t, q] [(22, 5), (17, 5), (12, 5), (4, 4), (1, 3)] := ⟨hwf.1, hwf.2.1, hwf.2.2.1, hwf.2.2.2.1, hwf.2.2.2.2.1, trivial⟩
  obtain ⟨e22, e17, e12, e4, e1, -⟩ := placed_reads hc hf
  have e8 : field _ 8 4 = 8 := placed_const (q := (8, 4)) hc hf (by decide)
  have e27 : field _ 27 5 = 17 := placed_const (q := (27, 5)) hc hf (by decide)
  rw [hw] at e22 e17 e12 e4 e1 e8 e27
  simp [decodeWord, decode32, decodeVFlt, e1, e4, e8, e12, e17, e22, e27]
  omega

theorem vminnum (d a b t q : Nat) : Statement (.vminnum d a b t q) := by
  intro hwf nbits word he
  obtain ⟨rfl, hw⟩ := of_word (b := placed 0x88000901 [d, a, b, t, q] [(22, 5), (17, 5), (12, 5), (4, 4), (1, 3)]) he
  have hwf := of_decide_eq_true (p := d < 32 ∧ a < 32 ∧ b < 32 ∧ t < 16 ∧ q < 8 ∧ 8 ≤ t ∧ t < 12) hwf
  have hc : clear 0x88000901 [(22, 5), (17, 5), (12, 5), (4, 4), (1, 3)] = true := by decide
  have hf : fits [d, a, b, t, q] [(22, 5), (17, 5), (12, 5), (4, 4), (1, 3)] := ⟨hwf.1, hwf.2.1, hwf.2.2.1, hwf.2.2.2.1, hwf.2.2.2.2.1, trivial⟩
  obtain ⟨e22, e17, e12, e4, e1, -⟩ := placed_reads hc hf
  have e8 : field _ 8 4 = 9 := placed_const (q := (8, 4)) hc hf (by decide)
  have e27 : field _ 27 5 = 17 := placed_const (q := (27, 5)) hc hf (by decide)
  rw [hw] at e22 e17 e12 e4 e1 e8 e27
  simp [decodeWord, decode32, decodeVFlt, e1, e4, e8, e12, e17, e22, e27]
  omega

theorem vmaxnum (d a b t q : Nat) : Statement (.vmaxnum d a b t q) := by
  intro hwf nbits word he
  obtain ⟨rfl, hw⟩ := of_word (b := placed 0x88000a01 [d, a, b, t, q] [(22, 5), (17, 5), (12, 5), (4, 4), (1, 3)]) he
  have hwf := of_decide_eq_true (p := d < 32 ∧ a < 32 ∧ b < 32 ∧ t < 16 ∧ q < 8 ∧ 8 ≤ t ∧ t < 12) hwf
  have hc : clear 0x88000a01 [(22, 5), (17, 5), (12, 5), (4, 4), (1, 3)] = true := by decide
  have hf : fits [d, a, b, t, q] [(22, 5), (17, 5), (12, 5), (4, 4), (1, 3)] := ⟨hwf.1, hwf.2.1, hwf.2.2.1, hwf.2.2.2.1, hwf.2.2.2.2.1, trivial⟩
  obtain ⟨e22, e17, e12, e4, e1, -⟩ := placed_reads hc hf
  have e8 : field _ 8 4 = 10 := placed_const (q := (8, 4)) hc hf (by decide)
  have e27 : field _ 27 5 = 17 := placed_const (q := (27, 5)) hc hf (by decide)
  rw [hw] at e22 e17 e12 e4 e1 e8 e27
  simp [decodeWord, decode32, decodeVFlt, e1, e4, e8, e12, e17, e22, e27]
  omega

theorem vfltVcmp (c p a b t q : Nat) : Statement (.vfltVcmp c p a b t q) := by
  intro hwf nbits word he
  obtain ⟨rfl, hw⟩ := of_word (b := placed 0x88000c01 [c, p, a, b, t, q] [(25, 2), (22, 3), (17, 5), (12, 5), (4, 4), (1, 3)]) he
  have hwf := of_decide_eq_true (p := c < 4 ∧ p < 8 ∧ a < 32 ∧ b < 32 ∧ t < 16 ∧ q < 8 ∧ 8 ≤ t ∧ t < 12) hwf
  have hc : clear 0x88000c01 [(25, 2), (22, 3), (17, 5), (12, 5), (4, 4), (1, 3)] = true := by decide
  have hf : fits [c, p, a, b, t, q] [(25, 2), (22, 3), (17, 5), (12, 5), (4, 4), (1, 3)] := ⟨hwf.1, hwf.2.1, hwf.2.2.1, hwf.2.2.2.1, hwf.2.2.2.2.1, hwf.2.2.2.2.2.1, trivial⟩
  obtain ⟨e25, e22, e17, e12, e4, e1, -⟩ := placed_reads hc hf
  have e8 : field _ 8 4 = 12 := placed_const (q := (8, 4)) hc hf (by decide)
  have e27 : field _ 27 5 = 17 := placed_const (q := (27, 5)) hc hf (by decide)
  rw [hw] at e25 e22 e17 e12 e4 e1 e8 e27
  simp [decodeWord, decode32, decodeVFlt, e1, e4, e8, e12, e17, e22, e25, e27]
  omega

theorem vfltVred (d a k t q : Nat) : Statement (.vfltVred d a k t q) := by
  intro hwf nbits word he
  obtain ⟨rfl, hw⟩ := of_word (b := placed 0x88000d01 [d, a, k, t, q] [(22, 5), (17, 5), (12, 5), (4, 4), (1, 3)]) he
  have hwf := of_decide_eq_true (p := d < 32 ∧ a < 32 ∧ k < 32 ∧ t < 16 ∧ q < 8 ∧ 8 ≤ t ∧ t < 12 ∧ k < 5) hwf
  have hc : clear 0x88000d01 [(22, 5), (17, 5), (12, 5), (4, 4), (1, 3)] = true := by decide
  have hf : fits [d, a, k, t, q] [(22, 5), (17, 5), (12, 5), (4, 4), (1, 3)] := ⟨hwf.1, hwf.2.1, hwf.2.2.1, hwf.2.2.2.1, hwf.2.2.2.2.1, trivial⟩
  obtain ⟨e22, e17, e12, e4, e1, -⟩ := placed_reads hc hf
  have e8 : field _ 8 4 = 13 := placed_const (q := (8, 4)) hc hf (by decide)
  have e27 : field _ 27 5 = 17 := placed_const (q := (27, 5)) hc hf (by decide)
  rw [hw] at e22 e17 e12 e4 e1 e8 e27
  simp [decodeWord, decode32, decodeVFlt, e1, e4, e8, e12, e17, e22, e27]
  omega

theorem vsel (d a b t q : Nat) : Statement (.vsel d a b t q) := by
  intro hwf nbits word he
  obtain ⟨rfl, hw⟩ := of_word (b := placed 0x90000001 [d, a, b, t, q] [(22, 5), (17, 5), (12, 5), (4, 4), (1, 3)]) he
  have hwf := of_decide_eq_true (p := d < 32 ∧ a < 32 ∧ b < 32 ∧ t < 16 ∧ q < 8) hwf
  have hc : clear 0x90000001 [(22, 5), (17, 5), (12, 5), (4, 4), (1, 3)] = true := by decide
  have hf : fits [d, a, b, t, q] [(22, 5), (17, 5), (12, 5), (4, 4), (1, 3)] := ⟨hwf.1, hwf.2.1, hwf.2.2.1, hwf.2.2.2.1, hwf.2.2.2.2, trivial⟩
  obtain ⟨e22, e17, e12, e4, e1, -⟩ := placed_reads hc hf
  have e8 : field _ 8 4 = 0 := placed_const (q := (8, 4)) hc hf (by decide)
  have e27 : field _ 27 5 = 18 := placed_const (q := (27, 5)) hc hf (by decide)
  rw [hw] at e22 e17 e12 e4 e1 e8 e27
  simp [decodeWord, decode32, decodeVMisc, e1, e4, e8, e12, e17, e22, e27]

theorem vsplat (d a t q : Nat) : Statement (.vsplat d a t q) := by
  intro hwf nbits word he
  obtain ⟨rfl, hw⟩ := of_word (b := placed 0x90000101 [d, a, t, q] [(22, 5), (17, 5), (4, 4), (1, 3)]) he
  have hwf := of_decide_eq_true (p := d < 32 ∧ a < 32 ∧ t < 16 ∧ q < 8) hwf
  have hc : clear 0x90000101 [(22, 5), (17, 5), (4, 4), (1, 3)] = true := by decide
  have hf : fits [d, a, t, q] [(22, 5), (17, 5), (4, 4), (1, 3)] := ⟨hwf.1, hwf.2.1, hwf.2.2.1, hwf.2.2.2, trivial⟩
  obtain ⟨e22, e17, e4, e1, -⟩ := placed_reads hc hf
  have e8 : field _ 8 4 = 1 := placed_const (q := (8, 4)) hc hf (by decide)
  have e12 : field _ 12 5 = 0 := placed_const (q := (12, 5)) hc hf (by decide)
  have e27 : field _ 27 5 = 18 := placed_const (q := (27, 5)) hc hf (by decide)
  rw [hw] at e22 e17 e4 e1 e8 e12 e27
  simp [decodeWord, decode32, decodeVMisc, unlessReserved, e1, e4, e8, e12, e17, e22, e27]

theorem vperm (d a b t q : Nat) : Statement (.vperm d a b t q) := by
  intro hwf nbits word he
  obtain ⟨rfl, hw⟩ := of_word (b := placed 0x90000201 [d, a, b, t, q] [(22, 5), (17, 5), (12, 5), (4, 4), (1, 3)]) he
  have hwf := of_decide_eq_true (p := d < 32 ∧ a < 32 ∧ b < 32 ∧ t < 16 ∧ q < 8) hwf
  have hc : clear 0x90000201 [(22, 5), (17, 5), (12, 5), (4, 4), (1, 3)] = true := by decide
  have hf : fits [d, a, b, t, q] [(22, 5), (17, 5), (12, 5), (4, 4), (1, 3)] := ⟨hwf.1, hwf.2.1, hwf.2.2.1, hwf.2.2.2.1, hwf.2.2.2.2, trivial⟩
  obtain ⟨e22, e17, e12, e4, e1, -⟩ := placed_reads hc hf
  have e8 : field _ 8 4 = 2 := placed_const (q := (8, 4)) hc hf (by decide)
  have e27 : field _ 27 5 = 18 := placed_const (q := (27, 5)) hc hf (by decide)
  rw [hw] at e22 e17 e12 e4 e1 e8 e27
  simp [decodeWord, decode32, decodeVMisc, e1, e4, e8, e12, e17, e22, e27]

theorem vpack (d a b t : Nat) : Statement (.vpack d a b t) := by
  intro hwf nbits word he
  obtain ⟨rfl, hw⟩ := of_word (b := placed 0x90000301 [d, a, b, t] [(22, 5), (17, 5), (12, 5), (4, 4)]) he
  have hwf := of_decide_eq_true (p := d < 32 ∧ a < 32 ∧ b < 32 ∧ t < 16) hwf
  have hc : clear 0x90000301 [(22, 5), (17, 5), (12, 5), (4, 4)] = true := by decide
  have hf : fits [d, a, b, t] [(22, 5), (17, 5), (12, 5), (4, 4)] := ⟨hwf.1, hwf.2.1, hwf.2.2.1, hwf.2.2.2, trivial⟩
  obtain ⟨e22, e17, e12, e4, -⟩ := placed_reads hc hf
  have e1 : field _ 1 3 = 0 := placed_const (q := (1, 3)) hc hf (by decide)
  have e8 : field _ 8 4 = 3 := placed_const (q := (8, 4)) hc hf (by decide)
  have e27 : field _ 27 5 = 18 := placed_const (q := (27, 5)) hc hf (by decide)
  rw [hw] at e22 e17 e12 e4 e1 e8 e27
  simp [decodeWord, decode32, decodeVMisc, unlessReserved, e1, e4, e8, e12, e17, e22, e27]

theorem vunpack (d a h t : Nat) : Statement (.vunpack d a h t) := by
  intro hwf nbits word he
  obtain ⟨rfl, hw⟩ := of_word (b := placed 0x90000401 [d, a, h, t] [(22, 5), (17, 5), (12, 1), (4, 4)]) he
  have hwf := of_decide_eq_true (p := d < 32 ∧ a < 32 ∧ h < 2 ∧ t < 16) hwf
  have hc : clear 0x90000401 [(22, 5), (17, 5), (12, 1), (4, 4)] = true := by decide
  have hf : fits [d, a, h, t] [(22, 5), (17, 5), (12, 1), (4, 4)] := ⟨hwf.1, hwf.2.1, hwf.2.2.1, hwf.2.2.2, trivial⟩
  obtain ⟨e22, e17, e12, e4, -⟩ := placed_reads hc hf
  have e1 : field _ 1 3 = 0 := placed_const (q := (1, 3)) hc hf (by decide)
  have e8 : field _ 8 4 = 4 := placed_const (q := (8, 4)) hc hf (by decide)
  have e13 : field _ 13 4 = 0 := placed_const (q := (13, 4)) hc hf (by decide)
  have e27 : field _ 27 5 = 18 := placed_const (q := (27, 5)) hc hf (by decide)
  rw [hw] at e22 e17 e12 e4 e1 e8 e13 e27
  simp [decodeWord, decode32, decodeVMisc, unlessReserved, e1, e4, e8, e12, e13, e17, e22, e27]

theorem vcvt (d a u t q : Nat) : Statement (.vcvt d a u t q) := by
  intro hwf nbits word he
  obtain ⟨rfl, hw⟩ := of_word (b := placed 0x98000001 [d, a, u, t, q] [(22, 5), (17, 5), (12, 4), (4, 4), (1, 3)]) he
  have hwf := of_decide_eq_true (p := d < 32 ∧ a < 32 ∧ u < 16 ∧ t < 16 ∧ q < 8) hwf
  have hc : clear 0x98000001 [(22, 5), (17, 5), (12, 4), (4, 4), (1, 3)] = true := by decide
  have hf : fits [d, a, u, t, q] [(22, 5), (17, 5), (12, 4), (4, 4), (1, 3)] := ⟨hwf.1, hwf.2.1, hwf.2.2.1, hwf.2.2.2.1, hwf.2.2.2.2, trivial⟩
  obtain ⟨e22, e17, e12, e4, e1, -⟩ := placed_reads hc hf
  have e8 : field _ 8 4 = 0 := placed_const (q := (8, 4)) hc hf (by decide)
  have e16 : field _ 16 1 = 0 := placed_const (q := (16, 1)) hc hf (by decide)
  have e27 : field _ 27 5 = 19 := placed_const (q := (27, 5)) hc hf (by decide)
  rw [hw] at e22 e17 e12 e4 e1 e8 e16 e27
  simp [decodeWord, decode32, decodeVSfu, unlessReserved, e1, e4, e8, e12, e16, e17, e22, e27]

theorem vrcp (d a t q : Nat) : Statement (.vrcp d a t q) := by
  intro hwf nbits word he
  obtain ⟨rfl, hw⟩ := of_word (b := placed 0x98000101 [d, a, t, q] [(22, 5), (17, 5), (4, 4), (1, 3)]) he
  have hwf := of_decide_eq_true (p := d < 32 ∧ a < 32 ∧ t < 16 ∧ q < 8) hwf
  have hc : clear 0x98000101 [(22, 5), (17, 5), (4, 4), (1, 3)] = true := by decide
  have hf : fits [d, a, t, q] [(22, 5), (17, 5), (4, 4), (1, 3)] := ⟨hwf.1, hwf.2.1, hwf.2.2.1, hwf.2.2.2, trivial⟩
  obtain ⟨e22, e17, e4, e1, -⟩ := placed_reads hc hf
  have e8 : field _ 8 4 = 1 := placed_const (q := (8, 4)) hc hf (by decide)
  have e12 : field _ 12 5 = 0 := placed_const (q := (12, 5)) hc hf (by decide)
  have e27 : field _ 27 5 = 19 := placed_const (q := (27, 5)) hc hf (by decide)
  rw [hw] at e22 e17 e4 e1 e8 e12 e27
  simp [decodeWord, decode32, decodeVSfu, unlessReserved, e1, e4, e8, e12, e17, e22, e27]

theorem vrsqrt (d a t q : Nat) : Statement (.vrsqrt d a t q) := by
  intro hwf nbits word he
  obtain ⟨rfl, hw⟩ := of_word (b := placed 0x98000201 [d, a, t, q] [(22, 5), (17, 5), (4, 4), (1, 3)]) he
  have hwf := of_decide_eq_true (p := d < 32 ∧ a < 32 ∧ t < 16 ∧ q < 8) hwf
  have hc : clear 0x98000201 [(22, 5), (17, 5), (4, 4), (1, 3)] = true := by decide
  have hf : fits [d, a, t, q] [(22, 5), (17, 5), (4, 4), (1, 3)] := ⟨hwf.1, hwf.2.1, hwf.2.2.1, hwf.2.2.2, trivial⟩
  obtain ⟨e22, e17, e4, e1, -⟩ := placed_reads hc hf
  have e8 : field _ 8 4 = 2 := placed_const (q := (8, 4)) hc hf (by decide)
  have e12 : field _ 12 5 = 0 := placed_const (q := (12, 5)) hc hf (by decide)
  have e27 : field _ 27 5 = 19 := placed_const (q := (27, 5)) hc hf (by decide)
  rw [hw] at e22 e17 e4 e1 e8 e12 e27
  simp [decodeWord, decode32, decodeVSfu, unlessReserved, e1, e4, e8, e12, e17, e22, e27]

theorem vsqrt (d a t q : Nat) : Statement (.vsqrt d a t q) := by
  intro hwf nbits word he
  obtain ⟨rfl, hw⟩ := of_word (b := placed 0x98000301 [d, a, t, q] [(22, 5), (17, 5), (4, 4), (1, 3)]) he
  have hwf := of_decide_eq_true (p := d < 32 ∧ a < 32 ∧ t < 16 ∧ q < 8) hwf
  have hc : clear 0x98000301 [(22, 5), (17, 5), (4, 4), (1, 3)] = true := by decide
  have hf : fits [d, a, t, q] [(22, 5), (17, 5), (4, 4), (1, 3)] := ⟨hwf.1, hwf.2.1, hwf.2.2.1, hwf.2.2.2, trivial⟩
  obtain ⟨e22, e17, e4, e1, -⟩ := placed_reads hc hf
  have e8 : field _ 8 4 = 3 := placed_const (q := (8, 4)) hc hf (by decide)
  have e12 : field _ 12 5 = 0 := placed_const (q := (12, 5)) hc hf (by decide)
  have e27 : field _ 27 5 = 19 := placed_const (q := (27, 5)) hc hf (by decide)
  rw [hw] at e22 e17 e4 e1 e8 e12 e27
  simp [decodeWord, decode32, decodeVSfu, unlessReserved, e1, e4, e8, e12, e17, e22, e27]

theorem vexp2 (d a t q : Nat) : Statement (.vexp2 d a t q) := by
  intro hwf nbits word he
  obtain ⟨rfl, hw⟩ := of_word (b := placed 0x98000401 [d, a, t, q] [(22, 5), (17, 5), (4, 4), (1, 3)]) he
  have hwf := of_decide_eq_true (p := d < 32 ∧ a < 32 ∧ t < 16 ∧ q < 8) hwf
  have hc : clear 0x98000401 [(22, 5), (17, 5), (4, 4), (1, 3)] = true := by decide
  have hf : fits [d, a, t, q] [(22, 5), (17, 5), (4, 4), (1, 3)] := ⟨hwf.1, hwf.2.1, hwf.2.2.1, hwf.2.2.2, trivial⟩
  obtain ⟨e22, e17, e4, e1, -⟩ := placed_reads hc hf
  have e8 : field _ 8 4 = 4 := placed_const (q := (8, 4)) hc hf (by decide)
  have e12 : field _ 12 5 = 0 := placed_const (q := (12, 5)) hc hf (by decide)
  have e27 : field _ 27 5 = 19 := placed_const (q := (27, 5)) hc hf (by decide)
  rw [hw] at e22 e17 e4 e1 e8 e12 e27
  simp [decodeWord, decode32, decodeVSfu, unlessReserved, e1, e4, e8, e12, e17, e22, e27]

theorem vlog2 (d a t q : Nat) : Statement (.vlog2 d a t q) := by
  intro hwf nbits word he
  obtain ⟨rfl, hw⟩ := of_word (b := placed 0x98000501 [d, a, t, q] [(22, 5), (17, 5), (4, 4), (1, 3)]) he
  have hwf := of_decide_eq_true (p := d < 32 ∧ a < 32 ∧ t < 16 ∧ q < 8) hwf
  have hc : clear 0x98000501 [(22, 5), (17, 5), (4, 4), (1, 3)] = true := by decide
  have hf : fits [d, a, t, q] [(22, 5), (17, 5), (4, 4), (1, 3)] := ⟨hwf.1, hwf.2.1, hwf.2.2.1, hwf.2.2.2, trivial⟩
  obtain ⟨e22, e17, e4, e1, -⟩ := placed_reads hc hf
  have e8 : field _ 8 4 = 5 := placed_const (q := (8, 4)) hc hf (by decide)
  have e12 : field _ 12 5 = 0 := placed_const (q := (12, 5)) hc hf (by decide)
  have e27 : field _ 27 5 = 19 := placed_const (q := (27, 5)) hc hf (by decide)
  rw [hw] at e22 e17 e4 e1 e8 e12 e27
  simp [decodeWord, decode32, decodeVSfu, unlessReserved, e1, e4, e8, e12, e17, e22, e27]

theorem vsinpi (d a t q : Nat) : Statement (.vsinpi d a t q) := by
  intro hwf nbits word he
  obtain ⟨rfl, hw⟩ := of_word (b := placed 0x98000601 [d, a, t, q] [(22, 5), (17, 5), (4, 4), (1, 3)]) he
  have hwf := of_decide_eq_true (p := d < 32 ∧ a < 32 ∧ t < 16 ∧ q < 8) hwf
  have hc : clear 0x98000601 [(22, 5), (17, 5), (4, 4), (1, 3)] = true := by decide
  have hf : fits [d, a, t, q] [(22, 5), (17, 5), (4, 4), (1, 3)] := ⟨hwf.1, hwf.2.1, hwf.2.2.1, hwf.2.2.2, trivial⟩
  obtain ⟨e22, e17, e4, e1, -⟩ := placed_reads hc hf
  have e8 : field _ 8 4 = 6 := placed_const (q := (8, 4)) hc hf (by decide)
  have e12 : field _ 12 5 = 0 := placed_const (q := (12, 5)) hc hf (by decide)
  have e27 : field _ 27 5 = 19 := placed_const (q := (27, 5)) hc hf (by decide)
  rw [hw] at e22 e17 e4 e1 e8 e12 e27
  simp [decodeWord, decode32, decodeVSfu, unlessReserved, e1, e4, e8, e12, e17, e22, e27]

theorem vcospi (d a t q : Nat) : Statement (.vcospi d a t q) := by
  intro hwf nbits word he
  obtain ⟨rfl, hw⟩ := of_word (b := placed 0x98000701 [d, a, t, q] [(22, 5), (17, 5), (4, 4), (1, 3)]) he
  have hwf := of_decide_eq_true (p := d < 32 ∧ a < 32 ∧ t < 16 ∧ q < 8) hwf
  have hc : clear 0x98000701 [(22, 5), (17, 5), (4, 4), (1, 3)] = true := by decide
  have hf : fits [d, a, t, q] [(22, 5), (17, 5), (4, 4), (1, 3)] := ⟨hwf.1, hwf.2.1, hwf.2.2.1, hwf.2.2.2, trivial⟩
  obtain ⟨e22, e17, e4, e1, -⟩ := placed_reads hc hf
  have e8 : field _ 8 4 = 7 := placed_const (q := (8, 4)) hc hf (by decide)
  have e12 : field _ 12 5 = 0 := placed_const (q := (12, 5)) hc hf (by decide)
  have e27 : field _ 27 5 = 19 := placed_const (q := (27, 5)) hc hf (by decide)
  rw [hw] at e22 e17 e4 e1 e8 e12 e27
  simp [decodeWord, decode32, decodeVSfu, unlessReserved, e1, e4, e8, e12, e17, e22, e27]

theorem vld (d a b t q : Nat) : Statement (.vld d a b t q) := by
  intro hwf nbits word he
  obtain ⟨rfl, hw⟩ := of_word (b := placed 0xa0000001 [d, a, b, t, q] [(22, 5), (17, 5), (12, 5), (4, 4), (1, 3)]) he
  have hwf := of_decide_eq_true (p := d < 32 ∧ a < 32 ∧ b < 32 ∧ t < 16 ∧ q < 8) hwf
  have hc : clear 0xa0000001 [(22, 5), (17, 5), (12, 5), (4, 4), (1, 3)] = true := by decide
  have hf : fits [d, a, b, t, q] [(22, 5), (17, 5), (12, 5), (4, 4), (1, 3)] := ⟨hwf.1, hwf.2.1, hwf.2.2.1, hwf.2.2.2.1, hwf.2.2.2.2, trivial⟩
  obtain ⟨e22, e17, e12, e4, e1, -⟩ := placed_reads hc hf
  have e8 : field _ 8 4 = 0 := placed_const (q := (8, 4)) hc hf (by decide)
  have e27 : field _ 27 5 = 20 := placed_const (q := (27, 5)) hc hf (by decide)
  rw [hw] at e22 e17 e12 e4 e1 e8 e27
  simp [decodeWord, decode32, decodeVMem, e1, e4, e8, e12, e17, e22, e27]

theorem vst (d a b t q : Nat) : Statement (.vst d a b t q) := by
  intro hwf nbits word he
  obtain ⟨rfl, hw⟩ := of_word (b := placed 0xa0000101 [d, a, b, t, q] [(22, 5), (17, 5), (12, 5), (4, 4), (1, 3)]) he
  have hwf := of_decide_eq_true (p := d < 32 ∧ a < 32 ∧ b < 32 ∧ t < 16 ∧ q < 8) hwf
  have hc : clear 0xa0000101 [(22, 5), (17, 5), (12, 5), (4, 4), (1, 3)] = true := by decide
  have hf : fits [d, a, b, t, q] [(22, 5), (17, 5), (12, 5), (4, 4), (1, 3)] := ⟨hwf.1, hwf.2.1, hwf.2.2.1, hwf.2.2.2.1, hwf.2.2.2.2, trivial⟩
  obtain ⟨e22, e17, e12, e4, e1, -⟩ := placed_reads hc hf
  have e8 : field _ 8 4 = 1 := placed_const (q := (8, 4)) hc hf (by decide)
  have e27 : field _ 27 5 = 20 := placed_const (q := (27, 5)) hc hf (by decide)
  rw [hw] at e22 e17 e12 e4 e1 e8 e27
  simp [decodeWord, decode32, decodeVMem, e1, e4, e8, e12, e17, e22, e27]

theorem vlds (d a b t q : Nat) : Statement (.vlds d a b t q) := by
  intro hwf nbits word he
  obtain ⟨rfl, hw⟩ := of_word (b := placed 0xa0000201 [d, a, b, t, q] [(22, 5), (17, 5), (12, 5), (4, 4), (1, 3)]) he
  have hwf := of_decide_eq_true (p := d < 32 ∧ a < 32 ∧ b < 32 ∧ t < 16 ∧ q < 8) hwf
  have hc : clear 0xa0000201 [(22, 5), (17, 5), (12, 5), (4, 4), (1, 3)] = true := by decide
  have hf : fits [d, a, b, t, q] [(22, 5), (17, 5), (12, 5), (4, 4), (1, 3)] := ⟨hwf.1, hwf.2.1, hwf.2.2.1, hwf.2.2.2.1, hwf.2.2.2.2, trivial⟩
  obtain ⟨e22, e17, e12, e4, e1, -⟩ := placed_reads hc hf
  have e8 : field _ 8 4 = 2 := placed_const (q := (8, 4)) hc hf (by decide)
  have e27 : field _ 27 5 = 20 := placed_const (q := (27, 5)) hc hf (by decide)
  rw [hw] at e22 e17 e12 e4 e1 e8 e27
  simp [decodeWord, decode32, decodeVMem, e1, e4, e8, e12, e17, e22, e27]

theorem vldx (d a b t q : Nat) : Statement (.vldx d a b t q) := by
  intro hwf nbits word he
  obtain ⟨rfl, hw⟩ := of_word (b := placed 0xa0000301 [d, a, b, t, q] [(22, 5), (17, 5), (12, 5), (4, 4), (1, 3)]) he
  have hwf := of_decide_eq_true (p := d < 32 ∧ a < 32 ∧ b < 32 ∧ t < 16 ∧ q < 8) hwf
  have hc : clear 0xa0000301 [(22, 5), (17, 5), (12, 5), (4, 4), (1, 3)] = true := by decide
  have hf : fits [d, a, b, t, q] [(22, 5), (17, 5), (12, 5), (4, 4), (1, 3)] := ⟨hwf.1, hwf.2.1, hwf.2.2.1, hwf.2.2.2.1, hwf.2.2.2.2, trivial⟩
  obtain ⟨e22, e17, e12, e4, e1, -⟩ := placed_reads hc hf
  have e8 : field _ 8 4 = 3 := placed_const (q := (8, 4)) hc hf (by decide)
  have e27 : field _ 27 5 = 20 := placed_const (q := (27, 5)) hc hf (by decide)
  rw [hw] at e22 e17 e12 e4 e1 e8 e27
  simp [decodeWord, decode32, decodeVMem, e1, e4, e8, e12, e17, e22, e27]

theorem vstx (d a b t q : Nat) : Statement (.vstx d a b t q) := by
  intro hwf nbits word he
  obtain ⟨rfl, hw⟩ := of_word (b := placed 0xa0000401 [d, a, b, t, q] [(22, 5), (17, 5), (12, 5), (4, 4), (1, 3)]) he
  have hwf := of_decide_eq_true (p := d < 32 ∧ a < 32 ∧ b < 32 ∧ t < 16 ∧ q < 8) hwf
  have hc : clear 0xa0000401 [(22, 5), (17, 5), (12, 5), (4, 4), (1, 3)] = true := by decide
  have hf : fits [d, a, b, t, q] [(22, 5), (17, 5), (12, 5), (4, 4), (1, 3)] := ⟨hwf.1, hwf.2.1, hwf.2.2.1, hwf.2.2.2.1, hwf.2.2.2.2, trivial⟩
  obtain ⟨e22, e17, e12, e4, e1, -⟩ := placed_reads hc hf
  have e8 : field _ 8 4 = 4 := placed_const (q := (8, 4)) hc hf (by decide)
  have e27 : field _ 27 5 = 20 := placed_const (q := (27, 5)) hc hf (by decide)
  rw [hw] at e22 e17 e12 e4 e1 e8 e27
  simp [decodeWord, decode32, decodeVMem, e1, e4, e8, e12, e17, e22, e27]

theorem spawn (d a b q : Nat) : Statement (.spawn d a b q) := by
  intro hwf nbits word he
  obtain ⟨rfl, hw⟩ := of_word (b := placed 0xb0000001 [d, a, b, q] [(22, 5), (17, 5), (12, 5), (1, 3)]) he
  have hwf := of_decide_eq_true (p := d < 32 ∧ a < 32 ∧ b < 32 ∧ q < 8) hwf
  have hc : clear 0xb0000001 [(22, 5), (17, 5), (12, 5), (1, 3)] = true := by decide
  have hf : fits [d, a, b, q] [(22, 5), (17, 5), (12, 5), (1, 3)] := ⟨hwf.1, hwf.2.1, hwf.2.2.1, hwf.2.2.2, trivial⟩
  obtain ⟨e22, e17, e12, e1, -⟩ := placed_reads hc hf
  have e4 : field _ 4 8 = 0 := placed_const (q := (4, 8)) hc hf (by decide)
  have e27 : field _ 27 5 = 22 := placed_const (q := (27, 5)) hc hf (by decide)
  rw [hw] at e22 e17 e12 e1 e4 e27
  simp [decodeWord, decode32, decodeThread, e1, e4, e12, e17, e22, e27]

theorem quit (a : Nat) : Statement (.quit a) := by
  intro hwf nbits word he
  obtain ⟨rfl, hw⟩ := of_word (b := placed 0xb0000011 [a] [(17, 5)]) he
  have hwf := of_decide_eq_true (p := a < 32) hwf
  have hc : clear 0xb0000011 [(17, 5)] = true := by decide
  have hf : fits [a] [(17, 5)] := ⟨hwf, trivial⟩
  obtain ⟨e17, -⟩ := placed_reads hc hf
  have e1 : field _ 1 3 = 0 := placed_const (q := (1, 3)) hc hf (by decide)
  have e4 : field _ 4 8 = 1 := placed_const (q := (4, 8)) hc hf (by decide)
  have e12 : field _ 12 5 = 0 := placed_const (q := (12, 5)) hc hf (by decide)
  have e22 : field _ 22 5 = 0 := placed_const (q := (22, 5)) hc hf (by decide)
  have e27 : field _ 27 5 = 22 := placed_const (q := (27, 5)) hc hf (by decide)
  rw [hw] at e17 e1 e4 e12 e22 e27
  simp [decodeWord, decode32, decodeThread, unlessReserved, e1, e4, e12, e17, e22, e27]

theorem reap (d b q : Nat) : Statement (.reap d b q) := by
  intro hwf nbits word he
  obtain ⟨rfl, hw⟩ := of_word (b := placed 0xb0000021 [d, b, q] [(22, 5), (12, 5), (1, 3)]) he
  have hwf := of_decide_eq_true (p := d < 32 ∧ b < 32 ∧ q < 8) hwf
  have hc : clear 0xb0000021 [(22, 5), (12, 5), (1, 3)] = true := by decide
  have hf : fits [d, b, q] [(22, 5), (12, 5), (1, 3)] := ⟨hwf.1, hwf.2.1, hwf.2.2, trivial⟩
  obtain ⟨e22, e12, e1, -⟩ := placed_reads hc hf
  have e4 : field _ 4 8 = 2 := placed_const (q := (4, 8)) hc hf (by decide)
  have e17 : field _ 17 5 = 0 := placed_const (q := (17, 5)) hc hf (by decide)
  have e27 : field _ 27 5 = 22 := placed_const (q := (27, 5)) hc hf (by decide)
  rw [hw] at e22 e12 e1 e4 e17 e27
  simp [decodeWord, decode32, decodeThread, unlessReserved, e1, e4, e12, e17, e22, e27]

theorem kill (a q : Nat) : Statement (.kill a q) := by
  intro hwf nbits word he
  obtain ⟨rfl, hw⟩ := of_word (b := placed 0xb0000031 [a, q] [(17, 5), (1, 3)]) he
  have hwf := of_decide_eq_true (p := a < 32 ∧ q < 8) hwf
  have hc : clear 0xb0000031 [(17, 5), (1, 3)] = true := by decide
  have hf : fits [a, q] [(17, 5), (1, 3)] := ⟨hwf.1, hwf.2, trivial⟩
  obtain ⟨e17, e1, -⟩ := placed_reads hc hf
  have e4 : field _ 4 8 = 3 := placed_const (q := (4, 8)) hc hf (by decide)
  have e12 : field _ 12 5 = 0 := placed_const (q := (12, 5)) hc hf (by decide)
  have e22 : field _ 22 5 = 0 := placed_const (q := (22, 5)) hc hf (by decide)
  have e27 : field _ 27 5 = 22 := placed_const (q := (27, 5)) hc hf (by decide)
  rw [hw] at e17 e1 e4 e12 e22 e27
  simp [decodeWord, decode32, decodeThread, unlessReserved, e1, e4, e12, e17, e22, e27]

theorem pri (d a : Nat) : Statement (.pri d a) := by
  intro hwf nbits word he
  obtain ⟨rfl, hw⟩ := of_word (b := placed 0xb0000051 [d, a] [(22, 5), (17, 5)]) he
  have hwf := of_decide_eq_true (p := d < 32 ∧ a < 32) hwf
  have hc : clear 0xb0000051 [(22, 5), (17, 5)] = true := by decide
  have hf : fits [d, a] [(22, 5), (17, 5)] := ⟨hwf.1, hwf.2, trivial⟩
  obtain ⟨e22, e17, -⟩ := placed_reads hc hf
  have e1 : field _ 1 3 = 0 := placed_const (q := (1, 3)) hc hf (by decide)
  have e4 : field _ 4 8 = 5 := placed_const (q := (4, 8)) hc hf (by decide)
  have e12 : field _ 12 5 = 0 := placed_const (q := (12, 5)) hc hf (by decide)
  have e27 : field _ 27 5 = 22 := placed_const (q := (27, 5)) hc hf (by decide)
  rw [hw] at e22 e17 e1 e4 e12 e27
  simp [decodeWord, decode32, decodeThread, unlessReserved, e1, e4, e12, e17, e22, e27]

theorem migrate (a q : Nat) : Statement (.migrate a q) := by
  intro hwf nbits word he
  obtain ⟨rfl, hw⟩ := of_word (b := placed 0xb0000061 [a, q] [(17, 5), (1, 3)]) he
  have hwf := of_decide_eq_true (p := a < 32 ∧ q < 8) hwf
  have hc : clear 0xb0000061 [(17, 5), (1, 3)] = true := by decide
  have hf : fits [a, q] [(17, 5), (1, 3)] := ⟨hwf.1, hwf.2, trivial⟩
  obtain ⟨e17, e1, -⟩ := placed_reads hc hf
  have e4 : field _ 4 8 = 6 := placed_const (q := (4, 8)) hc hf (by decide)
  have e12 : field _ 12 5 = 0 := placed_const (q := (12, 5)) hc hf (by decide)
  have e22 : field _ 22 5 = 0 := placed_const (q := (22, 5)) hc hf (by decide)
  have e27 : field _ 27 5 = 22 := placed_const (q := (27, 5)) hc hf (by decide)
  rw [hw] at e17 e1 e4 e12 e22 e27
  simp [decodeWord, decode32, decodeThread, unlessReserved, e1, e4, e12, e17, e22, e27]

theorem wake (a q : Nat) : Statement (.wake a q) := by
  intro hwf nbits word he
  obtain ⟨rfl, hw⟩ := of_word (b := placed 0xb0000071 [a, q] [(17, 5), (1, 3)]) he
  have hwf := of_decide_eq_true (p := a < 32 ∧ q < 8) hwf
  have hc : clear 0xb0000071 [(17, 5), (1, 3)] = true := by decide
  have hf : fits [a, q] [(17, 5), (1, 3)] := ⟨hwf.1, hwf.2, trivial⟩
  obtain ⟨e17, e1, -⟩ := placed_reads hc hf
  have e4 : field _ 4 8 = 7 := placed_const (q := (4, 8)) hc hf (by decide)
  have e12 : field _ 12 5 = 0 := placed_const (q := (12, 5)) hc hf (by decide)
  have e22 : field _ 22 5 = 0 := placed_const (q := (22, 5)) hc hf (by decide)
  have e27 : field _ 27 5 = 22 := placed_const (q := (27, 5)) hc hf (by decide)
  rw [hw] at e17 e1 e4 e12 e22 e27
  simp [decodeWord, decode32, decodeThread, unlessReserved, e1, e4, e12, e17, e22, e27]

theorem join (a : Nat) : Statement (.join a) := by
  intro hwf nbits word he
  obtain ⟨rfl, hw⟩ := of_word (b := placed 0xb0000081 [a] [(17, 5)]) he
  have hwf := of_decide_eq_true (p := a < 32) hwf
  have hc : clear 0xb0000081 [(17, 5)] = true := by decide
  have hf : fits [a] [(17, 5)] := ⟨hwf, trivial⟩
  obtain ⟨e17, -⟩ := placed_reads hc hf
  have e1 : field _ 1 3 = 0 := placed_const (q := (1, 3)) hc hf (by decide)
  have e4 : field _ 4 8 = 8 := placed_const (q := (4, 8)) hc hf (by decide)
  have e12 : field _ 12 5 = 0 := placed_const (q := (12, 5)) hc hf (by decide)
  have e22 : field _ 22 5 = 0 := placed_const (q := (22, 5)) hc hf (by decide)
  have e27 : field _ 27 5 = 22 := placed_const (q := (27, 5)) hc hf (by decide)
  rw [hw] at e17 e1 e4 e12 e22 e27
  simp [decodeWord, decode32, decodeThread, unlessReserved, e1, e4, e12, e17, e22, e27]

theorem bartry (q : Nat) : Statement (.bartry q) := by
  intro hwf nbits word he
  obtain ⟨rfl, hw⟩ := of_word (b := placed 0xb00000b1 [q] [(1, 3)]) he
  have hwf := of_decide_eq_true (p := q < 8) hwf
  have hc : clear 0xb00000b1 [(1, 3)] = true := by decide
  have hf : fits [q] [(1, 3)] := ⟨hwf, trivial⟩
  obtain ⟨e1, -⟩ := placed_reads hc hf
  have e4 : field _ 4 8 = 11 := placed_const (q := (4, 8)) hc hf (by decide)
  have e12 : field _ 12 15 = 0 := placed_const (q := (12, 15)) hc hf (by decide)
  have e27 : field _ 27 5 = 22 := placed_const (q := (27, 5)) hc hf (by decide)
  rw [hw] at e1 e4 e12 e27
  simp [decodeWord, decode32, decodeThread, unlessReserved, e1, e4, e12, e27]

theorem gang (a n q : Nat) : Statement (.gang a n q) := by
  intro hwf nbits word he
  obtain ⟨rfl, hw⟩ := of_word (b := placed 0xb00000c1 [a, n, q] [(17, 5), (12, 5), (1, 3)]) he
  have hwf := of_decide_eq_true (p := a < 32 ∧ n < 32 ∧ q < 8) hwf
  have hc : clear 0xb00000c1 [(17, 5), (12, 5), (1, 3)] = true := by decide
  have hf : fits [a, n, q] [(17, 5), (12, 5), (1, 3)] := ⟨hwf.1, hwf.2.1, hwf.2.2, trivial⟩
  obtain ⟨e17, e12, e1, -⟩ := placed_reads hc hf
  have e4 : field _ 4 8 = 12 := placed_const (q := (4, 8)) hc hf (by decide)
  have e22 : field _ 22 5 = 0 := placed_const (q := (22, 5)) hc hf (by decide)
  have e27 : field _ 27 5 = 22 := placed_const (q := (27, 5)) hc hf (by decide)
  rw [hw] at e17 e12 e1 e4 e22 e27
  simp [decodeWord, decode32, decodeThread, unlessReserved, e1, e4, e12, e17, e22, e27]

theorem part (d a b q : Nat) : Statement (.part d a b q) := by
  intro hwf nbits word he
  obtain ⟨rfl, hw⟩ := of_word (b := placed 0xb00000e1 [d, a, b, q] [(22, 5), (17, 5), (12, 5), (1, 3)]) he
  have hwf := of_decide_eq_true (p := d < 32 ∧ a < 32 ∧ b < 32 ∧ q < 8 ∧ q < 2) hwf
  have hc : clear 0xb00000e1 [(22, 5), (17, 5), (12, 5), (1, 3)] = true := by decide
  have hf : fits [d, a, b, q] [(22, 5), (17, 5), (12, 5), (1, 3)] := ⟨hwf.1, hwf.2.1, hwf.2.2.1, hwf.2.2.2.1, trivial⟩
  obtain ⟨e22, e17, e12, e1, -⟩ := placed_reads hc hf
  have e4 : field _ 4 8 = 14 := placed_const (q := (4, 8)) hc hf (by decide)
  have e27 : field _ 27 5 = 22 := placed_const (q := (27, 5)) hc hf (by decide)
  rw [hw] at e22 e17 e12 e1 e4 e27
  simp [decodeWord, decode32, decodeThread, unlessReserved, e1, e4, e12, e17, e22, e27]
  omega

theorem get (k m b q : Nat) : Statement (.get k m b q) := by
  intro hwf nbits word he
  obtain ⟨rfl, hw⟩ := of_word (b := placed 0xb8000001 [k, m, b, q] [(21, 6), (17, 4), (12, 5), (1, 3)]) he
  have hwf := of_decide_eq_true (p := k < 64 ∧ m < 16 ∧ b < 32 ∧ q < 8) hwf
  have hc : clear 0xb8000001 [(21, 6), (17, 4), (12, 5), (1, 3)] = true := by decide
  have hf : fits [k, m, b, q] [(21, 6), (17, 4), (12, 5), (1, 3)] := ⟨hwf.1, hwf.2.1, hwf.2.2.1, hwf.2.2.2, trivial⟩
  obtain ⟨e21, e17, e12, e1, -⟩ := placed_reads hc hf
  have e4 : field _ 4 8 = 0 := placed_const (q := (4, 8)) hc hf (by decide)
  have e27 : field _ 27 5 = 23 := placed_const (q := (27, 5)) hc hf (by decide)
  rw [hw] at e21 e17 e12 e1 e4 e27
  simp [decodeWord, decode32, decodeCopy, e1, e4, e12, e17, e21, e27]

theorem put (k m b q : Nat) : Statement (.put k m b q) := by
  intro hwf nbits word he
  obtain ⟨rfl, hw⟩ := of_word (b := placed 0xb8000011 [k, m, b, q] [(21, 6), (17, 4), (12, 5), (1, 3)]) he
  have hwf := of_decide_eq_true (p := k < 64 ∧ m < 16 ∧ b < 32 ∧ q < 8) hwf
  have hc : clear 0xb8000011 [(21, 6), (17, 4), (12, 5), (1, 3)] = true := by decide
  have hf : fits [k, m, b, q] [(21, 6), (17, 4), (12, 5), (1, 3)] := ⟨hwf.1, hwf.2.1, hwf.2.2.1, hwf.2.2.2, trivial⟩
  obtain ⟨e21, e17, e12, e1, -⟩ := placed_reads hc hf
  have e4 : field _ 4 8 = 1 := placed_const (q := (4, 8)) hc hf (by decide)
  have e27 : field _ 27 5 = 23 := placed_const (q := (27, 5)) hc hf (by decide)
  rw [hw] at e21 e17 e12 e1 e4 e27
  simp [decodeWord, decode32, decodeCopy, e1, e4, e12, e17, e21, e27]

theorem gets (k m p jj z : Nat) : Statement (.gets k m p jj z) := by
  intro hwf nbits word he
  obtain ⟨rfl, hw⟩ := of_word (b := placed 0xb8000021 [k, m, p, jj, z] [(21, 6), (17, 4), (14, 3), (12, 2), (1, 3)]) he
  have hwf := of_decide_eq_true (p := k < 64 ∧ m < 16 ∧ p < 8 ∧ jj < 4 ∧ z < 8 ∧ z < 5) hwf
  have hc : clear 0xb8000021 [(21, 6), (17, 4), (14, 3), (12, 2), (1, 3)] = true := by decide
  have hf : fits [k, m, p, jj, z] [(21, 6), (17, 4), (14, 3), (12, 2), (1, 3)] := ⟨hwf.1, hwf.2.1, hwf.2.2.1, hwf.2.2.2.1, hwf.2.2.2.2.1, trivial⟩
  obtain ⟨e21, e17, e14, e12, e1, -⟩ := placed_reads hc hf
  have e4 : field _ 4 8 = 2 := placed_const (q := (4, 8)) hc hf (by decide)
  have e27 : field _ 27 5 = 23 := placed_const (q := (27, 5)) hc hf (by decide)
  rw [hw] at e21 e17 e14 e12 e1 e4 e27
  simp [decodeWord, decode32, decodeCopy, e1, e4, e12, e14, e17, e21, e27]
  omega

theorem puts (k m p jj z : Nat) : Statement (.puts k m p jj z) := by
  intro hwf nbits word he
  obtain ⟨rfl, hw⟩ := of_word (b := placed 0xb8000031 [k, m, p, jj, z] [(21, 6), (17, 4), (14, 3), (12, 2), (1, 3)]) he
  have hwf := of_decide_eq_true (p := k < 64 ∧ m < 16 ∧ p < 8 ∧ jj < 4 ∧ z < 8 ∧ z < 5) hwf
  have hc : clear 0xb8000031 [(21, 6), (17, 4), (14, 3), (12, 2), (1, 3)] = true := by decide
  have hf : fits [k, m, p, jj, z] [(21, 6), (17, 4), (14, 3), (12, 2), (1, 3)] := ⟨hwf.1, hwf.2.1, hwf.2.2.1, hwf.2.2.2.1, hwf.2.2.2.2.1, trivial⟩
  obtain ⟨e21, e17, e14, e12, e1, -⟩ := placed_reads hc hf
  have e4 : field _ 4 8 = 3 := placed_const (q := (4, 8)) hc hf (by decide)
  have e27 : field _ 27 5 = 23 := placed_const (q := (27, 5)) hc hf (by decide)
  rw [hw] at e21 e17 e14 e12 e1 e4 e27
  simp [decodeWord, decode32, decodeCopy, e1, e4, e12, e14, e17, e21, e27]
  omega

theorem rput (k m b q : Nat) : Statement (.rput k m b q) := by
  intro hwf nbits word he
  obtain ⟨rfl, hw⟩ := of_word (b := placed 0xb8000041 [k, m, b, q] [(21, 6), (17, 4), (12, 5), (1, 3)]) he
  have hwf := of_decide_eq_true (p := k < 64 ∧ m < 16 ∧ b < 32 ∧ q < 8) hwf
  have hc : clear 0xb8000041 [(21, 6), (17, 4), (12, 5), (1, 3)] = true := by decide
  have hf : fits [k, m, b, q] [(21, 6), (17, 4), (12, 5), (1, 3)] := ⟨hwf.1, hwf.2.1, hwf.2.2.1, hwf.2.2.2, trivial⟩
  obtain ⟨e21, e17, e12, e1, -⟩ := placed_reads hc hf
  have e4 : field _ 4 8 = 4 := placed_const (q := (4, 8)) hc hf (by decide)
  have e27 : field _ 27 5 = 23 := placed_const (q := (27, 5)) hc hf (by decide)
  rw [hw] at e21 e17 e12 e1 e4 e27
  simp [decodeWord, decode32, decodeCopy, e1, e4, e12, e17, e21, e27]

theorem gamoAdd (k m t w q : Nat) : Statement (.gamoAdd k m t w q) := by
  intro hwf nbits word he
  obtain ⟨rfl, hw⟩ := of_word (b := placed 0xb8000081 [k, m, t, w, q] [(21, 6), (17, 4), (13, 4), (12, 1), (1, 3)]) he
  have hwf := of_decide_eq_true (p := k < 64 ∧ m < 16 ∧ t < 16 ∧ w < 2 ∧ q < 8) hwf
  have hc : clear 0xb8000081 [(21, 6), (17, 4), (13, 4), (12, 1), (1, 3)] = true := by decide
  have hf : fits [k, m, t, w, q] [(21, 6), (17, 4), (13, 4), (12, 1), (1, 3)] := ⟨hwf.1, hwf.2.1, hwf.2.2.1, hwf.2.2.2.1, hwf.2.2.2.2, trivial⟩
  obtain ⟨e21, e17, e13, e12, e1, -⟩ := placed_reads hc hf
  have e4 : field _ 4 8 = 8 := placed_const (q := (4, 8)) hc hf (by decide)
  have e27 : field _ 27 5 = 23 := placed_const (q := (27, 5)) hc hf (by decide)
  rw [hw] at e21 e17 e13 e12 e1 e4 e27
  simp [decodeWord, decode32, decodeCopy, e1, e4, e12, e13, e17, e21, e27]

theorem gamoAnd (k m t w q : Nat) : Statement (.gamoAnd k m t w q) := by
  intro hwf nbits word he
  obtain ⟨rfl, hw⟩ := of_word (b := placed 0xb8000091 [k, m, t, w, q] [(21, 6), (17, 4), (13, 4), (12, 1), (1, 3)]) he
  have hwf := of_decide_eq_true (p := k < 64 ∧ m < 16 ∧ t < 16 ∧ w < 2 ∧ q < 8) hwf
  have hc : clear 0xb8000091 [(21, 6), (17, 4), (13, 4), (12, 1), (1, 3)] = true := by decide
  have hf : fits [k, m, t, w, q] [(21, 6), (17, 4), (13, 4), (12, 1), (1, 3)] := ⟨hwf.1, hwf.2.1, hwf.2.2.1, hwf.2.2.2.1, hwf.2.2.2.2, trivial⟩
  obtain ⟨e21, e17, e13, e12, e1, -⟩ := placed_reads hc hf
  have e4 : field _ 4 8 = 9 := placed_const (q := (4, 8)) hc hf (by decide)
  have e27 : field _ 27 5 = 23 := placed_const (q := (27, 5)) hc hf (by decide)
  rw [hw] at e21 e17 e13 e12 e1 e4 e27
  simp [decodeWord, decode32, decodeCopy, e1, e4, e12, e13, e17, e21, e27]

theorem gamoOr (k m t w q : Nat) : Statement (.gamoOr k m t w q) := by
  intro hwf nbits word he
  obtain ⟨rfl, hw⟩ := of_word (b := placed 0xb80000a1 [k, m, t, w, q] [(21, 6), (17, 4), (13, 4), (12, 1), (1, 3)]) he
  have hwf := of_decide_eq_true (p := k < 64 ∧ m < 16 ∧ t < 16 ∧ w < 2 ∧ q < 8) hwf
  have hc : clear 0xb80000a1 [(21, 6), (17, 4), (13, 4), (12, 1), (1, 3)] = true := by decide
  have hf : fits [k, m, t, w, q] [(21, 6), (17, 4), (13, 4), (12, 1), (1, 3)] := ⟨hwf.1, hwf.2.1, hwf.2.2.1, hwf.2.2.2.1, hwf.2.2.2.2, trivial⟩
  obtain ⟨e21, e17, e13, e12, e1, -⟩ := placed_reads hc hf
  have e4 : field _ 4 8 = 10 := placed_const (q := (4, 8)) hc hf (by decide)
  have e27 : field _ 27 5 = 23 := placed_const (q := (27, 5)) hc hf (by decide)
  rw [hw] at e21 e17 e13 e12 e1 e4 e27
  simp [decodeWord, decode32, decodeCopy, e1, e4, e12, e13, e17, e21, e27]

theorem gamoXor (k m t w q : Nat) : Statement (.gamoXor k m t w q) := by
  intro hwf nbits word he
  obtain ⟨rfl, hw⟩ := of_word (b := placed 0xb80000b1 [k, m, t, w, q] [(21, 6), (17, 4), (13, 4), (12, 1), (1, 3)]) he
  have hwf := of_decide_eq_true (p := k < 64 ∧ m < 16 ∧ t < 16 ∧ w < 2 ∧ q < 8) hwf
  have hc : clear 0xb80000b1 [(21, 6), (17, 4), (13, 4), (12, 1), (1, 3)] = true := by decide
  have hf : fits [k, m, t, w, q] [(21, 6), (17, 4), (13, 4), (12, 1), (1, 3)] := ⟨hwf.1, hwf.2.1, hwf.2.2.1, hwf.2.2.2.1, hwf.2.2.2.2, trivial⟩
  obtain ⟨e21, e17, e13, e12, e1, -⟩ := placed_reads hc hf
  have e4 : field _ 4 8 = 11 := placed_const (q := (4, 8)) hc hf (by decide)
  have e27 : field _ 27 5 = 23 := placed_const (q := (27, 5)) hc hf (by decide)
  rw [hw] at e21 e17 e13 e12 e1 e4 e27
  simp [decodeWord, decode32, decodeCopy, e1, e4, e12, e13, e17, e21, e27]

theorem gamoMin (k m t w q : Nat) : Statement (.gamoMin k m t w q) := by
  intro hwf nbits word he
  obtain ⟨rfl, hw⟩ := of_word (b := placed 0xb80000c1 [k, m, t, w, q] [(21, 6), (17, 4), (13, 4), (12, 1), (1, 3)]) he
  have hwf := of_decide_eq_true (p := k < 64 ∧ m < 16 ∧ t < 16 ∧ w < 2 ∧ q < 8) hwf
  have hc : clear 0xb80000c1 [(21, 6), (17, 4), (13, 4), (12, 1), (1, 3)] = true := by decide
  have hf : fits [k, m, t, w, q] [(21, 6), (17, 4), (13, 4), (12, 1), (1, 3)] := ⟨hwf.1, hwf.2.1, hwf.2.2.1, hwf.2.2.2.1, hwf.2.2.2.2, trivial⟩
  obtain ⟨e21, e17, e13, e12, e1, -⟩ := placed_reads hc hf
  have e4 : field _ 4 8 = 12 := placed_const (q := (4, 8)) hc hf (by decide)
  have e27 : field _ 27 5 = 23 := placed_const (q := (27, 5)) hc hf (by decide)
  rw [hw] at e21 e17 e13 e12 e1 e4 e27
  simp [decodeWord, decode32, decodeCopy, e1, e4, e12, e13, e17, e21, e27]

theorem gamoMax (k m t w q : Nat) : Statement (.gamoMax k m t w q) := by
  intro hwf nbits word he
  obtain ⟨rfl, hw⟩ := of_word (b := placed 0xb80000d1 [k, m, t, w, q] [(21, 6), (17, 4), (13, 4), (12, 1), (1, 3)]) he
  have hwf := of_decide_eq_true (p := k < 64 ∧ m < 16 ∧ t < 16 ∧ w < 2 ∧ q < 8) hwf
  have hc : clear 0xb80000d1 [(21, 6), (17, 4), (13, 4), (12, 1), (1, 3)] = true := by decide
  have hf : fits [k, m, t, w, q] [(21, 6), (17, 4), (13, 4), (12, 1), (1, 3)] := ⟨hwf.1, hwf.2.1, hwf.2.2.1, hwf.2.2.2.1, hwf.2.2.2.2, trivial⟩
  obtain ⟨e21, e17, e13, e12, e1, -⟩ := placed_reads hc hf
  have e4 : field _ 4 8 = 13 := placed_const (q := (4, 8)) hc hf (by decide)
  have e27 : field _ 27 5 = 23 := placed_const (q := (27, 5)) hc hf (by decide)
  rw [hw] at e21 e17 e13 e12 e1 e4 e27
  simp [decodeWord, decode32, decodeCopy, e1, e4, e12, e13, e17, e21, e27]

theorem gamoMinn (k m t w q : Nat) : Statement (.gamoMinn k m t w q) := by
  intro hwf nbits word he
  obtain ⟨rfl, hw⟩ := of_word (b := placed 0xb80000e1 [k, m, t, w, q] [(21, 6), (17, 4), (13, 4), (12, 1), (1, 3)]) he
  have hwf := of_decide_eq_true (p := k < 64 ∧ m < 16 ∧ t < 16 ∧ w < 2 ∧ q < 8) hwf
  have hc : clear 0xb80000e1 [(21, 6), (17, 4), (13, 4), (12, 1), (1, 3)] = true := by decide
  have hf : fits [k, m, t, w, q] [(21, 6), (17, 4), (13, 4), (12, 1), (1, 3)] := ⟨hwf.1, hwf.2.1, hwf.2.2.1, hwf.2.2.2.1, hwf.2.2.2.2, trivial⟩
  obtain ⟨e21, e17, e13, e12, e1, -⟩ := placed_reads hc hf
  have e4 : field _ 4 8 = 14 := placed_const (q := (4, 8)) hc hf (by decide)
  have e27 : field _ 27 5 = 23 := placed_const (q := (27, 5)) hc hf (by decide)
  rw [hw] at e21 e17 e13 e12 e1 e4 e27
  simp [decodeWord, decode32, decodeCopy, e1, e4, e12, e13, e17, e21, e27]

theorem gamoMaxn (k m t w q : Nat) : Statement (.gamoMaxn k m t w q) := by
  intro hwf nbits word he
  obtain ⟨rfl, hw⟩ := of_word (b := placed 0xb80000f1 [k, m, t, w, q] [(21, 6), (17, 4), (13, 4), (12, 1), (1, 3)]) he
  have hwf := of_decide_eq_true (p := k < 64 ∧ m < 16 ∧ t < 16 ∧ w < 2 ∧ q < 8) hwf
  have hc : clear 0xb80000f1 [(21, 6), (17, 4), (13, 4), (12, 1), (1, 3)] = true := by decide
  have hf : fits [k, m, t, w, q] [(21, 6), (17, 4), (13, 4), (12, 1), (1, 3)] := ⟨hwf.1, hwf.2.1, hwf.2.2.1, hwf.2.2.2.1, hwf.2.2.2.2, trivial⟩
  obtain ⟨e21, e17, e13, e12, e1, -⟩ := placed_reads hc hf
  have e4 : field _ 4 8 = 15 := placed_const (q := (4, 8)) hc hf (by decide)
  have e27 : field _ 27 5 = 23 := placed_const (q := (27, 5)) hc hf (by decide)
  rw [hw] at e21 e17 e13 e12 e1 e4 e27
  simp [decodeWord, decode32, decodeCopy, e1, e4, e12, e13, e17, e21, e27]

theorem gamoSwap (k m t w q : Nat) : Statement (.gamoSwap k m t w q) := by
  intro hwf nbits word he
  obtain ⟨rfl, hw⟩ := of_word (b := placed 0xb8000101 [k, m, t, w, q] [(21, 6), (17, 4), (13, 4), (12, 1), (1, 3)]) he
  have hwf := of_decide_eq_true (p := k < 64 ∧ m < 16 ∧ t < 16 ∧ w < 2 ∧ q < 8) hwf
  have hc : clear 0xb8000101 [(21, 6), (17, 4), (13, 4), (12, 1), (1, 3)] = true := by decide
  have hf : fits [k, m, t, w, q] [(21, 6), (17, 4), (13, 4), (12, 1), (1, 3)] := ⟨hwf.1, hwf.2.1, hwf.2.2.1, hwf.2.2.2.1, hwf.2.2.2.2, trivial⟩
  obtain ⟨e21, e17, e13, e12, e1, -⟩ := placed_reads hc hf
  have e4 : field _ 4 8 = 16 := placed_const (q := (4, 8)) hc hf (by decide)
  have e27 : field _ 27 5 = 23 := placed_const (q := (27, 5)) hc hf (by decide)
  rw [hw] at e21 e17 e13 e12 e1 e4 e27
  simp [decodeWord, decode32, decodeCopy, e1, e4, e12, e13, e17, e21, e27]

theorem kadd (a b q : Nat) : Statement (.kadd a b q) := by
  intro hwf nbits word he
  obtain ⟨rfl, hw⟩ := of_word (b := placed 0xb8000201 [a, b, q] [(17, 5), (12, 5), (1, 3)]) he
  have hwf := of_decide_eq_true (p := a < 32 ∧ b < 32 ∧ q < 8) hwf
  have hc : clear 0xb8000201 [(17, 5), (12, 5), (1, 3)] = true := by decide
  have hf : fits [a, b, q] [(17, 5), (12, 5), (1, 3)] := ⟨hwf.1, hwf.2.1, hwf.2.2, trivial⟩
  obtain ⟨e17, e12, e1, -⟩ := placed_reads hc hf
  have e4 : field _ 4 8 = 32 := placed_const (q := (4, 8)) hc hf (by decide)
  have e22 : field _ 22 5 = 0 := placed_const (q := (22, 5)) hc hf (by decide)
  have e27 : field _ 27 5 = 23 := placed_const (q := (27, 5)) hc hf (by decide)
  rw [hw] at e17 e12 e1 e4 e22 e27
  simp [decodeWord, decode32, decodeCopy, unlessReserved, e1, e4, e12, e17, e22, e27]

theorem kset (k r : Nat) : Statement (.kset k r) := by
  intro hwf nbits word he
  obtain ⟨rfl, hw⟩ := of_word (b := placed 0xb8000211 [k, r] [(21, 6), (16, 5)]) he
  have hwf := of_decide_eq_true (p := k < 64 ∧ r < 32) hwf
  have hc : clear 0xb8000211 [(21, 6), (16, 5)] = true := by decide
  have hf : fits [k, r] [(21, 6), (16, 5)] := ⟨hwf.1, hwf.2, trivial⟩
  obtain ⟨e21, e16, -⟩ := placed_reads hc hf
  have e1 : field _ 1 3 = 0 := placed_const (q := (1, 3)) hc hf (by decide)
  have e4 : field _ 4 8 = 33 := placed_const (q := (4, 8)) hc hf (by decide)
  have e12 : field _ 12 4 = 0 := placed_const (q := (12, 4)) hc hf (by decide)
  have e27 : field _ 27 5 = 23 := placed_const (q := (27, 5)) hc hf (by decide)
  rw [hw] at e21 e16 e1 e4 e12 e27
  simp [decodeWord, decode32, decodeCopy, unlessReserved, e1, e4, e12, e16, e21, e27]

theorem kread (k r : Nat) : Statement (.kread k r) := by
  intro hwf nbits word he
  obtain ⟨rfl, hw⟩ := of_word (b := placed 0xb8000221 [k, r] [(21, 6), (16, 5)]) he
  have hwf := of_decide_eq_true (p := k < 64 ∧ r < 32) hwf
  have hc : clear 0xb8000221 [(21, 6), (16, 5)] = true := by decide
  have hf : fits [k, r] [(21, 6), (16, 5)] := ⟨hwf.1, hwf.2, trivial⟩
  obtain ⟨e21, e16, -⟩ := placed_reads hc hf
  have e1 : field _ 1 3 = 0 := placed_const (q := (1, 3)) hc hf (by decide)
  have e4 : field _ 4 8 = 34 := placed_const (q := (4, 8)) hc hf (by decide)
  have e12 : field _ 12 4 = 0 := placed_const (q := (12, 4)) hc hf (by decide)
  have e27 : field _ 27 5 = 23 := placed_const (q := (27, 5)) hc hf (by decide)
  rw [hw] at e21 e16 e1 e4 e12 e27
  simp [decodeWord, decode32, decodeCopy, unlessReserved, e1, e4, e12, e16, e21, e27]

theorem tierpf (k m r q : Nat) : Statement (.tierpf k m r q) := by
  intro hwf nbits word he
  obtain ⟨rfl, hw⟩ := of_word (b := placed 0xb8000281 [k, m, r, q] [(21, 6), (17, 4), (12, 1), (1, 3)]) he
  have hwf := of_decide_eq_true (p := k < 64 ∧ m < 16 ∧ r < 2 ∧ q < 8) hwf
  have hc : clear 0xb8000281 [(21, 6), (17, 4), (12, 1), (1, 3)] = true := by decide
  have hf : fits [k, m, r, q] [(21, 6), (17, 4), (12, 1), (1, 3)] := ⟨hwf.1, hwf.2.1, hwf.2.2.1, hwf.2.2.2, trivial⟩
  obtain ⟨e21, e17, e12, e1, -⟩ := placed_reads hc hf
  have e4 : field _ 4 8 = 40 := placed_const (q := (4, 8)) hc hf (by decide)
  have e13 : field _ 13 4 = 0 := placed_const (q := (13, 4)) hc hf (by decide)
  have e27 : field _ 27 5 = 23 := placed_const (q := (27, 5)) hc hf (by decide)
  rw [hw] at e21 e17 e12 e1 e4 e13 e27
  simp [decodeWord, decode32, decodeCopy, unlessReserved, e1, e4, e12, e13, e17, e21, e27]

theorem qstat (d : Nat) : Statement (.qstat d) := by
  intro hwf nbits word he
  obtain ⟨rfl, hw⟩ := of_word (b := placed 0xb8000301 [d] [(22, 5)]) he
  have hwf := of_decide_eq_true (p := d < 32) hwf
  have hc : clear 0xb8000301 [(22, 5)] = true := by decide
  have hf : fits [d] [(22, 5)] := ⟨hwf, trivial⟩
  obtain ⟨e22, -⟩ := placed_reads hc hf
  have e1 : field _ 1 3 = 0 := placed_const (q := (1, 3)) hc hf (by decide)
  have e4 : field _ 4 8 = 48 := placed_const (q := (4, 8)) hc hf (by decide)
  have e12 : field _ 12 10 = 0 := placed_const (q := (12, 10)) hc hf (by decide)
  have e27 : field _ 27 5 = 23 := placed_const (q := (27, 5)) hc hf (by decide)
  rw [hw] at e22 e1 e4 e12 e27
  simp [decodeWord, decode32, decodeCopy, unlessReserved, e1, e4, e12, e22, e27]

theorem bind (d a b q : Nat) : Statement (.bind d a b q) := by
  intro hwf nbits word he
  obtain ⟨rfl, hw⟩ := of_word (b := placed 0xc0000001 [d, a, b, q] [(22, 5), (17, 5), (12, 5), (1, 3)]) he
  have hwf := of_decide_eq_true (p := d < 32 ∧ a < 32 ∧ b < 32 ∧ q < 8) hwf
  have hc : clear 0xc0000001 [(22, 5), (17, 5), (12, 5), (1, 3)] = true := by decide
  have hf : fits [d, a, b, q] [(22, 5), (17, 5), (12, 5), (1, 3)] := ⟨hwf.1, hwf.2.1, hwf.2.2.1, hwf.2.2.2, trivial⟩
  obtain ⟨e22, e17, e12, e1, -⟩ := placed_reads hc hf
  have e4 : field _ 4 8 = 0 := placed_const (q := (4, 8)) hc hf (by decide)
  have e27 : field _ 27 5 = 24 := placed_const (q := (27, 5)) hc hf (by decide)
  rw [hw] at e22 e17 e12 e1 e4 e27
  simp [decodeWord, decode32, decodeOrder, e1, e4, e12, e17, e22, e27]

theorem unbind (d a b q : Nat) : Statement (.unbind d a b q) := by
  intro hwf nbits word he
  obtain ⟨rfl, hw⟩ := of_word (b := placed 0xc0000011 [d, a, b, q] [(22, 5), (17, 5), (12, 5), (1, 3)]) he
  have hwf := of_decide_eq_true (p := d < 32 ∧ a < 32 ∧ b < 32 ∧ q < 8) hwf
  have hc : clear 0xc0000011 [(22, 5), (17, 5), (12, 5), (1, 3)] = true := by decide
  have hf : fits [d, a, b, q] [(22, 5), (17, 5), (12, 5), (1, 3)] := ⟨hwf.1, hwf.2.1, hwf.2.2.1, hwf.2.2.2, trivial⟩
  obtain ⟨e22, e17, e12, e1, -⟩ := placed_reads hc hf
  have e4 : field _ 4 8 = 1 := placed_const (q := (4, 8)) hc hf (by decide)
  have e27 : field _ 27 5 = 24 := placed_const (q := (27, 5)) hc hf (by decide)
  rw [hw] at e22 e17 e12 e1 e4 e27
  simp [decodeWord, decode32, decodeOrder, e1, e4, e12, e17, e22, e27]

theorem acqX (a b : Nat) : Statement (.acqX a b) := by
  intro hwf nbits word he
  obtain ⟨rfl, hw⟩ := of_word (b := placed 0xc0000021 [a, b] [(17, 5), (12, 5)]) he
  have hwf := of_decide_eq_true (p := a < 32 ∧ b < 32) hwf
  have hc : clear 0xc0000021 [(17, 5), (12, 5)] = true := by decide
  have hf : fits [a, b] [(17, 5), (12, 5)] := ⟨hwf.1, hwf.2, trivial⟩
  obtain ⟨e17, e12, -⟩ := placed_reads hc hf
  have e1 : field _ 1 3 = 0 := placed_const (q := (1, 3)) hc hf (by decide)
  have e4 : field _ 4 8 = 2 := placed_const (q := (4, 8)) hc hf (by decide)
  have e22 : field _ 22 5 = 0 := placed_const (q := (22, 5)) hc hf (by decide)
  have e27 : field _ 27 5 = 24 := placed_const (q := (27, 5)) hc hf (by decide)
  rw [hw] at e17 e12 e1 e4 e22 e27
  simp [decodeWord, decode32, decodeOrder, unlessReserved, e1, e4, e12, e17, e22, e27]

theorem acqS (a b : Nat) : Statement (.acqS a b) := by
  intro hwf nbits word he
  obtain ⟨rfl, hw⟩ := of_word (b := placed 0xc0000031 [a, b] [(17, 5), (12, 5)]) he
  have hwf := of_decide_eq_true (p := a < 32 ∧ b < 32) hwf
  have hc : clear 0xc0000031 [(17, 5), (12, 5)] = true := by decide
  have hf : fits [a, b] [(17, 5), (12, 5)] := ⟨hwf.1, hwf.2, trivial⟩
  obtain ⟨e17, e12, -⟩ := placed_reads hc hf
  have e1 : field _ 1 3 = 0 := placed_const (q := (1, 3)) hc hf (by decide)
  have e4 : field _ 4 8 = 3 := placed_const (q := (4, 8)) hc hf (by decide)
  have e22 : field _ 22 5 = 0 := placed_const (q := (22, 5)) hc hf (by decide)
  have e27 : field _ 27 5 = 24 := placed_const (q := (27, 5)) hc hf (by decide)
  rw [hw] at e17 e12 e1 e4 e22 e27
  simp [decodeWord, decode32, decodeOrder, unlessReserved, e1, e4, e12, e17, e22, e27]

theorem rel (a : Nat) : Statement (.rel a) := by
  intro hwf nbits word he
  obtain ⟨rfl, hw⟩ := of_word (b := placed 0xc0000041 [a] [(17, 5)]) he
  have hwf := of_decide_eq_true (p := a < 32) hwf
  have hc : clear 0xc0000041 [(17, 5)] = true := by decide
  have hf : fits [a] [(17, 5)] := ⟨hwf, trivial⟩
  obtain ⟨e17, -⟩ := placed_reads hc hf
  have e1 : field _ 1 3 = 0 := placed_const (q := (1, 3)) hc hf (by decide)
  have e4 : field _ 4 8 = 4 := placed_const (q := (4, 8)) hc hf (by decide)
  have e12 : field _ 12 5 = 0 := placed_const (q := (12, 5)) hc hf (by decide)
  have e22 : field _ 22 5 = 0 := placed_const (q := (22, 5)) hc hf (by decide)
  have e27 : field _ 27 5 = 24 := placed_const (q := (27, 5)) hc hf (by decide)
  rw [hw] at e17 e1 e4 e12 e22 e27
  simp [decodeWord, decode32, decodeOrder, unlessReserved, e1, e4, e12, e17, e22, e27]

theorem waitn (a : Nat) : Statement (.waitn a) := by
  intro hwf nbits word he
  obtain ⟨rfl, hw⟩ := of_word (b := placed 0xc0000101 [a] [(17, 5)]) he
  have hwf := of_decide_eq_true (p := a < 32) hwf
  have hc : clear 0xc0000101 [(17, 5)] = true := by decide
  have hf : fits [a] [(17, 5)] := ⟨hwf, trivial⟩
  obtain ⟨e17, -⟩ := placed_reads hc hf
  have e1 : field _ 1 3 = 0 := placed_const (q := (1, 3)) hc hf (by decide)
  have e4 : field _ 4 8 = 16 := placed_const (q := (4, 8)) hc hf (by decide)
  have e12 : field _ 12 5 = 0 := placed_const (q := (12, 5)) hc hf (by decide)
  have e22 : field _ 22 5 = 0 := placed_const (q := (22, 5)) hc hf (by decide)
  have e27 : field _ 27 5 = 24 := placed_const (q := (27, 5)) hc hf (by decide)
  rw [hw] at e17 e1 e4 e12 e22 e27
  simp [decodeWord, decode32, decodeOrder, unlessReserved, e1, e4, e12, e17, e22, e27]

theorem waitc (k r : Nat) : Statement (.waitc k r) := by
  intro hwf nbits word he
  obtain ⟨rfl, hw⟩ := of_word (b := placed 0xc0000111 [k, r] [(21, 6), (16, 5)]) he
  have hwf := of_decide_eq_true (p := k < 64 ∧ r < 32) hwf
  have hc : clear 0xc0000111 [(21, 6), (16, 5)] = true := by decide
  have hf : fits [k, r] [(21, 6), (16, 5)] := ⟨hwf.1, hwf.2, trivial⟩
  obtain ⟨e21, e16, -⟩ := placed_reads hc hf
  have e1 : field _ 1 3 = 0 := placed_const (q := (1, 3)) hc hf (by decide)
  have e4 : field _ 4 8 = 17 := placed_const (q := (4, 8)) hc hf (by decide)
  have e12 : field _ 12 4 = 0 := placed_const (q := (12, 4)) hc hf (by decide)
  have e27 : field _ 27 5 = 24 := placed_const (q := (27, 5)) hc hf (by decide)
  rw [hw] at e21 e16 e1 e4 e12 e27
  simp [decodeWord, decode32, decodeOrder, unlessReserved, e1, e4, e12, e16, e21, e27]

theorem rcas (d a b q : Nat) : Statement (.rcas d a b q) := by
  intro hwf nbits word he
  obtain ⟨rfl, hw⟩ := of_word (b := placed 0xc0000181 [d, a, b, q] [(22, 5), (17, 5), (12, 5), (1, 3)]) he
  have hwf := of_decide_eq_true (p := d < 32 ∧ a < 32 ∧ b < 32 ∧ q < 8 ∧ (q = 2 ∨ q = 3 ∨ q = 6 ∨ q = 7)) hwf
  have hc : clear 0xc0000181 [(22, 5), (17, 5), (12, 5), (1, 3)] = true := by decide
  have hf : fits [d, a, b, q] [(22, 5), (17, 5), (12, 5), (1, 3)] := ⟨hwf.1, hwf.2.1, hwf.2.2.1, hwf.2.2.2.1, trivial⟩
  obtain ⟨e22, e17, e12, e1, -⟩ := placed_reads hc hf
  have e4 : field _ 4 8 = 24 := placed_const (q := (4, 8)) hc hf (by decide)
  have e27 : field _ 27 5 = 24 := placed_const (q := (27, 5)) hc hf (by decide)
  rw [hw] at e22 e17 e12 e1 e4 e27
  simp [decodeWord, decode32, decodeOrder, e1, e4, e12, e17, e22, e27]
  omega

theorem ramoAdd (d a b q : Nat) : Statement (.ramoAdd d a b q) := by
  intro hwf nbits word he
  obtain ⟨rfl, hw⟩ := of_word (b := placed 0xc0000201 [d, a, b, q] [(22, 5), (17, 5), (12, 5), (1, 3)]) he
  have hwf := of_decide_eq_true (p := d < 32 ∧ a < 32 ∧ b < 32 ∧ q < 8 ∧ (q = 2 ∨ q = 3 ∨ q = 6 ∨ q = 7)) hwf
  have hc : clear 0xc0000201 [(22, 5), (17, 5), (12, 5), (1, 3)] = true := by decide
  have hf : fits [d, a, b, q] [(22, 5), (17, 5), (12, 5), (1, 3)] := ⟨hwf.1, hwf.2.1, hwf.2.2.1, hwf.2.2.2.1, trivial⟩
  obtain ⟨e22, e17, e12, e1, -⟩ := placed_reads hc hf
  have e4 : field _ 4 8 = 32 := placed_const (q := (4, 8)) hc hf (by decide)
  have e27 : field _ 27 5 = 24 := placed_const (q := (27, 5)) hc hf (by decide)
  rw [hw] at e22 e17 e12 e1 e4 e27
  simp [decodeWord, decode32, decodeOrder, e1, e4, e12, e17, e22, e27]
  omega

theorem ramoAnd (d a b q : Nat) : Statement (.ramoAnd d a b q) := by
  intro hwf nbits word he
  obtain ⟨rfl, hw⟩ := of_word (b := placed 0xc0000211 [d, a, b, q] [(22, 5), (17, 5), (12, 5), (1, 3)]) he
  have hwf := of_decide_eq_true (p := d < 32 ∧ a < 32 ∧ b < 32 ∧ q < 8 ∧ (q = 2 ∨ q = 3 ∨ q = 6 ∨ q = 7)) hwf
  have hc : clear 0xc0000211 [(22, 5), (17, 5), (12, 5), (1, 3)] = true := by decide
  have hf : fits [d, a, b, q] [(22, 5), (17, 5), (12, 5), (1, 3)] := ⟨hwf.1, hwf.2.1, hwf.2.2.1, hwf.2.2.2.1, trivial⟩
  obtain ⟨e22, e17, e12, e1, -⟩ := placed_reads hc hf
  have e4 : field _ 4 8 = 33 := placed_const (q := (4, 8)) hc hf (by decide)
  have e27 : field _ 27 5 = 24 := placed_const (q := (27, 5)) hc hf (by decide)
  rw [hw] at e22 e17 e12 e1 e4 e27
  simp [decodeWord, decode32, decodeOrder, e1, e4, e12, e17, e22, e27]
  omega

theorem ramoOr (d a b q : Nat) : Statement (.ramoOr d a b q) := by
  intro hwf nbits word he
  obtain ⟨rfl, hw⟩ := of_word (b := placed 0xc0000221 [d, a, b, q] [(22, 5), (17, 5), (12, 5), (1, 3)]) he
  have hwf := of_decide_eq_true (p := d < 32 ∧ a < 32 ∧ b < 32 ∧ q < 8 ∧ (q = 2 ∨ q = 3 ∨ q = 6 ∨ q = 7)) hwf
  have hc : clear 0xc0000221 [(22, 5), (17, 5), (12, 5), (1, 3)] = true := by decide
  have hf : fits [d, a, b, q] [(22, 5), (17, 5), (12, 5), (1, 3)] := ⟨hwf.1, hwf.2.1, hwf.2.2.1, hwf.2.2.2.1, trivial⟩
  obtain ⟨e22, e17, e12, e1, -⟩ := placed_reads hc hf
  have e4 : field _ 4 8 = 34 := placed_const (q := (4, 8)) hc hf (by decide)
  have e27 : field _ 27 5 = 24 := placed_const (q := (27, 5)) hc hf (by decide)
  rw [hw] at e22 e17 e12 e1 e4 e27
  simp [decodeWord, decode32, decodeOrder, e1, e4, e12, e17, e22, e27]
  omega

theorem ramoXor (d a b q : Nat) : Statement (.ramoXor d a b q) := by
  intro hwf nbits word he
  obtain ⟨rfl, hw⟩ := of_word (b := placed 0xc0000231 [d, a, b, q] [(22, 5), (17, 5), (12, 5), (1, 3)]) he
  have hwf := of_decide_eq_true (p := d < 32 ∧ a < 32 ∧ b < 32 ∧ q < 8 ∧ (q = 2 ∨ q = 3 ∨ q = 6 ∨ q = 7)) hwf
  have hc : clear 0xc0000231 [(22, 5), (17, 5), (12, 5), (1, 3)] = true := by decide
  have hf : fits [d, a, b, q] [(22, 5), (17, 5), (12, 5), (1, 3)] := ⟨hwf.1, hwf.2.1, hwf.2.2.1, hwf.2.2.2.1, trivial⟩
  obtain ⟨e22, e17, e12, e1, -⟩ := placed_reads hc hf
  have e4 : field _ 4 8 = 35 := placed_const (q := (4, 8)) hc hf (by decide)
  have e27 : field _ 27 5 = 24 := placed_const (q := (27, 5)) hc hf (by decide)
  rw [hw] at e22 e17 e12 e1 e4 e27
  simp [decodeWord, decode32, decodeOrder, e1, e4, e12, e17, e22, e27]
  omega

theorem ramoMin (d a b q : Nat) : Statement (.ramoMin d a b q) := by
  intro hwf nbits word he
  obtain ⟨rfl, hw⟩ := of_word (b := placed 0xc0000241 [d, a, b, q] [(22, 5), (17, 5), (12, 5), (1, 3)]) he
  have hwf := of_decide_eq_true (p := d < 32 ∧ a < 32 ∧ b < 32 ∧ q < 8 ∧ (q = 2 ∨ q = 3 ∨ q = 6 ∨ q = 7)) hwf
  have hc : clear 0xc0000241 [(22, 5), (17, 5), (12, 5), (1, 3)] = true := by decide
  have hf : fits [d, a, b, q] [(22, 5), (17, 5), (12, 5), (1, 3)] := ⟨hwf.1, hwf.2.1, hwf.2.2.1, hwf.2.2.2.1, trivial⟩
  obtain ⟨e22, e17, e12, e1, -⟩ := placed_reads hc hf
  have e4 : field _ 4 8 = 36 := placed_const (q := (4, 8)) hc hf (by decide)
  have e27 : field _ 27 5 = 24 := placed_const (q := (27, 5)) hc hf (by decide)
  rw [hw] at e22 e17 e12 e1 e4 e27
  simp [decodeWord, decode32, decodeOrder, e1, e4, e12, e17, e22, e27]
  omega

theorem ramoMax (d a b q : Nat) : Statement (.ramoMax d a b q) := by
  intro hwf nbits word he
  obtain ⟨rfl, hw⟩ := of_word (b := placed 0xc0000251 [d, a, b, q] [(22, 5), (17, 5), (12, 5), (1, 3)]) he
  have hwf := of_decide_eq_true (p := d < 32 ∧ a < 32 ∧ b < 32 ∧ q < 8 ∧ (q = 2 ∨ q = 3 ∨ q = 6 ∨ q = 7)) hwf
  have hc : clear 0xc0000251 [(22, 5), (17, 5), (12, 5), (1, 3)] = true := by decide
  have hf : fits [d, a, b, q] [(22, 5), (17, 5), (12, 5), (1, 3)] := ⟨hwf.1, hwf.2.1, hwf.2.2.1, hwf.2.2.2.1, trivial⟩
  obtain ⟨e22, e17, e12, e1, -⟩ := placed_reads hc hf
  have e4 : field _ 4 8 = 37 := placed_const (q := (4, 8)) hc hf (by decide)
  have e27 : field _ 27 5 = 24 := placed_const (q := (27, 5)) hc hf (by decide)
  rw [hw] at e22 e17 e12 e1 e4 e27
  simp [decodeWord, decode32, decodeOrder, e1, e4, e12, e17, e22, e27]
  omega

theorem ramoMinn (d a b q : Nat) : Statement (.ramoMinn d a b q) := by
  intro hwf nbits word he
  obtain ⟨rfl, hw⟩ := of_word (b := placed 0xc0000261 [d, a, b, q] [(22, 5), (17, 5), (12, 5), (1, 3)]) he
  have hwf := of_decide_eq_true (p := d < 32 ∧ a < 32 ∧ b < 32 ∧ q < 8 ∧ (q = 2 ∨ q = 3 ∨ q = 6 ∨ q = 7)) hwf
  have hc : clear 0xc0000261 [(22, 5), (17, 5), (12, 5), (1, 3)] = true := by decide
  have hf : fits [d, a, b, q] [(22, 5), (17, 5), (12, 5), (1, 3)] := ⟨hwf.1, hwf.2.1, hwf.2.2.1, hwf.2.2.2.1, trivial⟩
  obtain ⟨e22, e17, e12, e1, -⟩ := placed_reads hc hf
  have e4 : field _ 4 8 = 38 := placed_const (q := (4, 8)) hc hf (by decide)
  have e27 : field _ 27 5 = 24 := placed_const (q := (27, 5)) hc hf (by decide)
  rw [hw] at e22 e17 e12 e1 e4 e27
  simp [decodeWord, decode32, decodeOrder, e1, e4, e12, e17, e22, e27]
  omega

theorem ramoMaxn (d a b q : Nat) : Statement (.ramoMaxn d a b q) := by
  intro hwf nbits word he
  obtain ⟨rfl, hw⟩ := of_word (b := placed 0xc0000271 [d, a, b, q] [(22, 5), (17, 5), (12, 5), (1, 3)]) he
  have hwf := of_decide_eq_true (p := d < 32 ∧ a < 32 ∧ b < 32 ∧ q < 8 ∧ (q = 2 ∨ q = 3 ∨ q = 6 ∨ q = 7)) hwf
  have hc : clear 0xc0000271 [(22, 5), (17, 5), (12, 5), (1, 3)] = true := by decide
  have hf : fits [d, a, b, q] [(22, 5), (17, 5), (12, 5), (1, 3)] := ⟨hwf.1, hwf.2.1, hwf.2.2.1, hwf.2.2.2.1, trivial⟩
  obtain ⟨e22, e17, e12, e1, -⟩ := placed_reads hc hf
  have e4 : field _ 4 8 = 39 := placed_const (q := (4, 8)) hc hf (by decide)
  have e27 : field _ 27 5 = 24 := placed_const (q := (27, 5)) hc hf (by decide)
  rw [hw] at e22 e17 e12 e1 e4 e27
  simp [decodeWord, decode32, decodeOrder, e1, e4, e12, e17, e22, e27]
  omega

theorem ramoSwap (d a b q : Nat) : Statement (.ramoSwap d a b q) := by
  intro hwf nbits word he
  obtain ⟨rfl, hw⟩ := of_word (b := placed 0xc0000281 [d, a, b, q] [(22, 5), (17, 5), (12, 5), (1, 3)]) he
  have hwf := of_decide_eq_true (p := d < 32 ∧ a < 32 ∧ b < 32 ∧ q < 8 ∧ (q = 2 ∨ q = 3 ∨ q = 6 ∨ q = 7)) hwf
  have hc : clear 0xc0000281 [(22, 5), (17, 5), (12, 5), (1, 3)] = true := by decide
  have hf : fits [d, a, b, q] [(22, 5), (17, 5), (12, 5), (1, 3)] := ⟨hwf.1, hwf.2.1, hwf.2.2.1, hwf.2.2.2.1, trivial⟩
  obtain ⟨e22, e17, e12, e1, -⟩ := placed_reads hc hf
  have e4 : field _ 4 8 = 40 := placed_const (q := (4, 8)) hc hf (by decide)
  have e27 : field _ 27 5 = 24 := placed_const (q := (27, 5)) hc hf (by decide)
  rw [hw] at e22 e17 e12 e1 e4 e27
  simp [decodeWord, decode32, decodeOrder, e1, e4, e12, e17, e22, e27]
  omega

theorem iflush (k a s q : Nat) : Statement (.iflush k a s q) := by
  intro hwf nbits word he
  obtain ⟨rfl, hw⟩ := of_word (b := placed 0xc0000301 [k, a, s, q] [(21, 6), (16, 5), (14, 2), (1, 3)]) he
  have hwf := of_decide_eq_true (p := k < 64 ∧ a < 32 ∧ s < 4 ∧ q < 8) hwf
  have hc : clear 0xc0000301 [(21, 6), (16, 5), (14, 2), (1, 3)] = true := by decide
  have hf : fits [k, a, s, q] [(21, 6), (16, 5), (14, 2), (1, 3)] := ⟨hwf.1, hwf.2.1, hwf.2.2.1, hwf.2.2.2, trivial⟩
  obtain ⟨e21, e16, e14, e1, -⟩ := placed_reads hc hf
  have e4 : field _ 4 8 = 48 := placed_const (q := (4, 8)) hc hf (by decide)
  have e12 : field _ 12 2 = 0 := placed_const (q := (12, 2)) hc hf (by decide)
  have e27 : field _ 27 5 = 24 := placed_const (q := (27, 5)) hc hf (by decide)
  rw [hw] at e21 e16 e14 e1 e4 e12 e27
  simp [decodeWord, decode32, decodeOrder, unlessReserved, e1, e4, e12, e14, e16, e21, e27]

theorem mldw (a q : Nat) : Statement (.mldw a q) := by
  intro hwf nbits word he
  obtain ⟨rfl, hw⟩ := of_word (b := placed 0xc8000001 [a, q] [(17, 5), (1, 3)]) he
  have hwf := of_decide_eq_true (p := a < 32 ∧ q < 8) hwf
  have hc : clear 0xc8000001 [(17, 5), (1, 3)] = true := by decide
  have hf : fits [a, q] [(17, 5), (1, 3)] := ⟨hwf.1, hwf.2, trivial⟩
  obtain ⟨e17, e1, -⟩ := placed_reads hc hf
  have e4 : field _ 4 8 = 0 := placed_const (q := (4, 8)) hc hf (by decide)
  have e12 : field _ 12 5 = 0 := placed_const (q := (12, 5)) hc hf (by decide)
  have e22 : field _ 22 5 = 0 := placed_const (q := (22, 5)) hc hf (by decide)
  have e27 : field _ 27 5 = 25 := placed_const (q := (27, 5)) hc hf (by decide)
  rw [hw] at e17 e1 e4 e12 e22 e27
  simp [decodeWord, decode32, decodeMatrix, unlessReserved, e1, e4, e12, e17, e22, e27]

theorem mstream (d a b q : Nat) : Statement (.mstream d a b q) := by
  intro hwf nbits word he
  obtain ⟨rfl, hw⟩ := of_word (b := placed 0xc8000021 [d, a, b, q] [(22, 3), (17, 5), (12, 5), (1, 3)]) he
  have hwf := of_decide_eq_true (p := d < 8 ∧ a < 32 ∧ b < 32 ∧ q < 8) hwf
  have hc : clear 0xc8000021 [(22, 3), (17, 5), (12, 5), (1, 3)] = true := by decide
  have hf : fits [d, a, b, q] [(22, 3), (17, 5), (12, 5), (1, 3)] := ⟨hwf.1, hwf.2.1, hwf.2.2.1, hwf.2.2.2, trivial⟩
  obtain ⟨e22, e17, e12, e1, -⟩ := placed_reads hc hf
  have e4 : field _ 4 8 = 2 := placed_const (q := (4, 8)) hc hf (by decide)
  have e25 : field _ 25 2 = 0 := placed_const (q := (25, 2)) hc hf (by decide)
  have e27 : field _ 27 5 = 25 := placed_const (q := (27, 5)) hc hf (by decide)
  rw [hw] at e22 e17 e12 e1 e4 e25 e27
  simp [decodeWord, decode32, decodeMatrix, unlessReserved, e1, e4, e12, e17, e22, e25, e27]

theorem mstreams (d a b q : Nat) : Statement (.mstreams d a b q) := by
  intro hwf nbits word he
  obtain ⟨rfl, hw⟩ := of_word (b := placed 0xc8000031 [d, a, b, q] [(22, 3), (17, 5), (12, 5), (1, 3)]) he
  have hwf := of_decide_eq_true (p := d < 8 ∧ a < 32 ∧ b < 32 ∧ q < 8) hwf
  have hc : clear 0xc8000031 [(22, 3), (17, 5), (12, 5), (1, 3)] = true := by decide
  have hf : fits [d, a, b, q] [(22, 3), (17, 5), (12, 5), (1, 3)] := ⟨hwf.1, hwf.2.1, hwf.2.2.1, hwf.2.2.2, trivial⟩
  obtain ⟨e22, e17, e12, e1, -⟩ := placed_reads hc hf
  have e4 : field _ 4 8 = 3 := placed_const (q := (4, 8)) hc hf (by decide)
  have e25 : field _ 25 2 = 0 := placed_const (q := (25, 2)) hc hf (by decide)
  have e27 : field _ 27 5 = 25 := placed_const (q := (27, 5)) hc hf (by decide)
  rw [hw] at e22 e17 e12 e1 e4 e25 e27
  simp [decodeWord, decode32, decodeMatrix, unlessReserved, e1, e4, e12, e17, e22, e25, e27]

theorem mstreamd (d a b q : Nat) : Statement (.mstreamd d a b q) := by
  intro hwf nbits word he
  obtain ⟨rfl, hw⟩ := of_word (b := placed 0xc8000041 [d, a, b, q] [(22, 3), (17, 5), (12, 5), (1, 3)]) he
  have hwf := of_decide_eq_true (p := d < 8 ∧ a < 32 ∧ b < 32 ∧ q < 8) hwf
  have hc : clear 0xc8000041 [(22, 3), (17, 5), (12, 5), (1, 3)] = true := by decide
  have hf : fits [d, a, b, q] [(22, 3), (17, 5), (12, 5), (1, 3)] := ⟨hwf.1, hwf.2.1, hwf.2.2.1, hwf.2.2.2, trivial⟩
  obtain ⟨e22, e17, e12, e1, -⟩ := placed_reads hc hf
  have e4 : field _ 4 8 = 4 := placed_const (q := (4, 8)) hc hf (by decide)
  have e25 : field _ 25 2 = 0 := placed_const (q := (25, 2)) hc hf (by decide)
  have e27 : field _ 27 5 = 25 := placed_const (q := (27, 5)) hc hf (by decide)
  rw [hw] at e22 e17 e12 e1 e4 e25 e27
  simp [decodeWord, decode32, decodeMatrix, unlessReserved, e1, e4, e12, e17, e22, e25, e27]

theorem mcomp (a b q : Nat) : Statement (.mcomp a b q) := by
  intro hwf nbits word he
  obtain ⟨rfl, hw⟩ := of_word (b := placed 0xc8000051 [a, b, q] [(17, 5), (12, 5), (1, 3)]) he
  have hwf := of_decide_eq_true (p := a < 32 ∧ b < 32 ∧ q < 8) hwf
  have hc : clear 0xc8000051 [(17, 5), (12, 5), (1, 3)] = true := by decide
  have hf : fits [a, b, q] [(17, 5), (12, 5), (1, 3)] := ⟨hwf.1, hwf.2.1, hwf.2.2, trivial⟩
  obtain ⟨e17, e12, e1, -⟩ := placed_reads hc hf
  have e4 : field _ 4 8 = 5 := placed_const (q := (4, 8)) hc hf (by decide)
  have e22 : field _ 22 5 = 0 := placed_const (q := (22, 5)) hc hf (by decide)
  have e27 : field _ 27 5 = 25 := placed_const (q := (27, 5)) hc hf (by decide)
  rw [hw] at e17 e12 e1 e4 e22 e27
  simp [decodeWord, decode32, decodeMatrix, unlessReserved, e1, e4, e12, e17, e22, e27]

theorem azero (d : Nat) : Statement (.azero d) := by
  intro hwf nbits word he
  obtain ⟨rfl, hw⟩ := of_word (b := placed 0xc8000081 [d] [(22, 3)]) he
  have hwf := of_decide_eq_true (p := d < 8) hwf
  have hc : clear 0xc8000081 [(22, 3)] = true := by decide
  have hf : fits [d] [(22, 3)] := ⟨hwf, trivial⟩
  obtain ⟨e22, -⟩ := placed_reads hc hf
  have e1 : field _ 1 3 = 0 := placed_const (q := (1, 3)) hc hf (by decide)
  have e4 : field _ 4 8 = 8 := placed_const (q := (4, 8)) hc hf (by decide)
  have e12 : field _ 12 10 = 0 := placed_const (q := (12, 10)) hc hf (by decide)
  have e25 : field _ 25 2 = 0 := placed_const (q := (25, 2)) hc hf (by decide)
  have e27 : field _ 27 5 = 25 := placed_const (q := (27, 5)) hc hf (by decide)
  rw [hw] at e22 e1 e4 e12 e25 e27
  simp [decodeWord, decode32, decodeMatrix, unlessReserved, e1, e4, e12, e22, e25, e27]

theorem aldr (d a b : Nat) : Statement (.aldr d a b) := by
  intro hwf nbits word he
  obtain ⟨rfl, hw⟩ := of_word (b := placed 0xc8000091 [d, a, b] [(22, 3), (17, 5), (12, 5)]) he
  have hwf := of_decide_eq_true (p := d < 8 ∧ a < 32 ∧ b < 32) hwf
  have hc : clear 0xc8000091 [(22, 3), (17, 5), (12, 5)] = true := by decide
  have hf : fits [d, a, b] [(22, 3), (17, 5), (12, 5)] := ⟨hwf.1, hwf.2.1, hwf.2.2, trivial⟩
  obtain ⟨e22, e17, e12, -⟩ := placed_reads hc hf
  have e1 : field _ 1 3 = 0 := placed_const (q := (1, 3)) hc hf (by decide)
  have e4 : field _ 4 8 = 9 := placed_const (q := (4, 8)) hc hf (by decide)
  have e25 : field _ 25 2 = 0 := placed_const (q := (25, 2)) hc hf (by decide)
  have e27 : field _ 27 5 = 25 := placed_const (q := (27, 5)) hc hf (by decide)
  rw [hw] at e22 e17 e12 e1 e4 e25 e27
  simp [decodeWord, decode32, decodeMatrix, unlessReserved, e1, e4, e12, e17, e22, e25, e27]

theorem astr (d a b : Nat) : Statement (.astr d a b) := by
  intro hwf nbits word he
  obtain ⟨rfl, hw⟩ := of_word (b := placed 0xc80000a1 [d, a, b] [(22, 3), (17, 5), (12, 5)]) he
  have hwf := of_decide_eq_true (p := d < 8 ∧ a < 32 ∧ b < 32) hwf
  have hc : clear 0xc80000a1 [(22, 3), (17, 5), (12, 5)] = true := by decide
  have hf : fits [d, a, b] [(22, 3), (17, 5), (12, 5)] := ⟨hwf.1, hwf.2.1, hwf.2.2, trivial⟩
  obtain ⟨e22, e17, e12, -⟩ := placed_reads hc hf
  have e1 : field _ 1 3 = 0 := placed_const (q := (1, 3)) hc hf (by decide)
  have e4 : field _ 4 8 = 10 := placed_const (q := (4, 8)) hc hf (by decide)
  have e25 : field _ 25 2 = 0 := placed_const (q := (25, 2)) hc hf (by decide)
  have e27 : field _ 27 5 = 25 := placed_const (q := (27, 5)) hc hf (by decide)
  rw [hw] at e22 e17 e12 e1 e4 e25 e27
  simp [decodeWord, decode32, decodeMatrix, unlessReserved, e1, e4, e12, e17, e22, e25, e27]

theorem amove (d a : Nat) : Statement (.amove d a) := by
  intro hwf nbits word he
  obtain ⟨rfl, hw⟩ := of_word (b := placed 0xc80000b1 [d, a] [(22, 3), (17, 3)]) he
  have hwf := of_decide_eq_true (p := d < 8 ∧ a < 8) hwf
  have hc : clear 0xc80000b1 [(22, 3), (17, 3)] = true := by decide
  have hf : fits [d, a] [(22, 3), (17, 3)] := ⟨hwf.1, hwf.2, trivial⟩
  obtain ⟨e22, e17, -⟩ := placed_reads hc hf
  have e1 : field _ 1 3 = 0 := placed_const (q := (1, 3)) hc hf (by decide)
  have e4 : field _ 4 8 = 11 := placed_const (q := (4, 8)) hc hf (by decide)
  have e12 : field _ 12 5 = 0 := placed_const (q := (12, 5)) hc hf (by decide)
  have e20 : field _ 20 2 = 0 := placed_const (q := (20, 2)) hc hf (by decide)
  have e25 : field _ 25 2 = 0 := placed_const (q := (25, 2)) hc hf (by decide)
  have e27 : field _ 27 5 = 25 := placed_const (q := (27, 5)) hc hf (by decide)
  rw [hw] at e22 e17 e1 e4 e12 e20 e25 e27
  simp [decodeWord, decode32, decodeMatrix, unlessReserved, e1, e4, e12, e17, e20, e22, e25, e27]

theorem aout (d a b : Nat) : Statement (.aout d a b) := by
  intro hwf nbits word he
  obtain ⟨rfl, hw⟩ := of_word (b := placed 0xc80000c1 [d, a, b] [(22, 3), (17, 5), (12, 5)]) he
  have hwf := of_decide_eq_true (p := d < 8 ∧ a < 32 ∧ b < 32) hwf
  have hc : clear 0xc80000c1 [(22, 3), (17, 5), (12, 5)] = true := by decide
  have hf : fits [d, a, b] [(22, 3), (17, 5), (12, 5)] := ⟨hwf.1, hwf.2.1, hwf.2.2, trivial⟩
  obtain ⟨e22, e17, e12, -⟩ := placed_reads hc hf
  have e1 : field _ 1 3 = 0 := placed_const (q := (1, 3)) hc hf (by decide)
  have e4 : field _ 4 8 = 12 := placed_const (q := (4, 8)) hc hf (by decide)
  have e25 : field _ 25 2 = 0 := placed_const (q := (25, 2)) hc hf (by decide)
  have e27 : field _ 27 5 = 25 := placed_const (q := (27, 5)) hc hf (by decide)
  rw [hw] at e22 e17 e12 e1 e4 e25 e27
  simp [decodeWord, decode32, decodeMatrix, unlessReserved, e1, e4, e12, e17, e22, e25, e27]

theorem fbrev (d b : Nat) : Statement (.fbrev d b) := by
  intro hwf nbits word he
  obtain ⟨rfl, hw⟩ := of_word (b := placed 0xd0000001 [d, b] [(22, 3), (12, 5)]) he
  have hwf := of_decide_eq_true (p := d < 8 ∧ b < 32) hwf
  have hc : clear 0xd0000001 [(22, 3), (12, 5)] = true := by decide
  have hf : fits [d, b] [(22, 3), (12, 5)] := ⟨hwf.1, hwf.2, trivial⟩
  obtain ⟨e22, e12, -⟩ := placed_reads hc hf
  have e1 : field _ 1 3 = 0 := placed_const (q := (1, 3)) hc hf (by decide)
  have e4 : field _ 4 8 = 0 := placed_const (q := (4, 8)) hc hf (by decide)
  have e17 : field _ 17 5 = 0 := placed_const (q := (17, 5)) hc hf (by decide)
  have e25 : field _ 25 2 = 0 := placed_const (q := (25, 2)) hc hf (by decide)
  have e27 : field _ 27 5 = 26 := placed_const (q := (27, 5)) hc hf (by decide)
  rw [hw] at e22 e12 e1 e4 e17 e25 e27
  simp [decodeWord, decode32, decodeXform, unlessReserved, e1, e4, e12, e17, e22, e25, e27]

theorem fpass (d b : Nat) : Statement (.fpass d b) := by
  intro hwf nbits word he
  obtain ⟨rfl, hw⟩ := of_word (b := placed 0xd0000011 [d, b] [(22, 3), (12, 5)]) he
  have hwf := of_decide_eq_true (p := d < 8 ∧ b < 32) hwf
  have hc : clear 0xd0000011 [(22, 3), (12, 5)] = true := by decide
  have hf : fits [d, b] [(22, 3), (12, 5)] := ⟨hwf.1, hwf.2, trivial⟩
  obtain ⟨e22, e12, -⟩ := placed_reads hc hf
  have e1 : field _ 1 3 = 0 := placed_const (q := (1, 3)) hc hf (by decide)
  have e4 : field _ 4 8 = 1 := placed_const (q := (4, 8)) hc hf (by decide)
  have e17 : field _ 17 5 = 0 := placed_const (q := (17, 5)) hc hf (by decide)
  have e25 : field _ 25 2 = 0 := placed_const (q := (25, 2)) hc hf (by decide)
  have e27 : field _ 27 5 = 26 := placed_const (q := (27, 5)) hc hf (by decide)
  rw [hw] at e22 e12 e1 e4 e17 e25 e27
  simp [decodeWord, decode32, decodeXform, unlessReserved, e1, e4, e12, e17, e22, e25, e27]

theorem ftwg (d b : Nat) : Statement (.ftwg d b) := by
  intro hwf nbits word he
  obtain ⟨rfl, hw⟩ := of_word (b := placed 0xd0000021 [d, b] [(22, 3), (12, 5)]) he
  have hwf := of_decide_eq_true (p := d < 8 ∧ b < 32) hwf
  have hc : clear 0xd0000021 [(22, 3), (12, 5)] = true := by decide
  have hf : fits [d, b] [(22, 3), (12, 5)] := ⟨hwf.1, hwf.2, trivial⟩
  obtain ⟨e22, e12, -⟩ := placed_reads hc hf
  have e1 : field _ 1 3 = 0 := placed_const (q := (1, 3)) hc hf (by decide)
  have e4 : field _ 4 8 = 2 := placed_const (q := (4, 8)) hc hf (by decide)
  have e17 : field _ 17 5 = 0 := placed_const (q := (17, 5)) hc hf (by decide)
  have e25 : field _ 25 2 = 0 := placed_const (q := (25, 2)) hc hf (by decide)
  have e27 : field _ 27 5 = 26 := placed_const (q := (27, 5)) hc hf (by decide)
  rw [hw] at e22 e12 e1 e4 e17 e25 e27
  simp [decodeWord, decode32, decodeXform, unlessReserved, e1, e4, e12, e17, e22, e25, e27]

theorem ftwm (d b : Nat) : Statement (.ftwm d b) := by
  intro hwf nbits word he
  obtain ⟨rfl, hw⟩ := of_word (b := placed 0xd0000031 [d, b] [(22, 3), (12, 5)]) he
  have hwf := of_decide_eq_true (p := d < 8 ∧ b < 32) hwf
  have hc : clear 0xd0000031 [(22, 3), (12, 5)] = true := by decide
  have hf : fits [d, b] [(22, 3), (12, 5)] := ⟨hwf.1, hwf.2, trivial⟩
  obtain ⟨e22, e12, -⟩ := placed_reads hc hf
  have e1 : field _ 1 3 = 0 := placed_const (q := (1, 3)) hc hf (by decide)
  have e4 : field _ 4 8 = 3 := placed_const (q := (4, 8)) hc hf (by decide)
  have e17 : field _ 17 5 = 0 := placed_const (q := (17, 5)) hc hf (by decide)
  have e25 : field _ 25 2 = 0 := placed_const (q := (25, 2)) hc hf (by decide)
  have e27 : field _ 27 5 = 26 := placed_const (q := (27, 5)) hc hf (by decide)
  rw [hw] at e22 e12 e1 e4 e17 e25 e27
  simp [decodeWord, decode32, decodeXform, unlessReserved, e1, e4, e12, e17, e22, e25, e27]

theorem fcmul (d a b : Nat) : Statement (.fcmul d a b) := by
  intro hwf nbits word he
  obtain ⟨rfl, hw⟩ := of_word (b := placed 0xd0000041 [d, a, b] [(22, 3), (17, 3), (12, 5)]) he
  have hwf := of_decide_eq_true (p := d < 8 ∧ a < 8 ∧ b < 32) hwf
  have hc : clear 0xd0000041 [(22, 3), (17, 3), (12, 5)] = true := by decide
  have hf : fits [d, a, b] [(22, 3), (17, 3), (12, 5)] := ⟨hwf.1, hwf.2.1, hwf.2.2, trivial⟩
  obtain ⟨e22, e17, e12, -⟩ := placed_reads hc hf
  have e1 : field _ 1 3 = 0 := placed_const (q := (1, 3)) hc hf (by decide)
  have e4 : field _ 4 8 = 4 := placed_const (q := (4, 8)) hc hf (by decide)
  have e20 : field _ 20 2 = 0 := placed_const (q := (20, 2)) hc hf (by decide)
  have e25 : field _ 25 2 = 0 := placed_const (q := (25, 2)) hc hf (by decide)
  have e27 : field _ 27 5 = 26 := placed_const (q := (27, 5)) hc hf (by decide)
  rw [hw] at e22 e17 e12 e1 e4 e20 e25 e27
  simp [decodeWord, decode32, decodeXform, unlessReserved, e1, e4, e12, e17, e20, e22, e25, e27]

theorem chbind (u v : Nat) : Statement (.chbind u v) := by
  intro hwf nbits word he
  obtain ⟨rfl, hw⟩ := of_word (b := placed 0xd8000001 [u, v] [(17, 5), (12, 5)]) he
  have hwf := of_decide_eq_true (p := u < 32 ∧ v < 32) hwf
  have hc : clear 0xd8000001 [(17, 5), (12, 5)] = true := by decide
  have hf : fits [u, v] [(17, 5), (12, 5)] := ⟨hwf.1, hwf.2, trivial⟩
  obtain ⟨e17, e12, -⟩ := placed_reads hc hf
  have e1 : field _ 1 3 = 0 := placed_const (q := (1, 3)) hc hf (by decide)
  have e4 : field _ 4 8 = 0 := placed_const (q := (4, 8)) hc hf (by decide)
  have e22 : field _ 22 5 = 0 := placed_const (q := (22, 5)) hc hf (by decide)
  have e27 : field _ 27 5 = 27 := placed_const (q := (27, 5)) hc hf (by decide)
  rw [hw] at e17 e12 e1 e4 e22 e27
  simp [decodeWord, decode32, decodeStage, unlessReserved, e1, e4, e12, e17, e22, e27]

theorem enq (a q : Nat) : Statement (.enq a q) := by
  intro hwf nbits word he
  obtain ⟨rfl, hw⟩ := of_word (b := placed 0xd8000011 [a, q] [(17, 5), (1, 3)]) he
  have hwf := of_decide_eq_true (p := a < 32 ∧ q < 8) hwf
  have hc : clear 0xd8000011 [(17, 5), (1, 3)] = true := by decide
  have hf : fits [a, q] [(17, 5), (1, 3)] := ⟨hwf.1, hwf.2, trivial⟩
  obtain ⟨e17, e1, -⟩ := placed_reads hc hf
  have e4 : field _ 4 8 = 1 := placed_const (q := (4, 8)) hc hf (by decide)
  have e12 : field _ 12 5 = 0 := placed_const (q := (12, 5)) hc hf (by decide)
  have e22 : field _ 22 5 = 0 := placed_const (q := (22, 5)) hc hf (by decide)
  have e27 : field _ 27 5 = 27 := placed_const (q := (27, 5)) hc hf (by decide)
  rw [hw] at e17 e1 e4 e12 e22 e27
  simp [decodeWord, decode32, decodeStage, unlessReserved, e1, e4, e12, e17, e22, e27]

theorem deq (d q : Nat) : Statement (.deq d q) := by
  intro hwf nbits word he
  obtain ⟨rfl, hw⟩ := of_word (b := placed 0xd8000021 [d, q] [(22, 5), (1, 3)]) he
  have hwf := of_decide_eq_true (p := d < 32 ∧ q < 8) hwf
  have hc : clear 0xd8000021 [(22, 5), (1, 3)] = true := by decide
  have hf : fits [d, q] [(22, 5), (1, 3)] := ⟨hwf.1, hwf.2, trivial⟩
  obtain ⟨e22, e1, -⟩ := placed_reads hc hf
  have e4 : field _ 4 8 = 2 := placed_const (q := (4, 8)) hc hf (by decide)
  have e12 : field _ 12 10 = 0 := placed_const (q := (12, 10)) hc hf (by decide)
  have e27 : field _ 27 5 = 27 := placed_const (q := (27, 5)) hc hf (by decide)
  rw [hw] at e22 e1 e4 e12 e27
  simp [decodeWord, decode32, decodeStage, unlessReserved, e1, e4, e12, e22, e27]

theorem chwm (d a c : Nat) : Statement (.chwm d a c) := by
  intro hwf nbits word he
  obtain ⟨rfl, hw⟩ := of_word (b := placed 0xd8000031 [d, a, c] [(22, 5), (17, 5), (12, 5)]) he
  have hwf := of_decide_eq_true (p := d < 32 ∧ a < 32 ∧ c < 32) hwf
  have hc : clear 0xd8000031 [(22, 5), (17, 5), (12, 5)] = true := by decide
  have hf : fits [d, a, c] [(22, 5), (17, 5), (12, 5)] := ⟨hwf.1, hwf.2.1, hwf.2.2, trivial⟩
  obtain ⟨e22, e17, e12, -⟩ := placed_reads hc hf
  have e1 : field _ 1 3 = 0 := placed_const (q := (1, 3)) hc hf (by decide)
  have e4 : field _ 4 8 = 3 := placed_const (q := (4, 8)) hc hf (by decide)
  have e27 : field _ 27 5 = 27 := placed_const (q := (27, 5)) hc hf (by decide)
  rw [hw] at e22 e17 e12 e1 e4 e27
  simp [decodeWord, decode32, decodeStage, unlessReserved, e1, e4, e12, e17, e22, e27]

theorem send (a b q : Nat) : Statement (.send a b q) := by
  intro hwf nbits word he
  obtain ⟨rfl, hw⟩ := of_word (b := placed 0xd8000081 [a, b, q] [(17, 5), (12, 5), (1, 3)]) he
  have hwf := of_decide_eq_true (p := a < 32 ∧ b < 32 ∧ q < 8) hwf
  have hc : clear 0xd8000081 [(17, 5), (12, 5), (1, 3)] = true := by decide
  have hf : fits [a, b, q] [(17, 5), (12, 5), (1, 3)] := ⟨hwf.1, hwf.2.1, hwf.2.2, trivial⟩
  obtain ⟨e17, e12, e1, -⟩ := placed_reads hc hf
  have e4 : field _ 4 8 = 8 := placed_const (q := (4, 8)) hc hf (by decide)
  have e22 : field _ 22 5 = 0 := placed_const (q := (22, 5)) hc hf (by decide)
  have e27 : field _ 27 5 = 27 := placed_const (q := (27, 5)) hc hf (by decide)
  rw [hw] at e17 e12 e1 e4 e22 e27
  simp [decodeWord, decode32, decodeStage, unlessReserved, e1, e4, e12, e17, e22, e27]

theorem recv (d b q : Nat) : Statement (.recv d b q) := by
  intro hwf nbits word he
  obtain ⟨rfl, hw⟩ := of_word (b := placed 0xd8000091 [d, b, q] [(22, 5), (12, 5), (1, 3)]) he
  have hwf := of_decide_eq_true (p := d < 32 ∧ b < 32 ∧ q < 8) hwf
  have hc : clear 0xd8000091 [(22, 5), (12, 5), (1, 3)] = true := by decide
  have hf : fits [d, b, q] [(22, 5), (12, 5), (1, 3)] := ⟨hwf.1, hwf.2.1, hwf.2.2, trivial⟩
  obtain ⟨e22, e12, e1, -⟩ := placed_reads hc hf
  have e4 : field _ 4 8 = 9 := placed_const (q := (4, 8)) hc hf (by decide)
  have e17 : field _ 17 5 = 0 := placed_const (q := (17, 5)) hc hf (by decide)
  have e27 : field _ 27 5 = 27 := placed_const (q := (27, 5)) hc hf (by decide)
  rw [hw] at e22 e12 e1 e4 e17 e27
  simp [decodeWord, decode32, decodeStage, unlessReserved, e1, e4, e12, e17, e22, e27]

theorem stagedef (a b q : Nat) : Statement (.stagedef a b q) := by
  intro hwf nbits word he
  obtain ⟨rfl, hw⟩ := of_word (b := placed 0xd8000101 [a, b, q] [(17, 5), (12, 5), (1, 3)]) he
  have hwf := of_decide_eq_true (p := a < 32 ∧ b < 32 ∧ q < 8) hwf
  have hc : clear 0xd8000101 [(17, 5), (12, 5), (1, 3)] = true := by decide
  have hf : fits [a, b, q] [(17, 5), (12, 5), (1, 3)] := ⟨hwf.1, hwf.2.1, hwf.2.2, trivial⟩
  obtain ⟨e17, e12, e1, -⟩ := placed_reads hc hf
  have e4 : field _ 4 8 = 16 := placed_const (q := (4, 8)) hc hf (by decide)
  have e22 : field _ 22 5 = 0 := placed_const (q := (22, 5)) hc hf (by decide)
  have e27 : field _ 27 5 = 27 := placed_const (q := (27, 5)) hc hf (by decide)
  rw [hw] at e17 e12 e1 e4 e22 e27
  simp [decodeWord, decode32, decodeStage, unlessReserved, e1, e4, e12, e17, e22, e27]

theorem krecv (q : Nat) : Statement (.krecv q) := by
  intro hwf nbits word he
  obtain ⟨rfl, hw⟩ := of_word (b := placed 0xd8000111 [q] [(1, 3)]) he
  have hwf := of_decide_eq_true (p := q < 8) hwf
  have hc : clear 0xd8000111 [(1, 3)] = true := by decide
  have hf : fits [q] [(1, 3)] := ⟨hwf, trivial⟩
  obtain ⟨e1, -⟩ := placed_reads hc hf
  have e4 : field _ 4 8 = 17 := placed_const (q := (4, 8)) hc hf (by decide)
  have e12 : field _ 12 15 = 0 := placed_const (q := (12, 15)) hc hf (by decide)
  have e27 : field _ 27 5 = 27 := placed_const (q := (27, 5)) hc hf (by decide)
  rw [hw] at e1 e4 e12 e27
  simp [decodeWord, decode32, decodeStage, unlessReserved, e1, e4, e12, e27]

theorem klook (d a : Nat) : Statement (.klook d a) := by
  intro hwf nbits word he
  obtain ⟨rfl, hw⟩ := of_word (b := placed 0xd8000141 [d, a] [(22, 5), (17, 5)]) he
  have hwf := of_decide_eq_true (p := d < 32 ∧ a < 32) hwf
  have hc : clear 0xd8000141 [(22, 5), (17, 5)] = true := by decide
  have hf : fits [d, a] [(22, 5), (17, 5)] := ⟨hwf.1, hwf.2, trivial⟩
  obtain ⟨e22, e17, -⟩ := placed_reads hc hf
  have e1 : field _ 1 3 = 0 := placed_const (q := (1, 3)) hc hf (by decide)
  have e4 : field _ 4 8 = 20 := placed_const (q := (4, 8)) hc hf (by decide)
  have e12 : field _ 12 5 = 0 := placed_const (q := (12, 5)) hc hf (by decide)
  have e27 : field _ 27 5 = 27 := placed_const (q := (27, 5)) hc hf (by decide)
  rw [hw] at e22 e17 e1 e4 e12 e27
  simp [decodeWord, decode32, decodeStage, unlessReserved, e1, e4, e12, e17, e22, e27]

theorem tpost (d a q : Nat) : Statement (.tpost d a q) := by
  intro hwf nbits word he
  obtain ⟨rfl, hw⟩ := of_word (b := placed 0xe0000001 [d, a, q] [(22, 5), (17, 5), (1, 3)]) he
  have hwf := of_decide_eq_true (p := d < 32 ∧ a < 32 ∧ q < 8) hwf
  have hc : clear 0xe0000001 [(22, 5), (17, 5), (1, 3)] = true := by decide
  have hf : fits [d, a, q] [(22, 5), (17, 5), (1, 3)] := ⟨hwf.1, hwf.2.1, hwf.2.2, trivial⟩
  obtain ⟨e22, e17, e1, -⟩ := placed_reads hc hf
  have e4 : field _ 4 8 = 0 := placed_const (q := (4, 8)) hc hf (by decide)
  have e12 : field _ 12 5 = 0 := placed_const (q := (12, 5)) hc hf (by decide)
  have e27 : field _ 27 5 = 28 := placed_const (q := (27, 5)) hc hf (by decide)
  rw [hw] at e22 e17 e1 e4 e12 e27
  simp [decodeWord, decode32, decodeTask, unlessReserved, e1, e4, e12, e17, e22, e27]

theorem tfoot (a n q : Nat) : Statement (.tfoot a n q) := by
  intro hwf nbits word he
  obtain ⟨rfl, hw⟩ := of_word (b := placed 0xe0000011 [a, n, q] [(17, 5), (12, 5), (1, 3)]) he
  have hwf := of_decide_eq_true (p := a < 32 ∧ n < 32 ∧ q < 8) hwf
  have hc : clear 0xe0000011 [(17, 5), (12, 5), (1, 3)] = true := by decide
  have hf : fits [a, n, q] [(17, 5), (12, 5), (1, 3)] := ⟨hwf.1, hwf.2.1, hwf.2.2, trivial⟩
  obtain ⟨e17, e12, e1, -⟩ := placed_reads hc hf
  have e4 : field _ 4 8 = 1 := placed_const (q := (4, 8)) hc hf (by decide)
  have e22 : field _ 22 5 = 0 := placed_const (q := (22, 5)) hc hf (by decide)
  have e27 : field _ 27 5 = 28 := placed_const (q := (27, 5)) hc hf (by decide)
  rw [hw] at e17 e12 e1 e4 e22 e27
  simp [decodeWord, decode32, decodeTask, unlessReserved, e1, e4, e12, e17, e22, e27]

theorem tstat (d a : Nat) : Statement (.tstat d a) := by
  intro hwf nbits word he
  obtain ⟨rfl, hw⟩ := of_word (b := placed 0xe0000031 [d, a] [(22, 5), (17, 5)]) he
  have hwf := of_decide_eq_true (p := d < 32 ∧ a < 32) hwf
  have hc : clear 0xe0000031 [(22, 5), (17, 5)] = true := by decide
  have hf : fits [d, a] [(22, 5), (17, 5)] := ⟨hwf.1, hwf.2, trivial⟩
  obtain ⟨e22, e17, -⟩ := placed_reads hc hf
  have e1 : field _ 1 3 = 0 := placed_const (q := (1, 3)) hc hf (by decide)
  have e4 : field _ 4 8 = 3 := placed_const (q := (4, 8)) hc hf (by decide)
  have e12 : field _ 12 5 = 0 := placed_const (q := (12, 5)) hc hf (by decide)
  have e27 : field _ 27 5 = 28 := placed_const (q := (27, 5)) hc hf (by decide)
  rw [hw] at e22 e17 e1 e4 e12 e27
  simp [decodeWord, decode32, decodeTask, unlessReserved, e1, e4, e12, e17, e22, e27]

theorem twait (a b : Nat) : Statement (.twait a b) := by
  intro hwf nbits word he
  obtain ⟨rfl, hw⟩ := of_word (b := placed 0xe0000041 [a, b] [(17, 5), (12, 5)]) he
  have hwf := of_decide_eq_true (p := a < 32 ∧ b < 32) hwf
  have hc : clear 0xe0000041 [(17, 5), (12, 5)] = true := by decide
  have hf : fits [a, b] [(17, 5), (12, 5)] := ⟨hwf.1, hwf.2, trivial⟩
  obtain ⟨e17, e12, -⟩ := placed_reads hc hf
  have e1 : field _ 1 3 = 0 := placed_const (q := (1, 3)) hc hf (by decide)
  have e4 : field _ 4 8 = 4 := placed_const (q := (4, 8)) hc hf (by decide)
  have e22 : field _ 22 5 = 0 := placed_const (q := (22, 5)) hc hf (by decide)
  have e27 : field _ 27 5 = 28 := placed_const (q := (27, 5)) hc hf (by decide)
  rw [hw] at e17 e12 e1 e4 e22 e27
  simp [decodeWord, decode32, decodeTask, unlessReserved, e1, e4, e12, e17, e22, e27]

theorem trap (a : Nat) : Statement (.trap a) := by
  intro hwf nbits word he
  obtain ⟨rfl, hw⟩ := of_word (b := placed 0xe8000001 [a] [(17, 5)]) he
  have hwf := of_decide_eq_true (p := a < 32) hwf
  have hc : clear 0xe8000001 [(17, 5)] = true := by decide
  have hf : fits [a] [(17, 5)] := ⟨hwf, trivial⟩
  obtain ⟨e17, -⟩ := placed_reads hc hf
  have e1 : field _ 1 3 = 0 := placed_const (q := (1, 3)) hc hf (by decide)
  have e4 : field _ 4 8 = 0 := placed_const (q := (4, 8)) hc hf (by decide)
  have e12 : field _ 12 5 = 0 := placed_const (q := (12, 5)) hc hf (by decide)
  have e22 : field _ 22 5 = 0 := placed_const (q := (22, 5)) hc hf (by decide)
  have e27 : field _ 27 5 = 29 := placed_const (q := (27, 5)) hc hf (by decide)
  rw [hw] at e17 e1 e4 e12 e22 e27
  simp [decodeWord, decode32, decodeSystem, unlessReserved, e1, e4, e12, e17, e22, e27]

theorem csrr (d n m : Nat) : Statement (.csrr d n m) := by
  intro hwf nbits word he
  obtain ⟨rfl, hw⟩ := of_word (b := placed 0xe8000081 [d, n, m] [(22, 5), (12, 5), (1, 3)]) he
  have hwf := of_decide_eq_true (p := d < 32 ∧ n < 32 ∧ m < 8) hwf
  have hc : clear 0xe8000081 [(22, 5), (12, 5), (1, 3)] = true := by decide
  have hf : fits [d, n, m] [(22, 5), (12, 5), (1, 3)] := ⟨hwf.1, hwf.2.1, hwf.2.2, trivial⟩
  obtain ⟨e22, e12, e1, -⟩ := placed_reads hc hf
  have e4 : field _ 4 8 = 8 := placed_const (q := (4, 8)) hc hf (by decide)
  have e17 : field _ 17 5 = 0 := placed_const (q := (17, 5)) hc hf (by decide)
  have e27 : field _ 27 5 = 29 := placed_const (q := (27, 5)) hc hf (by decide)
  rw [hw] at e22 e12 e1 e4 e17 e27
  simp [decodeWord, decode32, decodeSystem, unlessReserved, e1, e4, e12, e17, e22, e27]

theorem csrw (d a n m : Nat) : Statement (.csrw d a n m) := by
  intro hwf nbits word he
  obtain ⟨rfl, hw⟩ := of_word (b := placed 0xe8000091 [d, a, n, m] [(22, 5), (17, 5), (12, 5), (1, 3)]) he
  have hwf := of_decide_eq_true (p := d < 32 ∧ a < 32 ∧ n < 32 ∧ m < 8) hwf
  have hc : clear 0xe8000091 [(22, 5), (17, 5), (12, 5), (1, 3)] = true := by decide
  have hf : fits [d, a, n, m] [(22, 5), (17, 5), (12, 5), (1, 3)] := ⟨hwf.1, hwf.2.1, hwf.2.2.1, hwf.2.2.2, trivial⟩
  obtain ⟨e22, e17, e12, e1, -⟩ := placed_reads hc hf
  have e4 : field _ 4 8 = 9 := placed_const (q := (4, 8)) hc hf (by decide)
  have e27 : field _ 27 5 = 29 := placed_const (q := (27, 5)) hc hf (by decide)
  rw [hw] at e22 e17 e12 e1 e4 e27
  simp [decodeWord, decode32, decodeSystem, e1, e4, e12, e17, e22, e27]

theorem csrs (d a n m : Nat) : Statement (.csrs d a n m) := by
  intro hwf nbits word he
  obtain ⟨rfl, hw⟩ := of_word (b := placed 0xe80000a1 [d, a, n, m] [(22, 5), (17, 5), (12, 5), (1, 3)]) he
  have hwf := of_decide_eq_true (p := d < 32 ∧ a < 32 ∧ n < 32 ∧ m < 8) hwf
  have hc : clear 0xe80000a1 [(22, 5), (17, 5), (12, 5), (1, 3)] = true := by decide
  have hf : fits [d, a, n, m] [(22, 5), (17, 5), (12, 5), (1, 3)] := ⟨hwf.1, hwf.2.1, hwf.2.2.1, hwf.2.2.2, trivial⟩
  obtain ⟨e22, e17, e12, e1, -⟩ := placed_reads hc hf
  have e4 : field _ 4 8 = 10 := placed_const (q := (4, 8)) hc hf (by decide)
  have e27 : field _ 27 5 = 29 := placed_const (q := (27, 5)) hc hf (by decide)
  rw [hw] at e22 e17 e12 e1 e4 e27
  simp [decodeWord, decode32, decodeSystem, e1, e4, e12, e17, e22, e27]

theorem csrc (d a n m : Nat) : Statement (.csrc d a n m) := by
  intro hwf nbits word he
  obtain ⟨rfl, hw⟩ := of_word (b := placed 0xe80000b1 [d, a, n, m] [(22, 5), (17, 5), (12, 5), (1, 3)]) he
  have hwf := of_decide_eq_true (p := d < 32 ∧ a < 32 ∧ n < 32 ∧ m < 8) hwf
  have hc : clear 0xe80000b1 [(22, 5), (17, 5), (12, 5), (1, 3)] = true := by decide
  have hf : fits [d, a, n, m] [(22, 5), (17, 5), (12, 5), (1, 3)] := ⟨hwf.1, hwf.2.1, hwf.2.2.1, hwf.2.2.2, trivial⟩
  obtain ⟨e22, e17, e12, e1, -⟩ := placed_reads hc hf
  have e4 : field _ 4 8 = 11 := placed_const (q := (4, 8)) hc hf (by decide)
  have e27 : field _ 27 5 = 29 := placed_const (q := (27, 5)) hc hf (by decide)
  rw [hw] at e22 e17 e12 e1 e4 e27
  simp [decodeWord, decode32, decodeSystem, e1, e4, e12, e17, e22, e27]

theorem snap (a : Nat) : Statement (.snap a) := by
  intro hwf nbits word he
  obtain ⟨rfl, hw⟩ := of_word (b := placed 0xe8000101 [a] [(17, 5)]) he
  have hwf := of_decide_eq_true (p := a < 32) hwf
  have hc : clear 0xe8000101 [(17, 5)] = true := by decide
  have hf : fits [a] [(17, 5)] := ⟨hwf, trivial⟩
  obtain ⟨e17, -⟩ := placed_reads hc hf
  have e1 : field _ 1 3 = 0 := placed_const (q := (1, 3)) hc hf (by decide)
  have e4 : field _ 4 8 = 16 := placed_const (q := (4, 8)) hc hf (by decide)
  have e12 : field _ 12 5 = 0 := placed_const (q := (12, 5)) hc hf (by decide)
  have e22 : field _ 22 5 = 0 := placed_const (q := (22, 5)) hc hf (by decide)
  have e27 : field _ 27 5 = 29 := placed_const (q := (27, 5)) hc hf (by decide)
  rw [hw] at e17 e1 e4 e12 e22 e27
  simp [decodeWord, decode32, decodeSystem, unlessReserved, e1, e4, e12, e17, e22, e27]

theorem ctxsave (a b q : Nat) : Statement (.ctxsave a b q) := by
  intro hwf nbits word he
  obtain ⟨rfl, hw⟩ := of_word (b := placed 0xe8000801 [a, b, q] [(17, 5), (12, 5), (1, 3)]) he
  have hwf := of_decide_eq_true (p := a < 32 ∧ b < 32 ∧ q < 8) hwf
  have hc : clear 0xe8000801 [(17, 5), (12, 5), (1, 3)] = true := by decide
  have hf : fits [a, b, q] [(17, 5), (12, 5), (1, 3)] := ⟨hwf.1, hwf.2.1, hwf.2.2, trivial⟩
  obtain ⟨e17, e12, e1, -⟩ := placed_reads hc hf
  have e4 : field _ 4 8 = 128 := placed_const (q := (4, 8)) hc hf (by decide)
  have e22 : field _ 22 5 = 0 := placed_const (q := (22, 5)) hc hf (by decide)
  have e27 : field _ 27 5 = 29 := placed_const (q := (27, 5)) hc hf (by decide)
  rw [hw] at e17 e12 e1 e4 e22 e27
  simp [decodeWord, decode32, decodeSystem, unlessReserved, e1, e4, e12, e17, e22, e27]

theorem ctxload (a b q : Nat) : Statement (.ctxload a b q) := by
  intro hwf nbits word he
  obtain ⟨rfl, hw⟩ := of_word (b := placed 0xe8000811 [a, b, q] [(17, 5), (12, 5), (1, 3)]) he
  have hwf := of_decide_eq_true (p := a < 32 ∧ b < 32 ∧ q < 8) hwf
  have hc : clear 0xe8000811 [(17, 5), (12, 5), (1, 3)] = true := by decide
  have hf : fits [a, b, q] [(17, 5), (12, 5), (1, 3)] := ⟨hwf.1, hwf.2.1, hwf.2.2, trivial⟩
  obtain ⟨e17, e12, e1, -⟩ := placed_reads hc hf
  have e4 : field _ 4 8 = 129 := placed_const (q := (4, 8)) hc hf (by decide)
  have e22 : field _ 22 5 = 0 := placed_const (q := (22, 5)) hc hf (by decide)
  have e27 : field _ 27 5 = 29 := placed_const (q := (27, 5)) hc hf (by decide)
  rw [hw] at e17 e12 e1 e4 e22 e27
  simp [decodeWord, decode32, decodeSystem, unlessReserved, e1, e4, e12, e17, e22, e27]

theorem tlbinv (a b : Nat) : Statement (.tlbinv a b) := by
  intro hwf nbits word he
  obtain ⟨rfl, hw⟩ := of_word (b := placed 0xe8000821 [a, b] [(17, 5), (12, 5)]) he
  have hwf := of_decide_eq_true (p := a < 32 ∧ b < 32) hwf
  have hc : clear 0xe8000821 [(17, 5), (12, 5)] = true := by decide
  have hf : fits [a, b] [(17, 5), (12, 5)] := ⟨hwf.1, hwf.2, trivial⟩
  obtain ⟨e17, e12, -⟩ := placed_reads hc hf
  have e1 : field _ 1 3 = 0 := placed_const (q := (1, 3)) hc hf (by decide)
  have e4 : field _ 4 8 = 130 := placed_const (q := (4, 8)) hc hf (by decide)
  have e22 : field _ 22 5 = 0 := placed_const (q := (22, 5)) hc hf (by decide)
  have e27 : field _ 27 5 = 29 := placed_const (q := (27, 5)) hc hf (by decide)
  rw [hw] at e17 e12 e1 e4 e22 e27
  simp [decodeWord, decode32, decodeSystem, unlessReserved, e1, e4, e12, e17, e22, e27]

theorem doffer (d a b q : Nat) : Statement (.doffer d a b q) := by
  intro hwf nbits word he
  obtain ⟨rfl, hw⟩ := of_word (b := placed 0xe8000901 [d, a, b, q] [(22, 5), (17, 5), (12, 5), (1, 3)]) he
  have hwf := of_decide_eq_true (p := d < 32 ∧ a < 32 ∧ b < 32 ∧ q < 8) hwf
  have hc : clear 0xe8000901 [(22, 5), (17, 5), (12, 5), (1, 3)] = true := by decide
  have hf : fits [d, a, b, q] [(22, 5), (17, 5), (12, 5), (1, 3)] := ⟨hwf.1, hwf.2.1, hwf.2.2.1, hwf.2.2.2, trivial⟩
  obtain ⟨e22, e17, e12, e1, -⟩ := placed_reads hc hf
  have e4 : field _ 4 8 = 144 := placed_const (q := (4, 8)) hc hf (by decide)
  have e27 : field _ 27 5 = 29 := placed_const (q := (27, 5)) hc hf (by decide)
  rw [hw] at e22 e17 e12 e1 e4 e27
  simp [decodeWord, decode32, decodeSystem, e1, e4, e12, e17, e22, e27]

theorem daccept (d a q : Nat) : Statement (.daccept d a q) := by
  intro hwf nbits word he
  obtain ⟨rfl, hw⟩ := of_word (b := placed 0xe8000911 [d, a, q] [(22, 5), (17, 5), (1, 3)]) he
  have hwf := of_decide_eq_true (p := d < 32 ∧ a < 32 ∧ q < 8) hwf
  have hc : clear 0xe8000911 [(22, 5), (17, 5), (1, 3)] = true := by decide
  have hf : fits [d, a, q] [(22, 5), (17, 5), (1, 3)] := ⟨hwf.1, hwf.2.1, hwf.2.2, trivial⟩
  obtain ⟨e22, e17, e1, -⟩ := placed_reads hc hf
  have e4 : field _ 4 8 = 145 := placed_const (q := (4, 8)) hc hf (by decide)
  have e12 : field _ 12 5 = 0 := placed_const (q := (12, 5)) hc hf (by decide)
  have e27 : field _ 27 5 = 29 := placed_const (q := (27, 5)) hc hf (by decide)
  rw [hw] at e22 e17 e1 e4 e12 e27
  simp [decodeWord, decode32, decodeSystem, unlessReserved, e1, e4, e12, e17, e22, e27]

theorem dreject (d a q : Nat) : Statement (.dreject d a q) := by
  intro hwf nbits word he
  obtain ⟨rfl, hw⟩ := of_word (b := placed 0xe8000921 [d, a, q] [(22, 5), (17, 5), (1, 3)]) he
  have hwf := of_decide_eq_true (p := d < 32 ∧ a < 32 ∧ q < 8) hwf
  have hc : clear 0xe8000921 [(22, 5), (17, 5), (1, 3)] = true := by decide
  have hf : fits [d, a, q] [(22, 5), (17, 5), (1, 3)] := ⟨hwf.1, hwf.2.1, hwf.2.2, trivial⟩
  obtain ⟨e22, e17, e1, -⟩ := placed_reads hc hf
  have e4 : field _ 4 8 = 146 := placed_const (q := (4, 8)) hc hf (by decide)
  have e12 : field _ 12 5 = 0 := placed_const (q := (12, 5)) hc hf (by decide)
  have e27 : field _ 27 5 = 29 := placed_const (q := (27, 5)) hc hf (by decide)
  rw [hw] at e22 e17 e1 e4 e12 e27
  simp [decodeWord, decode32, decodeSystem, unlessReserved, e1, e4, e12, e17, e22, e27]

theorem dlend (d a b q : Nat) : Statement (.dlend d a b q) := by
  intro hwf nbits word he
  obtain ⟨rfl, hw⟩ := of_word (b := placed 0xe8000931 [d, a, b, q] [(22, 5), (17, 5), (12, 5), (1, 3)]) he
  have hwf := of_decide_eq_true (p := d < 32 ∧ a < 32 ∧ b < 32 ∧ q < 8) hwf
  have hc : clear 0xe8000931 [(22, 5), (17, 5), (12, 5), (1, 3)] = true := by decide
  have hf : fits [d, a, b, q] [(22, 5), (17, 5), (12, 5), (1, 3)] := ⟨hwf.1, hwf.2.1, hwf.2.2.1, hwf.2.2.2, trivial⟩
  obtain ⟨e22, e17, e12, e1, -⟩ := placed_reads hc hf
  have e4 : field _ 4 8 = 147 := placed_const (q := (4, 8)) hc hf (by decide)
  have e27 : field _ 27 5 = 29 := placed_const (q := (27, 5)) hc hf (by decide)
  rw [hw] at e22 e17 e12 e1 e4 e27
  simp [decodeWord, decode32, decodeSystem, e1, e4, e12, e17, e22, e27]

theorem drecall (d a q : Nat) : Statement (.drecall d a q) := by
  intro hwf nbits word he
  obtain ⟨rfl, hw⟩ := of_word (b := placed 0xe8000941 [d, a, q] [(22, 5), (17, 5), (1, 3)]) he
  have hwf := of_decide_eq_true (p := d < 32 ∧ a < 32 ∧ q < 8) hwf
  have hc : clear 0xe8000941 [(22, 5), (17, 5), (1, 3)] = true := by decide
  have hf : fits [d, a, q] [(22, 5), (17, 5), (1, 3)] := ⟨hwf.1, hwf.2.1, hwf.2.2, trivial⟩
  obtain ⟨e22, e17, e1, -⟩ := placed_reads hc hf
  have e4 : field _ 4 8 = 148 := placed_const (q := (4, 8)) hc hf (by decide)
  have e12 : field _ 12 5 = 0 := placed_const (q := (12, 5)) hc hf (by decide)
  have e27 : field _ 27 5 = 29 := placed_const (q := (27, 5)) hc hf (by decide)
  rw [hw] at e22 e17 e1 e4 e12 e27
  simp [decodeWord, decode32, decodeSystem, unlessReserved, e1, e4, e12, e17, e22, e27]

theorem drelease (d a q : Nat) : Statement (.drelease d a q) := by
  intro hwf nbits word he
  obtain ⟨rfl, hw⟩ := of_word (b := placed 0xe8000951 [d, a, q] [(22, 5), (17, 5), (1, 3)]) he
  have hwf := of_decide_eq_true (p := d < 32 ∧ a < 32 ∧ q < 8) hwf
  have hc : clear 0xe8000951 [(22, 5), (17, 5), (1, 3)] = true := by decide
  have hf : fits [d, a, q] [(22, 5), (17, 5), (1, 3)] := ⟨hwf.1, hwf.2.1, hwf.2.2, trivial⟩
  obtain ⟨e22, e17, e1, -⟩ := placed_reads hc hf
  have e4 : field _ 4 8 = 149 := placed_const (q := (4, 8)) hc hf (by decide)
  have e12 : field _ 12 5 = 0 := placed_const (q := (12, 5)) hc hf (by decide)
  have e27 : field _ 27 5 = 29 := placed_const (q := (27, 5)) hc hf (by decide)
  rw [hw] at e22 e17 e1 e4 e12 e27
  simp [decodeWord, decode32, decodeSystem, unlessReserved, e1, e4, e12, e17, e22, e27]

theorem dquery (d a : Nat) : Statement (.dquery d a) := by
  intro hwf nbits word he
  obtain ⟨rfl, hw⟩ := of_word (b := placed 0xe8000961 [d, a] [(22, 5), (17, 5)]) he
  have hwf := of_decide_eq_true (p := d < 32 ∧ a < 32) hwf
  have hc : clear 0xe8000961 [(22, 5), (17, 5)] = true := by decide
  have hf : fits [d, a] [(22, 5), (17, 5)] := ⟨hwf.1, hwf.2, trivial⟩
  obtain ⟨e22, e17, -⟩ := placed_reads hc hf
  have e1 : field _ 1 3 = 0 := placed_const (q := (1, 3)) hc hf (by decide)
  have e4 : field _ 4 8 = 150 := placed_const (q := (4, 8)) hc hf (by decide)
  have e12 : field _ 12 5 = 0 := placed_const (q := (12, 5)) hc hf (by decide)
  have e27 : field _ 27 5 = 29 := placed_const (q := (27, 5)) hc hf (by decide)
  rw [hw] at e22 e17 e1 e4 e12 e27
  simp [decodeWord, decode32, decodeSystem, unlessReserved, e1, e4, e12, e17, e22, e27]

theorem psplit (d a b q : Nat) : Statement (.psplit d a b q) := by
  intro hwf nbits word he
  obtain ⟨rfl, hw⟩ := of_word (b := placed 0xe8000a01 [d, a, b, q] [(22, 5), (17, 5), (12, 5), (1, 3)]) he
  have hwf := of_decide_eq_true (p := d < 32 ∧ a < 32 ∧ b < 32 ∧ q < 8) hwf
  have hc : clear 0xe8000a01 [(22, 5), (17, 5), (12, 5), (1, 3)] = true := by decide
  have hf : fits [d, a, b, q] [(22, 5), (17, 5), (12, 5), (1, 3)] := ⟨hwf.1, hwf.2.1, hwf.2.2.1, hwf.2.2.2, trivial⟩
  obtain ⟨e22, e17, e12, e1, -⟩ := placed_reads hc hf
  have e4 : field _ 4 8 = 160 := placed_const (q := (4, 8)) hc hf (by decide)
  have e27 : field _ 27 5 = 29 := placed_const (q := (27, 5)) hc hf (by decide)
  rw [hw] at e22 e17 e12 e1 e4 e27
  simp [decodeWord, decode32, decodeSystem, e1, e4, e12, e17, e22, e27]

theorem pmerge (d a q : Nat) : Statement (.pmerge d a q) := by
  intro hwf nbits word he
  obtain ⟨rfl, hw⟩ := of_word (b := placed 0xe8000a11 [d, a, q] [(22, 5), (17, 5), (1, 3)]) he
  have hwf := of_decide_eq_true (p := d < 32 ∧ a < 32 ∧ q < 8) hwf
  have hc : clear 0xe8000a11 [(22, 5), (17, 5), (1, 3)] = true := by decide
  have hf : fits [d, a, q] [(22, 5), (17, 5), (1, 3)] := ⟨hwf.1, hwf.2.1, hwf.2.2, trivial⟩
  obtain ⟨e22, e17, e1, -⟩ := placed_reads hc hf
  have e4 : field _ 4 8 = 161 := placed_const (q := (4, 8)) hc hf (by decide)
  have e12 : field _ 12 5 = 0 := placed_const (q := (12, 5)) hc hf (by decide)
  have e27 : field _ 27 5 = 29 := placed_const (q := (27, 5)) hc hf (by decide)
  rw [hw] at e22 e17 e1 e4 e12 e27
  simp [decodeWord, decode32, decodeSystem, unlessReserved, e1, e4, e12, e17, e22, e27]

theorem heatset (d a b q : Nat) : Statement (.heatset d a b q) := by
  intro hwf nbits word he
  obtain ⟨rfl, hw⟩ := of_word (b := placed 0xe8000a81 [d, a, b, q] [(22, 5), (17, 5), (12, 5), (1, 3)]) he
  have hwf := of_decide_eq_true (p := d < 32 ∧ a < 32 ∧ b < 32 ∧ q < 8) hwf
  have hc : clear 0xe8000a81 [(22, 5), (17, 5), (12, 5), (1, 3)] = true := by decide
  have hf : fits [d, a, b, q] [(22, 5), (17, 5), (12, 5), (1, 3)] := ⟨hwf.1, hwf.2.1, hwf.2.2.1, hwf.2.2.2, trivial⟩
  obtain ⟨e22, e17, e12, e1, -⟩ := placed_reads hc hf
  have e4 : field _ 4 8 = 168 := placed_const (q := (4, 8)) hc hf (by decide)
  have e27 : field _ 27 5 = 29 := placed_const (q := (27, 5)) hc hf (by decide)
  rw [hw] at e22 e17 e12 e1 e4 e27
  simp [decodeWord, decode32, decodeSystem, e1, e4, e12, e17, e22, e27]

theorem curtain (d a b q : Nat) : Statement (.curtain d a b q) := by
  intro hwf nbits word he
  obtain ⟨rfl, hw⟩ := of_word (b := placed 0xe8000b01 [d, a, b, q] [(22, 5), (17, 5), (12, 5), (1, 3)]) he
  have hwf := of_decide_eq_true (p := d < 32 ∧ a < 32 ∧ b < 32 ∧ q < 8) hwf
  have hc : clear 0xe8000b01 [(22, 5), (17, 5), (12, 5), (1, 3)] = true := by decide
  have hf : fits [d, a, b, q] [(22, 5), (17, 5), (12, 5), (1, 3)] := ⟨hwf.1, hwf.2.1, hwf.2.2.1, hwf.2.2.2, trivial⟩
  obtain ⟨e22, e17, e12, e1, -⟩ := placed_reads hc hf
  have e4 : field _ 4 8 = 176 := placed_const (q := (4, 8)) hc hf (by decide)
  have e27 : field _ 27 5 = 29 := placed_const (q := (27, 5)) hc hf (by decide)
  rw [hw] at e22 e17 e12 e1 e4 e27
  simp [decodeWord, decode32, decodeSystem, e1, e4, e12, e17, e22, e27]

theorem token (d a b q : Nat) : Statement (.token d a b q) := by
  intro hwf nbits word he
  obtain ⟨rfl, hw⟩ := of_word (b := placed 0xe8000b11 [d, a, b, q] [(22, 5), (17, 5), (12, 5), (1, 3)]) he
  have hwf := of_decide_eq_true (p := d < 32 ∧ a < 32 ∧ b < 32 ∧ q < 8) hwf
  have hc : clear 0xe8000b11 [(22, 5), (17, 5), (12, 5), (1, 3)] = true := by decide
  have hf : fits [d, a, b, q] [(22, 5), (17, 5), (12, 5), (1, 3)] := ⟨hwf.1, hwf.2.1, hwf.2.2.1, hwf.2.2.2, trivial⟩
  obtain ⟨e22, e17, e12, e1, -⟩ := placed_reads hc hf
  have e4 : field _ 4 8 = 177 := placed_const (q := (4, 8)) hc hf (by decide)
  have e27 : field _ 27 5 = 29 := placed_const (q := (27, 5)) hc hf (by decide)
  rw [hw] at e22 e17 e12 e1 e4 e27
  simp [decodeWord, decode32, decodeSystem, e1, e4, e12, e17, e22, e27]

theorem cNop : Statement .cNop := by
  intro _ nbits word he
  obtain ⟨rfl, rfl⟩ := of_word (b := 0x7800) he
  rfl

theorem yield : Statement .yield := by
  intro _ nbits word he
  obtain ⟨rfl, rfl⟩ := of_word (b := 0xB0000041) he
  rfl

theorem leave : Statement .leave := by
  intro _ nbits word he
  obtain ⟨rfl, rfl⟩ := of_word (b := 0xB0000091) he
  rfl

theorem bar : Statement .bar := by
  intro _ nbits word he
  obtain ⟨rfl, rfl⟩ := of_word (b := 0xB00000A1) he
  rfl

theorem ungang : Statement .ungang := by
  intro _ nbits word he
  obtain ⟨rfl, rfl⟩ := of_word (b := 0xB00000D1) he
  rfl

theorem waitm : Statement .waitm := by
  intro _ nbits word he
  obtain ⟨rfl, rfl⟩ := of_word (b := 0xD80000A1) he
  rfl

theorem fenceCore : Statement .fenceCore := by
  intro _ nbits word he
  obtain ⟨rfl, rfl⟩ := of_word (b := 0xC0000081) he
  rfl

theorem fenceClus : Statement .fenceClus := by
  intro _ nbits word he
  obtain ⟨rfl, rfl⟩ := of_word (b := 0xC0000091) he
  rfl

theorem fenceDev : Statement .fenceDev := by
  intro _ nbits word he
  obtain ⟨rfl, rfl⟩ := of_word (b := 0xC00000A1) he
  rfl

theorem fenceDom : Statement .fenceDom := by
  intro _ nbits word he
  obtain ⟨rfl, rfl⟩ := of_word (b := 0xC00000B1) he
  rfl

theorem mswap : Statement .mswap := by
  intro _ nbits word he
  obtain ⟨rfl, rfl⟩ := of_word (b := 0xC8000011) he
  rfl

theorem kyield : Statement .kyield := by
  intro _ nbits word he
  obtain ⟨rfl, rfl⟩ := of_word (b := 0xD8000121) he
  rfl

theorem kretire : Statement .kretire := by
  intro _ nbits word he
  obtain ⟨rfl, rfl⟩ := of_word (b := 0xD8000131) he
  rfl

theorem tdone : Statement .tdone := by
  intro _ nbits word he
  obtain ⟨rfl, rfl⟩ := of_word (b := 0xE0000021) he
  rfl

theorem ecall : Statement .ecall := by
  intro _ nbits word he
  obtain ⟨rfl, rfl⟩ := of_word (b := 0xE8000011) he
  rfl

theorem ebreak : Statement .ebreak := by
  intro _ nbits word he
  obtain ⟨rfl, rfl⟩ := of_word (b := 0xE8000021) he
  rfl

theorem xret : Statement .xret := by
  intro _ nbits word he
  obtain ⟨rfl, rfl⟩ := of_word (b := 0xE8000031) he
  rfl

theorem illegalEncodingDecode : Statement .illegalEncodingDecode := fun _ _ _ he => nomatch he

theorem fetchFill : Statement .fetchFill := fun _ _ _ he => nomatch he

theorem iflushComplete : Statement .iflushComplete := fun _ _ _ he => nomatch he

theorem causeTaken : Statement .causeTaken := fun _ _ _ he => nomatch he

theorem monitorCompletion : Statement .monitorCompletion := fun _ _ _ he => nomatch he

theorem divideByZeroDelivery : Statement .divideByZeroDelivery := fun _ _ _ he => nomatch he

theorem lsCorrectedWriteback : Statement .lsCorrectedWriteback := fun _ _ _ he => nomatch he

theorem coreRemap : Statement .coreRemap := fun _ _ _ he => nomatch he

theorem wingsSwapOut : Statement .wingsSwapOut := fun _ _ _ he => nomatch he

theorem wingsSlotGrant : Statement .wingsSlotGrant := fun _ _ _ he => nomatch he

theorem wingsMoveDone : Statement .wingsMoveDone := fun _ _ _ he => nomatch he

theorem spawnRequest : Statement .spawnRequest := fun _ _ _ he => nomatch he

theorem spawnReply : Statement .spawnReply := fun _ _ _ he => nomatch he

theorem killRequest : Statement .killRequest := fun _ _ _ he => nomatch he

theorem killReply : Statement .killReply := fun _ _ _ he => nomatch he

theorem migrateRequest : Statement .migrateRequest := fun _ _ _ he => nomatch he

theorem migrateReply : Statement .migrateReply := fun _ _ _ he => nomatch he

theorem quitDrainEnd : Statement .quitDrainEnd := fun _ _ _ he => nomatch he

theorem reapRecord : Statement .reapRecord := fun _ _ _ he => nomatch he

theorem crewPhaseComplete : Statement .crewPhaseComplete := fun _ _ _ he => nomatch he

theorem gangBufferExecute : Statement .gangBufferExecute := fun _ _ _ he => nomatch he

theorem gangVredCombine : Statement .gangVredCombine := fun _ _ _ he => nomatch he

theorem umpireQueueSelect : Statement .umpireQueueSelect := fun _ _ _ he => nomatch he

theorem launch : Statement .launch := fun _ _ _ he => nomatch he

theorem launchPlacement : Statement .launchPlacement := fun _ _ _ he => nomatch he

theorem placementCommand : Statement .placementCommand := fun _ _ _ he => nomatch he

theorem launchGateLift : Statement .launchGateLift := fun _ _ _ he => nomatch he

theorem launchComplete : Statement .launchComplete := fun _ _ _ he => nomatch he

theorem wait : Statement .wait := fun _ _ _ he => nomatch he

theorem signal : Statement .signal := fun _ _ _ he => nomatch he

theorem seed : Statement .seed := fun _ _ _ he => nomatch he

theorem qadmit : Statement .qadmit := fun _ _ _ he => nomatch he

theorem doorbell : Statement .doorbell := fun _ _ _ he => nomatch he

theorem copyEntryService : Statement .copyEntryService := fun _ _ _ he => nomatch he

theorem copyEntryComplete : Statement .copyEntryComplete := fun _ _ _ he => nomatch he

theorem copyEntryFail : Statement .copyEntryFail := fun _ _ _ he => nomatch he

theorem translationWalk : Statement .translationWalk := fun _ _ _ he => nomatch he

theorem translationFaultStall : Statement .translationFaultStall := fun _ _ _ he => nomatch he

theorem faultRecordWrite : Statement .faultRecordWrite := fun _ _ _ he => nomatch he

theorem faultReplyReplay : Statement .faultReplyReplay := fun _ _ _ he => nomatch he

theorem faultReplyFail : Statement .faultReplyFail := fun _ _ _ he => nomatch he

theorem tierMigratePage : Statement .tierMigratePage := fun _ _ _ he => nomatch he

theorem directRead : Statement .directRead := fun _ _ _ he => nomatch he

theorem rputWrite : Statement .rputWrite := fun _ _ _ he => nomatch he

theorem counterIncrement : Statement .counterIncrement := fun _ _ _ he => nomatch he

theorem counterWindowWrite : Statement .counterWindowWrite := fun _ _ _ he => nomatch he

theorem lsWindowAccess : Statement .lsWindowAccess := fun _ _ _ he => nomatch he

theorem remoteAtomicPerform : Statement .remoteAtomicPerform := fun _ _ _ he => nomatch he

theorem remoteAtomicReply : Statement .remoteAtomicReply := fun _ _ _ he => nomatch he

theorem remoteAtomicCancel : Statement .remoteAtomicCancel := fun _ _ _ he => nomatch he

theorem cancelAtTarget : Statement .cancelAtTarget := fun _ _ _ he => nomatch he

theorem bindingRequest : Statement .bindingRequest := fun _ _ _ he => nomatch he

theorem lockRequest : Statement .lockRequest := fun _ _ _ he => nomatch he

theorem lockRelease : Statement .lockRelease := fun _ _ _ he => nomatch he

theorem lockGrant : Statement .lockGrant := fun _ _ _ he => nomatch he

theorem hubAnswer : Statement .hubAnswer := fun _ _ _ he => nomatch he

theorem messageArrival : Statement .messageArrival := fun _ _ _ he => nomatch he

theorem messageReply : Statement .messageReply := fun _ _ _ he => nomatch he

theorem channelPushArrival : Statement .channelPushArrival := fun _ _ _ he => nomatch he

theorem channelCreditReturn : Statement .channelCreditReturn := fun _ _ _ he => nomatch he

theorem channelDeadlock : Statement .channelDeadlock := fun _ _ _ he => nomatch he

theorem recordDispatch : Statement .recordDispatch := fun _ _ _ he => nomatch he

theorem roleSpill : Statement .roleSpill := fun _ _ _ he => nomatch he

theorem roleFetchBack : Statement .roleFetchBack := fun _ _ _ he => nomatch he

theorem idleLimitExpiry : Statement .idleLimitExpiry := fun _ _ _ he => nomatch he

theorem taskPostAtHub : Statement .taskPostAtHub := fun _ _ _ he => nomatch he

theorem taskDispatch : Statement .taskDispatch := fun _ _ _ he => nomatch he

theorem taskCommit : Statement .taskCommit := fun _ _ _ he => nomatch he

theorem roomAbort : Statement .roomAbort := fun _ _ _ he => nomatch he

theorem weightLoad : Statement .weightLoad := fun _ _ _ he => nomatch he

theorem weightCompress : Statement .weightCompress := fun _ _ _ he => nomatch he

theorem planeSwap : Statement .planeSwap := fun _ _ _ he => nomatch he

theorem streamRowWrite : Statement .streamRowWrite := fun _ _ _ he => nomatch he

theorem accumulatorWriteOut : Statement .accumulatorWriteOut := fun _ _ _ he => nomatch he

theorem transformExecute : Statement .transformExecute := fun _ _ _ he => nomatch he

theorem footprintRetire : Statement .footprintRetire := fun _ _ _ he => nomatch he

theorem heatBoundary : Statement .heatBoundary := fun _ _ _ he => nomatch he

theorem heatExpired : Statement .heatExpired := fun _ _ _ he => nomatch he

theorem linkSlotOpen : Statement .linkSlotOpen := fun _ _ _ he => nomatch he

theorem recallDeadlineExpiry : Statement .recallDeadlineExpiry := fun _ _ _ he => nomatch he

theorem deedTransitEnd : Statement .deedTransitEnd := fun _ _ _ he => nomatch he

theorem zeroOnReadCleared : Statement .zeroOnReadCleared := fun _ _ _ he => nomatch he

theorem dpcmdDoffer : Statement .dpcmdDoffer := fun _ _ _ he => nomatch he

theorem dpcmdDaccept : Statement .dpcmdDaccept := fun _ _ _ he => nomatch he

theorem dpcmdDreject : Statement .dpcmdDreject := fun _ _ _ he => nomatch he

theorem dpcmdDlend : Statement .dpcmdDlend := fun _ _ _ he => nomatch he

theorem dpcmdDrecall : Statement .dpcmdDrecall := fun _ _ _ he => nomatch he

theorem dpcmdDrelease : Statement .dpcmdDrelease := fun _ _ _ he => nomatch he

theorem dpcmdDquery : Statement .dpcmdDquery := fun _ _ _ he => nomatch he

theorem dpcmdNone : Statement .dpcmdNone := fun _ _ _ he => nomatch he

theorem vipost : Statement .vipost := fun _ _ _ he => nomatch he

theorem dbghalt : Statement .dbghalt := fun _ _ _ he => nomatch he

theorem dbgctl : Statement .dbgctl := fun _ _ _ he => nomatch he

theorem snapshotFiring : Statement .snapshotFiring := fun _ _ _ he => nomatch he

theorem snapshotPin : Statement .snapshotPin := fun _ _ _ he => nomatch he

theorem watchdog : Statement .watchdog := fun _ _ _ he => nomatch he

theorem mgmtClaim : Statement .mgmtClaim := fun _ _ _ he => nomatch he

theorem mgmtRelease : Statement .mgmtRelease := fun _ _ _ he => nomatch he

theorem devidWrite : Statement .devidWrite := fun _ _ _ he => nomatch he

theorem linkTraining : Statement .linkTraining := fun _ _ _ he => nomatch he

theorem reset : Statement .reset := fun _ _ _ he => nomatch he

theorem wipeComplete : Statement .wipeComplete := fun _ _ _ he => nomatch he

theorem recoveryImage : Statement .recoveryImage := fun _ _ _ he => nomatch he

theorem raisesvn : Statement .raisesvn := fun _ _ _ he => nomatch he

theorem lifeCycleTransition : Statement .lifeCycleTransition := fun _ _ _ he => nomatch he

theorem monitorVersion : Statement .monitorVersion := fun _ _ _ he => nomatch he

theorem policyload : Statement .policyload := fun _ _ _ he => nomatch he

theorem monstage : Statement .monstage := fun _ _ _ he => nomatch he

theorem thermal : Statement .thermal := fun _ _ _ he => nomatch he

theorem monitorUnknownCall : Statement .monitorUnknownCall := fun _ _ _ he => nomatch he

theorem monitorUpdateApply : Statement .monitorUpdateApply := fun _ _ _ he => nomatch he

theorem thermalThrottle : Statement .thermalThrottle := fun _ _ _ he => nomatch he

theorem hbmTemperatureThreshold : Statement .hbmTemperatureThreshold := fun _ _ _ he => nomatch he

theorem catastrophicShutdown : Statement .catastrophicShutdown := fun _ _ _ he => nomatch he

theorem registerWrite : Statement .registerWrite := fun _ _ _ he => nomatch he

theorem azeroAmoveAtHead : Statement .azeroAmoveAtHead := fun _ _ _ he => nomatch he

theorem remoteAcknowledgement : Statement .remoteAcknowledgement := fun _ _ _ he => nomatch he

theorem hostMemoryAccess : Statement .hostMemoryAccess := fun _ _ _ he => nomatch he

theorem powerLoss : Statement .powerLoss := fun _ _ _ he => nomatch he

theorem localStoreEccError : Statement .localStoreEccError := fun _ _ _ he => nomatch he

theorem dramEccError : Statement .dramEccError := fun _ _ _ he => nomatch he

end Sys2Proof.Laws.RoundTrip
end

