-- ==== Sys2Proof/Laws/Scalar.lean ====
section
/-! SUPPORT. The scalar class's results as operations on bit vectors. -/

namespace Sys2Proof.Machine

theorem shiftOf_eq (y : Word) : shiftOf y = y.toNat % 64 := by simp [shiftOf, bits]

/-- A quotient of a signed value by a positive number fits where the value does. -/
theorem toInt_div_bound (x : Word) (n : Nat) :
    -2 ^ 63 ≤ x.toInt / 2 ^ n ∧ x.toInt / 2 ^ n < 2 ^ 63 := by
  have h1 := x.le_toInt
  have h2 := x.toInt_lt
  have hp : (1 : Int) ≤ 2 ^ n := by exact_mod_cast Nat.one_le_two_pow
  constructor
  · refine (Int.le_ediv_iff_mul_le (by omega)).2 ?_
    have : (-2 ^ 63 : Int) * 2 ^ n ≤ -2 ^ 63 := by nlinarith
    norm_num at *; omega
  · refine Int.ediv_lt_of_lt_mul (by omega) ?_
    have : (2 ^ 63 : Int) ≤ 2 ^ 63 * 2 ^ n := by nlinarith
    norm_num at *; omega

theorem sraBy_eq (x : Word) (n : Nat) : sraBy x n = x.sshiftRight n := by
  apply BitVec.eq_of_toInt_eq
  have h := toInt_div_bound x n
  rw [sraBy, BitVec.toInt_sshiftRight, Int.shiftRight_eq_div_pow, BitVec.toInt_ofInt_eq_self (by omega) (by simpa using h.1) (by simpa using h.2)]
  norm_num

theorem rolBy_eq (x : Word) {n : Nat} (hn : n < 64) : rolBy x n = x.rotateLeft n := by
  apply BitVec.eq_of_toNat_eq
  rw [BitVec.toNat_rotateLeft, Nat.mod_eq_of_lt hn, Nat.shiftLeft_eq, Nat.shiftRight_eq_div_pow]
  have hx := x.isLt
  have hdiv : x.toNat * 2 ^ n / 2 ^ 64 = x.toNat / 2 ^ (64 - n) := by
    rw [show (2 : Nat) ^ 64 = 2 ^ (64 - n) * 2 ^ n by rw [← pow_add]; congr 1; omega]
    exact Nat.mul_div_mul_right _ _ (by positivity)
  have hlow : x.toNat / 2 ^ (64 - n) < 2 ^ n := by
    rw [Nat.div_lt_iff_lt_mul (by positivity), ← pow_add]
    rwa [show n + (64 - n) = 64 by omega]
  have hm : x.toNat * 2 ^ n % 2 ^ 64 = 2 ^ n * (x.toNat % 2 ^ (64 - n)) := by
    rw [show (2 : Nat) ^ 64 = 2 ^ n * 2 ^ (64 - n) by rw [← pow_add]; congr 1; omega, Nat.mul_comm x.toNat,
      Nat.mul_mod_mul_left]
  rw [rolBy, BitVec.toNat_ofNat, hdiv, Nat.add_mod, hm,
    Nat.mod_eq_of_lt (a := x.toNat / 2 ^ (64 - n)) (Nat.lt_of_lt_of_le hlow (Nat.pow_le_pow_right (by omega) (by omega))),
    Nat.mod_eq_of_lt, Nat.two_pow_add_eq_or_of_lt hlow]
  have : x.toNat % 2 ^ (64 - n) < 2 ^ (64 - n) := Nat.mod_lt _ (by positivity)
  have h64 : (2 : Nat) ^ 64 = 2 ^ n * 2 ^ (64 - n) := by rw [← pow_add]; congr 1; omega
  rw [h64]
  nlinarith [Nat.pow_pos (n := n) (show 0 < 2 by omega)]

theorem mulHigh_eq (x y : Word) : mulHigh x y = (x.signExtend 128 * y.signExtend 128).extractLsb' 64 64 := by
  apply BitVec.eq_of_toNat_eq
  rw [mulHigh, BitVec.extractLsb'_toNat, Nat.shiftRight_eq_div_pow]
  have hx1 := x.le_toInt
  have hx2 := x.toInt_lt
  have hy1 := y.le_toInt
  have hy2 := y.toInt_lt
  have e : (x.signExtend 128 * y.signExtend 128).toNat = (x.toInt * y.toInt % 2 ^ 128).toNat := by
    apply Int.natCast_inj.1
    rw [BitVec.toNat_mul]
    have a1 : ((x.signExtend 128).toNat : Int) % 2 ^ 128 = x.toInt % 2 ^ 128 := by
      have := BitVec.toInt_signExtend_of_le (x := x) (show 64 ≤ 128 by omega)
      rw [← this, BitVec.toInt_eq_toNat_bmod]
      exact (Int.bmod_emod).symm
    have a2 : ((y.signExtend 128).toNat : Int) % 2 ^ 128 = y.toInt % 2 ^ 128 := by
      have := BitVec.toInt_signExtend_of_le (x := y) (show 64 ≤ 128 by omega)
      rw [← this, BitVec.toInt_eq_toNat_bmod]
      exact (Int.bmod_emod).symm
    rw [Int.natCast_mod, Nat.cast_mul, Nat.cast_pow, Nat.cast_ofNat, Int.mul_emod, a1, a2, ← Int.mul_emod]
    exact (Int.toNat_of_nonneg (Int.emod_nonneg _ (by norm_num))).symm
  rw [e, BitVec.toNat_ofInt]
  set p := x.toInt * y.toInt
  omega

theorem mulHighNat_eq (x y : Word) : mulHighNat x y = (x.zeroExtend 128 * y.zeroExtend 128).extractLsb' 64 64 := by
  apply BitVec.eq_of_toNat_eq
  have hx := x.isLt
  have hy := y.isLt
  have hp : x.toNat * y.toNat < 2 ^ 64 * 2 ^ 64 := Nat.mul_lt_mul'' hx hy
  have hx' : x.toNat % 2 ^ 128 = x.toNat := Nat.mod_eq_of_lt (by omega)
  have hy' : y.toNat % 2 ^ 128 = y.toNat := Nat.mod_eq_of_lt (by omega)
  rw [mulHighNat, BitVec.extractLsb'_toNat, Nat.shiftRight_eq_div_pow, BitVec.toNat_mul, BitVec.toNat_setWidth,
    BitVec.toNat_setWidth, hx', hy', Nat.mod_eq_of_lt (a := x.toNat * y.toNat) (by omega)]
  simp

/-- The count of leading zeros. -/
theorem clzAuxRec_eq (x : Word) : ∀ n < 64, x.clzAuxRec n = word (63 - n + leadingZeros x.toNat (n + 1))
  | 0, _ => by simp [BitVec.clzAuxRec, leadingZeros, BitVec.getLsbD, apply_ite]
  | n + 1, h => by
    rw [BitVec.clzAuxRec_succ, leadingZeros, clzAuxRec_eq x n (by omega)]
    by_cases hb : x.getLsbD (n + 1)
    · simp [hb, show x.toNat.testBit (n + 1) = true from hb]
    · have : x.toNat.testBit (n + 1) = false := by simpa [BitVec.getLsbD] using hb
      simp only [hb, this]
      simp
      congr 1
      omega

theorem clz_eq (x : Word) : word (leadingZeros x.toNat 64) = x.clz := by
  rw [BitVec.clz, clzAuxRec_eq x 63 (by omega)]
  simp

/-- A bit of the reversed word. -/
theorem reverse_bit (x : Word) {n : Nat} (h : n < 64) :
    x.reverse.getLsbD n = decide (x.toNat / 2 ^ (63 - n) % 2 = 1) := by
  rw [BitVec.getLsbD_reverse, BitVec.getMsbD, BitVec.getLsbD, Nat.testBit_eq_decide_div_mod_eq]
  simp [h]

theorem ctzAux_eq (x : Word) (n : Nat) (h : n < 64) : x.reverse.clzAuxRec n =
    word (63 - n + trailingZeros (x.toNat / 2 ^ (63 - n)) (n + 1)) := by
  induction n with
  | zero =>
    rw [BitVec.clzAuxRec, reverse_bit x h, trailingZeros]
    generalize x.toNat / 2 ^ (63 - 0) = y
    by_cases hy : y % 2 = 1 <;> simp [hy, trailingZeros]
  | succ n ih =>
    have hs : x.toNat / 2 ^ (63 - (n + 1)) / 2 = x.toNat / 2 ^ (63 - n) := by
      rw [Nat.div_div_eq_div_mul, ← pow_succ]
      congr 2; omega
    rw [BitVec.clzAuxRec_succ, trailingZeros, ih (by omega), reverse_bit x h, hs]
    generalize x.toNat / 2 ^ (63 - (n + 1)) = y
    by_cases hy : y % 2 = 1
    · simp [hy]
    · simp only [hy, decide_false, Bool.false_eq_true, if_false]
      congr 1
      omega

theorem ctz_eq (x : Word) : word (trailingZeros x.toNat 64) = x.ctz := by
  rw [BitVec.ctz, BitVec.clz, ctzAux_eq x 63 (by omega)]
  simp

theorem oneBits_succ (x n : Nat) : oneBits x (n + 1) = oneBits x n + x / 2 ^ n % 2 := by
  induction n generalizing x with
  | zero => simp [oneBits]
  | succ n ih =>
    rw [oneBits, ih, oneBits, Nat.div_div_eq_div_mul, ← pow_succ']
    omega

theorem cpopNatRec_eq (x : Word) (n acc : Nat) : x.cpopNatRec n acc = acc + oneBits x.toNat n := by
  induction n generalizing acc with
  | zero => simp [oneBits, BitVec.cpopNatRec]
  | succ n ih =>
    rw [BitVec.cpopNatRec, ih, oneBits_succ]
    have : (x.getLsbD n).toNat = x.toNat / 2 ^ n % 2 := by
      rw [BitVec.getLsbD, Nat.testBit_eq_decide_div_mod_eq]
      rcases Nat.mod_two_eq_zero_or_one (x.toNat / 2 ^ n) with h | h <;> simp [h]
    omega

theorem popc_eq (x : Word) : word (oneBits x.toNat 64) = x.cpop := by
  rw [BitVec.cpop, cpopNatRec_eq]; simp

theorem append_toNat {n : Nat} (a : BitVec n) (b : Byte) : (a ++ b).toNat = a.toNat * 2 ^ 8 + b.toNat := by
  rw [BitVec.toNat_append, Nat.shiftLeft_eq, Nat.mul_comm]
  exact (Nat.two_pow_add_eq_or_of_lt b.isLt a.toNat).symm

theorem swapBytes_eq (x : Word) : swapBytes x =
    x.extractLsb' 0 8 ++ x.extractLsb' 8 8 ++ x.extractLsb' 16 8 ++ x.extractLsb' 24 8 ++
    x.extractLsb' 32 8 ++ x.extractLsb' 40 8 ++ x.extractLsb' 48 8 ++ x.extractLsb' 56 8 := by
  apply BitVec.eq_of_toNat_eq
  simp only [append_toNat]
  simp only [swapBytes, bytesOfNat, natOfBytes, List.reverse_cons, List.reverse_nil, List.nil_append, List.cons_append,
    BitVec.extractLsb'_toNat, BitVec.toNat_ofNat, Nat.shiftRight_eq_div_pow]
  have := x.isLt
  generalize x.toNat = y at *
  norm_num [Nat.div_div_eq_div_mul]
  omega

end Sys2Proof.Machine
end

