-- ==== Sys2Proof/Laws/Trap.lean ====
section
/-! SUPPORT. What taking a cause and returning from a handler do, for a thread in no gang (R372 to R374, R381). -/

namespace Sys2Proof.Machine

/-- Sending a record changes no core. -/
theorem sendRecord_cores (kernel : Nat) (r : FRecord) (s : State) : (sendRecord kernel r s).cores = s.cores := by
  unfold sendRecord
  dsimp only
  split <;> split <;> rfl

/-- Sending a record changes no byte of device memory. -/
theorem sendRecord_dram (kernel : Nat) (r : FRecord) (s : State) : (sendRecord kernel r s).dram = s.dram := by
  unfold sendRecord
  dsimp only
  split <;> split <;> rfl

/-- The context after a cause is taken at the thread's own U-mode handler. -/
theorem takeCause_handler {s : State} {a : Actor} (hg : (s.ctx a).gang = none) (hm : (s.ctx a).mode = 0)
    {cause : Nat} (hd : delegated (s.core a.core).xdeleg (cause % 128) = true)
    (hv : bits (s.ctx a).xvec.toNat 1 56 ≠ 0) (hi : (s.ctx a).intrap = false) (x stop : Word) :
    (takeCause a cause x stop s).ctx a =
      { enterHandler { s.ctx a with wait := none, park := 0 } cause x stop with status := .running, readyAt := s.now + 8 } := by
  have hb : breakGang a 0 s = s := by unfold breakGang; rw [hg]
  have hm' : ({ s.ctx a with wait := none, park := 0 } : Ctx).mode = 0 := hm
  have hi' : ({ s.ctx a with wait := none, park := 0 } : Ctx).intrap = false := hi
  unfold takeCause
  dsimp only
  rw [hb, hm', hi', if_neg (by simp), if_pos ⟨hd, hv, rfl⟩]
  have hpost : ∀ (t : State) (n : Nat) (i : Instr) (l : List Nat), (t.post n i l).ctx a = t.ctx a := fun _ _ _ _ => rfl
  split <;> simp [hpost]

/-- The context after a cause of a U-mode thread is forwarded: the thread is held, with the cause in its trap registers. -/
theorem takeCause_held {s : State} {a : Actor} (hg : (s.ctx a).gang = none) (hm : (s.ctx a).mode = 0) {cause : Nat}
    (hd : ¬ (delegated (s.core a.core).xdeleg (cause % 128) = true ∧ bits (s.ctx a).xvec.toNat 1 56 ≠ 0 ∧
      (s.ctx a).intrap = false)) (x stop : Word) :
    (takeCause a cause x stop s).ctx a =
      { s.ctx a with
        wait := none, park := 0, pc := stop, xpc := stop, xcause := BitVec.ofNat 32 cause, xval := x
        readyAt := max (s.ctx a).readyAt (s.now + 4)
        status := .held (dieOf a.core) (s.die (dieOf a.core)).seq } := by
  have hb : breakGang a 0 s = s := by unfold breakGang; rw [hg]
  have hm' : ({ s.ctx a with wait := none, park := 0 } : Ctx).mode = 0 := hm
  unfold takeCause
  dsimp only
  rw [hb, hm', if_neg (by simp), if_neg (by exact hd)]
  unfold State.ctx State.ctx? State.core
  rw [sendRecord_cores]
  simp [State.setCtx, State.setCore]

/-- What a return from a handler can do: one of two causes for the address in XPC, or completion there with the registers kept. -/
theorem returnFromTrap_cases (s : State) :
    returnFromTrap s = trapE .addressNoncanonical s.me.xpc s ∨ returnFromTrap s = trapE .fetchMisaligned s.me.xpc s ∨
      ∃ c : Ctx, returnFromTrap s = goTo s.me.xpc 4 (s.setMe c) ∧ c.g = s.me.g ∧ c.v = s.me.v ∧ c.e = s.me.e ∧ c.p = s.me.p ∧
        c.xvec = s.me.xvec ∧ c.xval = s.me.xval ∧ c.xcause = s.me.xcause ∧ c.pend = s.me.pend := by
  unfold returnFromTrap
  dsimp only
  split
  · exact .inl rfl
  · split
    · exact .inr (.inl rfl)
    · refine .inr (.inr ⟨_, rfl, ?_⟩)
      generalize (if s.me.mode ≠ 0 then bits s.me.xstat.toNat 2 2 else 0) = mode
      have h : ∀ b : Prop, ∀ [Decidable b], ∀ c d : Ctx, (if b then c else d).g = (if b then c.g else d.g) ∧
          (if b then c else d).v = (if b then c.v else d.v) ∧ (if b then c else d).e = (if b then c.e else d.e) ∧
          (if b then c else d).p = (if b then c.p else d.p) ∧ (if b then c else d).xvec = (if b then c.xvec else d.xvec) ∧
          (if b then c else d).xval = (if b then c.xval else d.xval) ∧
          (if b then c else d).xcause = (if b then c.xcause else d.xcause) ∧
          (if b then c else d).pend = (if b then c.pend else d.pend) := by
        intro b _ c d; split <;> exact ⟨rfl, rfl, rfl, rfl, rfl, rfl, rfl, rfl⟩
      simp [h]

end Sys2Proof.Machine
end

