-- ==== Sys2Proof/Laws/Xmss.lean ====
section
/-! SUPPORT. The lengths of what the signatures of SP 800-208 are made of, and the round trip of a 32-byte key. -/

namespace Sys2Proof.Machine

@[simp] theorem length_bytesOfNat (n x : Nat) : (bytesOfNat n x).length = n := by
  induction n generalizing x with
  | zero => rfl
  | succ n ih => simp [bytesOfNat, ih]

theorem bytesOfNat_natOfBytes (b : List Byte) : bytesOfNat b.length (natOfBytes b) = b := by
  induction b with
  | nil => rfl
  | cons x b ih =>
    have h : (x.toNat + 256 * natOfBytes b) / 256 = natOfBytes b := by have := x.isLt; omega
    simp only [List.length_cons, bytesOfNat, natOfBytes, h, ih]
    congr 1
    apply BitVec.eq_of_toNat_eq
    have := x.isLt
    simp
    omega

/-- Pieces of one length. -/
theorem length_pieces {α β : Type} (l : List α) (f : α → List β) (n : Nat) (h : ∀ x ∈ l, (f x).length = n) :
    (l.flatMap f).length = n * l.length := by
  induction l with
  | nil => simp
  | cons x l ih =>
    rw [List.flatMap_cons, List.length_append, h x (by simp), ih fun y hy => h y (by simp [hy]), List.length_cons]
    ring

@[simp] theorem Keccak.length_forLanes (f : Nat → Nat → Word) : (Keccak.forLanes f).length = 25 := by simp [Keccak.forLanes]

@[simp] theorem Keccak.length_absorb (a : Keccak.Lanes) (b : List Byte) : (Keccak.absorb a b).length = 25 := by
  simp only [Keccak.absorb, Keccak.permute, Keccak.roundConstants, List.foldl]
  rw [Keccak.round]
  exact Keccak.length_forLanes _

theorem Keccak.length_foldl (bs : List (List Byte)) (a : Keccak.Lanes) (h : a.length = 25) :
    (bs.foldl Keccak.absorb a).length = 25 := by
  induction bs generalizing a with
  | nil => exact h
  | cons b bs ih => exact ih _ (Keccak.length_absorb a b)

@[simp] theorem Keccak.length_shake256 (m : List Byte) : (Keccak.shake256 m 32).length = 32 := by
  rw [Keccak.shake256, Keccak.sponge, List.length_take, length_pieces _ _ 8 fun x _ => length_bytesOfNat 8 _,
    Keccak.length_foldl _ _ List.length_replicate]
  rfl

namespace Xmss

@[simp] theorem length_toByte (x n : Nat) : (toByte x n).length = n := by simp [toByte]

@[simp] theorem length_keyed (i : Nat) (k m : List Byte) : (keyed i k m).length = 32 := Keccak.length_shake256 _

theorem length_chain (seed : List Byte) (adrs : Nat → Nat → List Byte) (n i : Nat) (x : List Byte) (h : x.length = 32) :
    (chain seed adrs n i x).length = 32 := by
  induction n generalizing i x with
  | zero => exact h
  | succ n ih => exact ih _ _ (length_keyed ..)

@[simp] theorem length_chainOf_secret (sk seed : List Byte) (layer tree leaf i place steps : Nat) :
    (chainOf seed layer tree leaf i place steps (secret sk seed layer tree leaf i)).length = 32 :=
  length_chain _ _ _ _ _ (length_keyed ..)

theorem length_digits (m : List Byte) : (digits m).length = 2 * m.length + 3 := by
  have h : (m.flatMap fun b => [b.toNat / 16, b.toNat % 16]).length = 2 * m.length := length_pieces m _ 2 fun _ _ => rfl
  simp [digits, h]

/-- What joining in pairs keeps: nodes of 32 bytes, half as many, rounded up. -/
theorem joinPairs_nodes (seed : List Byte) (adrs : Nat → Nat → List Byte) (i : Nat) (xs : List (List Byte))
    (h : ∀ x ∈ xs, x.length = 32) :
    (∀ x ∈ joinPairs seed adrs i xs, x.length = 32) ∧ (joinPairs seed adrs i xs).length = (xs.length + 1) / 2 := by
  induction i, xs using joinPairs.induct with
  | case1 i l r rest ih =>
    have ih := ih fun x hx => h x (by simp [hx])
    simp only [joinPairs, List.mem_cons, List.length_cons]
    exact ⟨fun x hx => hx.elim (fun e => e ▸ length_keyed ..) (ih.1 x), by omega⟩
  | case2 i xs hx =>
    match xs, hx with
    | [], _ => simp [joinPairs]
    | [x], _ => simpa [joinPairs] using h x
    | a :: b :: r, hx => exact absurd rfl (hx a b r)

theorem length_lTree (seed : List Byte) (adrs : Nat → Nat → Nat → List Byte) (n level : Nat) (xs : List (List Byte))
    (h : ∀ x ∈ xs, x.length = 32) (h0 : xs ≠ []) : (lTree seed adrs n level xs).length = 32 := by
  induction n generalizing level xs with
  | zero =>
    cases xs with
    | nil => exact absurd rfl h0
    | cons x xs => exact h x (by simp)
  | succ n ih =>
    have hp := joinPairs_nodes seed (adrs level) 0 xs h
    refine ih _ _ hp.1 fun e => h0 ?_
    have := hp.2
    rw [e] at this
    exact List.length_eq_zero_iff.1 (by simp at this; omega)

@[simp] theorem length_node (sk seed : List Byte) (layer tree h i : Nat) : (node sk seed layer tree h i).length = 32 := by
  cases h with
  | zero =>
    refine length_lTree _ _ _ _ _ (fun x hx => ?_) (by simp)
    obtain ⟨j, -, rfl⟩ := List.mem_map.1 hx
    exact length_chainOf_secret ..
  | succ h => exact length_keyed ..

@[simp] theorem length_publicKey (sk seed : List Byte) : (publicKey sk seed).length = 32 + seed.length := by simp [publicKey]

/-- The public seed is the second half of the public key. -/
theorem drop_publicKey (sk seed : List Byte) : (publicKey sk seed).drop 32 = seed := by
  simp [publicKey]

theorem length_treeSignature (sk seed m : List Byte) (layer tree height leaf : Nat) (h : m.length = 32) :
    (treeSignature sk seed m layer tree height leaf).length = 2144 + 32 * height := by
  rw [treeSignature, List.length_append, length_pieces _ _ 32 fun _ _ => length_chainOf_secret ..,
    length_pieces _ _ 32 fun _ _ => length_node .., List.length_zipIdx, length_digits, h, List.length_range]

theorem length_layered (sk seed : List Byte) (n layer i : Nat) (m : List Byte) (h : m.length = 32) :
    (layered sk seed n layer i m).length = 2464 * n := by
  induction n generalizing layer i m with
  | zero => rfl
  | succ n ih =>
    rw [layered, List.length_append, length_treeSignature _ _ _ _ _ _ _ h, ih _ _ _ (length_node ..)]
    ring

/-- A signature has 9,893 bytes (R417). -/
@[simp] theorem length_sign (sk prfKey public_ : List Byte) (i : Nat) (m : List Byte) :
    (sign sk prfKey public_ i m).length = 9893 := by
  simp [sign, length_layered _ _ _ _ _ _ (length_keyed ..), prf, digest]

end Xmss
end Sys2Proof.Machine
end

