-- ==== Sys2Proof/Tests/Slice0.lean ====
section
/-! SUPPORT. Tests: what the decoder and the well-formedness check take and refuse, results that the spec's examples give, and
for every statement a state and operands that meet its hypotheses. -/

open Sys2Proof Sys2Proof.Machine

namespace Sys2Proof.Tests

-- One theorem after another, so that checking the package as one text needs less memory.
set_option Elab.async false

/-! ### Terms that are no instructions

For every check of `Instr.wellFormed` a term that fails it; the term before them, with every operand in its range, passes. -/

/-- A term passes, and each of these fails. -/
def refuses (good : Instr) (bad : List Instr) : Bool := good.wellFormed && bad.all fun i => !i.wellFormed

theorem test_illFormed1 :
  (([.add, .sub, .and, .or, .xor, .andn, .sll, .srl, .sra, .rol, .min, .max, .minn, .maxn, .slt, .sltn, .sel, .mul, .mulh, .mulhn,
    .div, .divn, .rem, .remn, .chwm] : List (Nat → Nat → Nat → Instr)).all fun f =>
    refuses (f 0 0 0) [f 32 0 0, f 0 32 0, f 0 0 32]) &&
  (([.addsh, .spawn, .bind, .unbind, .csrw, .csrs, .csrc, .doffer, .dlend, .psplit, .heatset, .curtain, .token] : List (Nat → Nat
    → Nat → Nat → Instr)).all fun f =>
    refuses (f 0 0 0 0) [f 32 0 0 0, f 0 32 0 0, f 0 0 32 0, f 0 0 0 8]) &&
  (([.clz, .ctz, .popc, .bswap, .cAdd, .cSub, .cAnd, .cOr, .cAddi, .cLi, .cSlli, .cSrli, .cSrai, .cLw, .cSw, .cBeqz, .cBnez, .feq,
    .feqTake, .pri, .acqX, .acqS, .chbind, .klook, .tstat, .twait, .tlbinv, .dquery] : List (Nat → Nat → Instr)).all fun f =>
    refuses (f 0 0) [f 32 0, f 0 32]) &&
  (([.slli, .srli, .srai, .roli] : List (Nat → Nat → Nat → Nat → Instr)).all fun f =>
    refuses (f 0 0 0 0) [f 32 0 0 0, f 0 32 0 0, f 0 0 32 0, f 0 0 0 2]) &&
  (([.addi, .andi, .ori, .xori, .slti, .jalr] : List (Nat → Nat → Nat → Instr)).all fun f =>
    refuses (f 0 0 0) [f 32 0 0, f 0 32 0, f 0 0 65536]) &&
  (([.lui, .addpc] : List (Nat → Nat → Instr)).all fun f =>
    refuses (f 0 0) [f 32 0, f 0 2097152]) &&
  (([.beq, .bne, .blt, .bge, .bltn, .bgen, .bany, .bnone] : List (Nat → Nat → Nat → Instr)).all fun f =>
    refuses (f 0 0 0) [f 32 0 0, f 0 32 0, f 0 0 8192]) &&
  (([.j, .jal] : List (Nat → Instr)).all fun f =>
    refuses (f 0) [f 67108864]) &&
  (([.ld] : List (Nat → Nat → Nat → Nat → Instr)).all fun f =>
    refuses (f 0 0 0 0) [f 32 0 0 0, f 0 32 0 0, f 0 0 8 0, f 0 0 0 8192, f 0 0 7 0]) &&
  (([.st] : List (Nat → Nat → Nat → Nat → Instr)).all fun f =>
    refuses (f 0 0 0 0) [f 32 0 0 0, f 0 32 0 0, f 0 0 8 0, f 0 0 0 8192, f 0 0 4 0]) &&
  (([.cMv] : List (Nat → Nat → Instr)).all fun f =>
    refuses (f 0 1) [f 32 1, f 0 32, f 0 0]) &&
  (([.cJr, .quit, .join, .qstat, .rel, .waitn, .trap, .snap] : List (Nat → Instr)).all fun f =>
    refuses (f 0) [f 32]) := by
  decide

theorem test_illFormed2 :
  (([.exti] : List (Nat → Nat → Nat → Instr)).all fun f =>
    refuses (f 0 0 0) [f 8 0 0, f 0 4 0, f 0 0 65536]) &&
  (([.extr, .fbrev, .fpass, .ftwg, .ftwm] : List (Nat → Nat → Instr)).all fun f =>
    refuses (f 0 0) [f 8 0, f 0 32]) &&
  (([.ldfe, .ldf, .stfe, .stf] : List (Nat → Nat → Nat → Instr)).all fun f =>
    refuses (f 0 0 2) [f 32 0 2, f 0 32 2, f 0 0 8, f 0 0 0]) &&
  (([.feset] : List (Nat → Nat → Nat → Instr)).all fun f =>
    refuses (f 0 0 2) [f 32 0 2, f 0 4 2, f 0 0 8, f 0 0 0]) &&
  (([.cas, .amoAdd, .amoAnd, .amoOr, .amoXor, .amoMin, .amoMax, .amoMinn, .amoMaxn, .amoSwap] : List (Nat → Nat → Nat → Nat →
    Instr)).all fun f =>
    refuses (f 0 0 0 2) [f 32 0 0 2, f 0 32 0 2, f 0 0 32 2, f 0 0 0 8, f 0 0 0 0]) &&
  (([.vintVadd, .vintVsub, .vintVmul, .vintVmin, .vintVmax, .vintVand, .vintVor, .vintVxor, .vintVshl, .vintVshr] : List (Nat →
    Nat → Nat → Nat → Nat → Instr)).all fun f =>
    refuses (f 0 0 0 0 0) [f 32 0 0 0 0, f 0 32 0 0 0, f 0 0 32 0 0, f 0 0 0 16 0, f 0 0 0 0 8, f 0 0 0 8 0]) &&
  (([.vintVabs, .vintVneg] : List (Nat → Nat → Nat → Nat → Instr)).all fun f =>
    refuses (f 0 0 0 0) [f 32 0 0 0, f 0 32 0 0, f 0 0 16 0, f 0 0 0 8, f 0 0 4 0]) &&
  (([.vintVcmp] : List (Nat → Nat → Nat → Nat → Nat → Nat → Instr)).all fun f =>
    refuses (f 0 0 0 0 0 0) [f 4 0 0 0 0 0, f 0 8 0 0 0 0, f 0 0 32 0 0 0, f 0 0 0 32 0 0, f 0 0 0 0 16 0, f 0 0 0 0 0 8, f 0 0 0 0
    8 0]) &&
  (([.vintVred] : List (Nat → Nat → Nat → Nat → Nat → Instr)).all fun f =>
    refuses (f 0 0 0 0 0) [f 32 0 0 0 0, f 0 32 0 0 0, f 0 0 32 0 0, f 0 0 0 16 0, f 0 0 0 0 8, f 0 0 0 8 0, f 0 0 6 0 0]) &&
  (([.vdot4] : List (Nat → Nat → Nat → Nat → Nat → Instr)).all fun f =>
    refuses (f 0 0 0 0 0) [f 32 0 0 0 0, f 0 32 0 0 0, f 0 0 32 0 0, f 0 0 0 16 0, f 0 0 0 0 8, f 0 0 0 2 0]) &&
  (([.vfltVadd, .vfltVsub, .vfltVmul, .vfltVmin, .vfltVmax, .vfma, .vfnma, .vminnum, .vmaxnum] : List (Nat → Nat → Nat → Nat → Nat
    → Instr)).all fun f =>
    refuses (f 0 0 0 8 0) [f 32 0 0 8 0, f 0 32 0 8 0, f 0 0 32 8 0, f 0 0 0 16 0, f 0 0 0 8 8, f 0 0 0 0 0, f 0 0 0 12 0]) &&
  (([.vfltVabs, .vfltVneg] : List (Nat → Nat → Nat → Nat → Instr)).all fun f =>
    refuses (f 0 0 8 0) [f 32 0 8 0, f 0 32 8 0, f 0 0 16 0, f 0 0 8 8, f 0 0 0 0, f 0 0 12 0]) := by
  decide

theorem test_illFormed3 :
  (([.vfltVcmp] : List (Nat → Nat → Nat → Nat → Nat → Nat → Instr)).all fun f =>
    refuses (f 0 0 0 0 8 0) [f 4 0 0 0 8 0, f 0 8 0 0 8 0, f 0 0 32 0 8 0, f 0 0 0 32 8 0, f 0 0 0 0 16 0, f 0 0 0 0 8 8, f 0 0 0 0
    0 0, f 0 0 0 0 12 0]) &&
  (([.vfltVred] : List (Nat → Nat → Nat → Nat → Nat → Instr)).all fun f =>
    refuses (f 0 0 0 8 0) [f 32 0 0 8 0, f 0 32 0 8 0, f 0 0 32 8 0, f 0 0 0 16 0, f 0 0 0 8 8, f 0 0 0 0 0, f 0 0 0 12 0, f 0 0 5 8
    0]) &&
  (([.vsel, .vperm, .vld, .vst, .vlds, .vldx, .vstx] : List (Nat → Nat → Nat → Nat → Nat → Instr)).all fun f =>
    refuses (f 0 0 0 0 0) [f 32 0 0 0 0, f 0 32 0 0 0, f 0 0 32 0 0, f 0 0 0 16 0, f 0 0 0 0 8]) &&
  (([.vsplat, .vrcp, .vrsqrt, .vsqrt, .vexp2, .vlog2, .vsinpi, .vcospi] : List (Nat → Nat → Nat → Nat → Instr)).all fun f =>
    refuses (f 0 0 0 0) [f 32 0 0 0, f 0 32 0 0, f 0 0 16 0, f 0 0 0 8]) &&
  (([.vpack] : List (Nat → Nat → Nat → Nat → Instr)).all fun f =>
    refuses (f 0 0 0 0) [f 32 0 0 0, f 0 32 0 0, f 0 0 32 0, f 0 0 0 16]) &&
  (([.vunpack] : List (Nat → Nat → Nat → Nat → Instr)).all fun f =>
    refuses (f 0 0 0 0) [f 32 0 0 0, f 0 32 0 0, f 0 0 2 0, f 0 0 0 16]) &&
  (([.vcvt] : List (Nat → Nat → Nat → Nat → Nat → Instr)).all fun f =>
    refuses (f 0 0 0 0 0) [f 32 0 0 0 0, f 0 32 0 0 0, f 0 0 16 0 0, f 0 0 0 16 0, f 0 0 0 0 8]) &&
  (([.reap, .gang, .kadd, .mcomp, .send, .recv, .stagedef, .tpost, .tfoot, .csrr, .ctxsave, .ctxload, .daccept, .dreject,
    .drecall, .drelease, .pmerge] : List (Nat → Nat → Nat → Instr)).all fun f =>
    refuses (f 0 0 0) [f 32 0 0, f 0 32 0, f 0 0 8]) &&
  (([.kill, .migrate, .wake, .mldw, .enq, .deq] : List (Nat → Nat → Instr)).all fun f =>
    refuses (f 0 0) [f 32 0, f 0 8]) &&
  (([.bartry, .azero, .krecv] : List (Nat → Instr)).all fun f =>
    refuses (f 0) [f 8]) &&
  (([.part] : List (Nat → Nat → Nat → Nat → Instr)).all fun f =>
    refuses (f 0 0 0 0) [f 32 0 0 0, f 0 32 0 0, f 0 0 32 0, f 0 0 0 8, f 0 0 0 2]) &&
  (([.get, .put, .rput] : List (Nat → Nat → Nat → Nat → Instr)).all fun f =>
    refuses (f 0 0 0 0) [f 64 0 0 0, f 0 16 0 0, f 0 0 32 0, f 0 0 0 8]) := by
  decide

theorem test_illFormed4 :
  (([.gets, .puts] : List (Nat → Nat → Nat → Nat → Nat → Instr)).all fun f =>
    refuses (f 0 0 0 0 0) [f 64 0 0 0 0, f 0 16 0 0 0, f 0 0 8 0 0, f 0 0 0 4 0, f 0 0 0 0 8, f 0 0 0 0 5]) &&
  (([.gamoAdd, .gamoAnd, .gamoOr, .gamoXor, .gamoMin, .gamoMax, .gamoMinn, .gamoMaxn, .gamoSwap] : List (Nat → Nat → Nat → Nat →
    Nat → Instr)).all fun f =>
    refuses (f 0 0 0 0 0) [f 64 0 0 0 0, f 0 16 0 0 0, f 0 0 16 0 0, f 0 0 0 2 0, f 0 0 0 0 8]) &&
  (([.kset, .kread, .waitc] : List (Nat → Nat → Instr)).all fun f =>
    refuses (f 0 0) [f 64 0, f 0 32]) &&
  (([.tierpf] : List (Nat → Nat → Nat → Nat → Instr)).all fun f =>
    refuses (f 0 0 0 0) [f 64 0 0 0, f 0 16 0 0, f 0 0 2 0, f 0 0 0 8]) &&
  (([.rcas, .ramoAdd, .ramoAnd, .ramoOr, .ramoXor, .ramoMin, .ramoMax, .ramoMinn, .ramoMaxn, .ramoSwap] : List (Nat → Nat → Nat →
    Nat → Instr)).all fun f =>
    refuses (f 0 0 0 2) [f 32 0 0 2, f 0 32 0 2, f 0 0 32 2, f 0 0 0 8, f 0 0 0 0]) &&
  (([.iflush] : List (Nat → Nat → Nat → Nat → Instr)).all fun f =>
    refuses (f 0 0 0 0) [f 64 0 0 0, f 0 32 0 0, f 0 0 4 0, f 0 0 0 8]) &&
  (([.mstream, .mstreams, .mstreamd] : List (Nat → Nat → Nat → Nat → Instr)).all fun f =>
    refuses (f 0 0 0 0) [f 8 0 0 0, f 0 32 0 0, f 0 0 32 0, f 0 0 0 8]) &&
  (([.aldr, .astr, .aout] : List (Nat → Nat → Nat → Instr)).all fun f =>
    refuses (f 0 0 0) [f 8 0 0, f 0 32 0, f 0 0 32]) &&
  (([.amove] : List (Nat → Nat → Instr)).all fun f =>
    refuses (f 0 0) [f 8 0, f 0 8]) &&
  (([.fcmul] : List (Nat → Nat → Nat → Instr)).all fun f =>
    refuses (f 0 0 0) [f 8 0 0, f 0 8 0, f 0 0 32]) := by
  decide

/-! ### Decoding

The words are written out from the encoding of each instruction in the tables of R23 to R31: fixed bits and operand
fields, an underscore between them. -/

/-- Each word decodes to its instruction. -/
def decodes (l : List (Nat × Nat × Instr)) : Bool :=
  l.all fun e => match decodeWord e.1 e.2.1 with
    | .ok i => decide (i = e.2.2)
    | .error _ => false

theorem test_decode_scalar1 : decodes [
  (4, 0b00000_10000_10110_00001_000000000001, .add 16 22 1),
  (4, 0b00000_11101_01111_00011_000000010001, .sub 29 15 3),
  (4, 0b00000_01010_00111_10111_000000100001, .and 10 7 23),
  (4, 0b00000_11110_01111_11000_000000110001, .or 30 15 24),
  (4, 0b00000_00110_01111_00000_000001000001, .xor 6 15 0),
  (4, 0b00000_01101_11010_10001_000001010001, .andn 13 26 17),
  (4, 0b00000_01011_11000_01010_000010000001, .sll 11 24 10),
  (4, 0b00000_00100_01000_11100_000010010001, .srl 4 8 28),
  (4, 0b00000_10100_01100_01101_000010100001, .sra 20 12 13),
  (4, 0b00000_01011_01100_11000_000010110001, .rol 11 12 24),
  (4, 0b00000_10011_00001_10111_000100000001, .min 19 1 23),
  (4, 0b00000_11010_01010_01001_000100010001, .max 26 10 9),
  (4, 0b00000_10000_00100_10101_000100100001, .minn 16 4 21),
  (4, 0b00000_10011_00000_10101_000100110001, .maxn 19 0 21),
  (4, 0b00000_00100_10011_10110_000101000001, .slt 4 19 22),
  (4, 0b00000_10011_11110_10100_000101010001, .sltn 19 30 20),
  (4, 0b00000_01011_00011_10000_000101100001, .sel 11 3 16),
  (4, 0b00000_00001_10110_11001_00011000_000_1, .addsh 1 22 25 0),
  (4, 0b00000_11010_10111_11000_001000000001, .mul 26 23 24),
  (4, 0b00000_00000_11100_00010_001000010001, .mulh 0 28 2)] = true := by decide

theorem test_decode_scalar2 : decodes [
  (4, 0b00000_01011_01100_00111_001000100001, .mulhn 11 12 7),
  (4, 0b00000_01111_11101_10110_001001000001, .div 15 29 22),
  (4, 0b00000_10110_10000_11101_001001010001, .divn 22 16 29),
  (4, 0b00000_00110_10111_10010_001001100001, .rem 6 23 18),
  (4, 0b00000_00010_11011_00101_001001110001, .remn 2 27 5),
  (4, 0b00000_01101_10101_00000001100000001, .clz 13 21),
  (4, 0b00000_10111_01001_00000001100010001, .ctz 23 9),
  (4, 0b00000_10101_10001_00000001100100001, .popc 21 17),
  (4, 0b00000_00101_10011_00000001100110001, .bswap 5 19),
  (4, 0b00101_10100_10011_01011_00000_0_000001, .slli 20 19 11 0),
  (4, 0b00101_01001_10011_11110_00000_0_010001, .srli 9 19 30 0),
  (4, 0b00101_00011_00101_11001_00000_0_100001, .srai 3 5 25 0),
  (4, 0b00101_01111_10110_10000_00000_1_110001, .roli 15 22 16 1),
  (4, 0b00001_11010_01001_0001110010000101_1, .addi 26 9 7301),
  (4, 0b00010_00010_11111_1010101100011010_1, .andi 2 31 43802),
  (4, 0b00011_01101_01000_0100001111111011_1, .ori 13 8 17403),
  (4, 0b00100_11010_00110_0101011001101111_1, .xori 26 6 22127),
  (4, 0b00110_11011_10111_0100110001101001_1, .slti 27 23 19561),
  (4, 0b00111_00011_110101110101111011100_1, .lui 3 1764316),
  (4, 0b01000_10010_010010000100101110101_1, .addpc 18 592245)] = true := by decide

theorem test_decode_scalar3 : decodes [
  (4, 0b01001_11101_01010_000_1110100000110_1, .beq 29 10 7430),
  (4, 0b01001_11111_10100_001_1111010101000_1, .bne 31 20 7848),
  (4, 0b01001_10001_10010_010_1111000010101_1, .blt 17 18 7701),
  (4, 0b01001_11001_01001_011_0011100110100_1, .bge 25 9 1844),
  (4, 0b01001_11000_01011_100_1111111110100_1, .bltn 24 11 8180),
  (4, 0b01001_10101_01011_101_0010110110100_1, .bgen 21 11 1460),
  (4, 0b01001_11111_10001_110_1011100011111_1, .bany 31 17 5919),
  (4, 0b01001_00100_10110_111_0001000110010_1, .bnone 4 22 562),
  (4, 0b01010_10011100100001001001011100_1, .j 41030236),
  (4, 0b01011_10111010000100111011101001_1, .jal 48778985),
  (4, 0b01100_10001_11111_1000011110011011_1, .jalr 17 31 34715),
  (4, 0b1010100_101_000_11_0010010011011010_1, .exti 5 3 9434),
  (4, 0b1010101_011_01111_00000000000000001, .extr 3 15)] = true := by decide

theorem test_decode_short : decodes [
  (2, 0b00000_11110_10010_0, .cMv 30 18),
  (2, 0b00001_00101_11010_0, .cAdd 5 26),
  (2, 0b00010_01010_11010_0, .cSub 10 26),
  (2, 0b00011_10011_10001_0, .cAnd 19 17),
  (2, 0b00100_00001_01100_0, .cOr 1 12),
  (2, 0b00101_01010_11100_0, .cAddi 10 28),
  (2, 0b00110_01011_01110_0, .cLi 11 14),
  (2, 0b00111_01011_00010_0, .cSlli 11 2),
  (2, 0b01000_11110_01110_0, .cSrli 30 14),
  (2, 0b01001_01010_00011_0, .cSrai 10 3),
  (2, 0b01010_01000_00111_0, .cLw 8 7),
  (2, 0b01011_10100_01011_0, .cSw 20 11),
  (2, 0b01100_11110_01100_0, .cBeqz 30 12),
  (2, 0b01101_00010_11010_0, .cBnez 2 26),
  (2, 0b0111000000_11101_0, .cJr 29),
  (2, 0b0111100000000000, .cNop)] = true := by decide

theorem test_decode_localStore1 : decodes [
  (4, 0b01101_10010_10101_010_0000010111101_1, .ld 18 21 2 189),
  (4, 0b01110_01001_01010_011_1011100101011_1, .st 9 10 3 5931),
  (4, 0b01111_10111_11101_0000000000000_010_1, .ldfe 23 29 2),
  (4, 0b01111_00110_10100_0000000000001_010_1, .ldf 6 20 2),
  (4, 0b01111_00111_11100_0000000000010_011_1, .stfe 7 28 3),
  (4, 0b01111_00111_00001_0000000000011_010_1, .stf 7 1 2),
  (4, 0b0111100000_11101_000_00_00000100_011_1, .feset 29 0 3),
  (4, 0b01111_00000_11011_00000000001010001, .feq 0 27),
  (4, 0b01111_11011_11110_00000000001010011, .feqTake 27 30),
  (4, 0b01111_11000_11110_11001_00001000_011_1, .cas 24 30 25 3),
  (4, 0b01111_00011_00111_11001_00010000_010_1, .amoAdd 3 7 25 2),
  (4, 0b01111_00011_01000_10010_00010001_010_1, .amoAnd 3 8 18 2),
  (4, 0b01111_01111_10000_10010_00010010_010_1, .amoOr 15 16 18 2),
  (4, 0b01111_00001_11101_11110_00010011_010_1, .amoXor 1 29 30 2),
  (4, 0b01111_01111_01010_00010_00010100_011_1, .amoMin 15 10 2 3),
  (4, 0b01111_01010_01111_01011_00010101_011_1, .amoMax 10 15 11 3),
  (4, 0b01111_01011_11001_01100_00010110_011_1, .amoMinn 11 25 12 3),
  (4, 0b01111_11100_01110_00111_00010111_010_1, .amoMaxn 28 14 7 2),
  (4, 0b01111_11001_10100_01000_00011000_010_1, .amoSwap 25 20 8 2),
  (4, 0b10100_10011_11101_01000_0000_0100_101_1, .vld 19 29 8 4 5)] = true := by decide

theorem test_decode_localStore2 : decodes [
  (4, 0b10100_10011_10001_00101_0001_1101_110_1, .vst 19 17 5 13 6),
  (4, 0b10100_00000_11101_11110_0010_1001_111_1, .vlds 0 29 30 9 7),
  (4, 0b10100_00111_00110_01111_0011_1100_011_1, .vldx 7 6 15 12 3),
  (4, 0b10100_11110_10111_01100_0100_0100_000_1, .vstx 30 23 12 4 0)] = true := by decide

theorem test_decode_vector1 : decodes [
  (4, 0b10000_00101_11110_01111_0000_0010_110_1, .vintVadd 5 30 15 2 6),
  (4, 0b10000_11000_01000_10100_0001_0010_100_1, .vintVsub 24 8 20 2 4),
  (4, 0b10000_11011_01010_11100_0010_0001_010_1, .vintVmul 27 10 28 1 2),
  (4, 0b10000_11110_11111_00000_0011_0011_010_1, .vintVmin 30 31 0 3 2),
  (4, 0b10000_01101_01100_10001_0100_0110_100_1, .vintVmax 13 12 17 6 4),
  (4, 0b10000_01010_11001_000000101_0011_100_1, .vintVabs 10 25 3 4),
  (4, 0b10000_01110_11110_000000110_0011_000_1, .vintVneg 14 30 3 0),
  (4, 0b10000_01100_01010_00111_0111_0010_101_1, .vintVand 12 10 7 2 5),
  (4, 0b10000_01011_00110_10111_1000_0011_001_1, .vintVor 11 6 23 3 1),
  (4, 0b10000_11111_10010_00001_1001_0011_111_1, .vintVxor 31 18 1 3 7),
  (4, 0b10000_10010_11111_00101_1010_0011_100_1, .vintVshl 18 31 5 3 4),
  (4, 0b10000_01011_11000_01111_1011_0010_111_1, .vintVshr 11 24 15 2 7),
  (4, 0b10000_01_100_01100_11011_1100_0010_101_1, .vintVcmp 1 4 12 27 2 5),
  (4, 0b10000_10010_01011_00000_1101_0100_110_1, .vintVred 18 11 0 4 6),
  (4, 0b10000_01101_11100_10011_1110_0100_110_1, .vdot4 13 28 19 4 6),
  (4, 0b10001_00101_10101_01101_0000_1011_001_1, .vfltVadd 5 21 13 11 1),
  (4, 0b10001_10011_10000_11101_0001_1011_001_1, .vfltVsub 19 16 29 11 1),
  (4, 0b10001_01011_10111_11110_0010_1010_001_1, .vfltVmul 11 23 30 10 1),
  (4, 0b10001_00111_11100_10001_0011_1011_101_1, .vfltVmin 7 28 17 11 5),
  (4, 0b10001_01000_01001_11101_0100_1011_100_1, .vfltVmax 8 9 29 11 4)] = true := by decide

theorem test_decode_vector2 : decodes [
  (4, 0b10001_11001_10100_000000101_1000_011_1, .vfltVabs 25 20 8 3),
  (4, 0b10001_00010_01110_000000110_1010_101_1, .vfltVneg 2 14 10 5),
  (4, 0b10001_00111_01100_00110_0111_1001_001_1, .vfma 7 12 6 9 1),
  (4, 0b10001_01111_00100_00111_1000_1011_101_1, .vfnma 15 4 7 11 5),
  (4, 0b10001_10000_11010_01010_1001_1000_100_1, .vminnum 16 26 10 8 4),
  (4, 0b10001_01101_11000_00110_1010_1001_111_1, .vmaxnum 13 24 6 9 7),
  (4, 0b10001_01_011_11000_01101_1100_1001_010_1, .vfltVcmp 1 3 24 13 9 2),
  (4, 0b10001_01011_00111_00001_1101_1010_110_1, .vfltVred 11 7 1 10 6),
  (4, 0b10010_10101_01110_01010_0000_1111_111_1, .vsel 21 14 10 15 7),
  (4, 0b10010_10100_00011_000000001_1010_000_1, .vsplat 20 3 10 0),
  (4, 0b10010_11111_00010_01101_0010_0110_100_1, .vperm 31 2 13 6 4),
  (4, 0b10010_10001_10011_01110_0011_0111_0001, .vpack 17 19 14 7),
  (4, 0b10010_11100_00100_0000_1_0100_1111_0001, .vunpack 28 4 1 15),
  (4, 0b10011_01110_10101_0_1101_0000_1000_011_1, .vcvt 14 21 13 8 3),
  (4, 0b10011_10111_11011_000000001_0000_101_1, .vrcp 23 27 0 5),
  (4, 0b10011_10010_01111_000000010_1011_011_1, .vrsqrt 18 15 11 3),
  (4, 0b10011_10010_00110_000000011_1111_100_1, .vsqrt 18 6 15 4),
  (4, 0b10011_00111_10001_000000100_0001_010_1, .vexp2 7 17 1 2),
  (4, 0b10011_01001_01110_000000101_1010_101_1, .vlog2 9 14 10 5),
  (4, 0b10011_01011_00010_000000110_1101_110_1, .vsinpi 11 2 13 6)] = true := by decide

theorem test_decode_vector3 : decodes [
  (4, 0b10011_11000_00000_000000111_0011_100_1, .vcospi 24 0 3 4)] = true := by decide

theorem test_decode_thread : decodes [
  (4, 0b10110_00001_00111_11001_00000000_110_1, .spawn 1 7 25 6),
  (4, 0b1011000000_00000_00000000000010001, .quit 0),
  (4, 0b10110_11101_00000_10101_00000010_011_1, .reap 29 21 3),
  (4, 0b1011000000_10100_0000000000011_111_1, .kill 20 7),
  (4, 0b10110000000000000000000001000001, .yield),
  (4, 0b10110_10000_01101_00000000001010001, .pri 16 13),
  (4, 0b1011000000_01110_0000000000110_111_1, .migrate 14 7),
  (4, 0b1011000000_11110_0000000000111_100_1, .wake 30 4),
  (4, 0b1011000000_00100_00000000010000001, .join 4),
  (4, 0b10110000000000000000000010010001, .leave),
  (4, 0b10110000000000000000000010100001, .bar),
  (4, 0b1011000000000000000000001011_100_1, .bartry 4),
  (4, 0b1011000000_00101_10010_00001100_110_1, .gang 5 18 6),
  (4, 0b10110000000000000000000011010001, .ungang),
  (4, 0b10110_01101_10110_01111_00001110_001_1, .part 13 22 15 1)] = true := by decide

theorem test_decode_copy : decodes [
  (4, 0b10111_110110_0101_01110_00000000_111_1, .get 54 5 14 7),
  (4, 0b10111_111110_0100_11100_00000001_010_1, .put 62 4 28 2),
  (4, 0b10111_101110_1111_001_11_00000010_100_1, .gets 46 15 1 3 4),
  (4, 0b10111_001001_1110_101_10_00000011_011_1, .puts 9 14 5 2 3),
  (4, 0b10111_001001_1000_10111_00000100_100_1, .rput 9 8 23 4),
  (4, 0b10111_011100_1100_1101_1_00001000_100_1, .gamoAdd 28 12 13 1 4),
  (4, 0b10111_101011_0001_0011_0_00001001_110_1, .gamoAnd 43 1 3 0 6),
  (4, 0b10111_111100_0011_1101_0_00001010_101_1, .gamoOr 60 3 13 0 5),
  (4, 0b10111_011100_1100_0011_0_00001011_110_1, .gamoXor 28 12 3 0 6),
  (4, 0b10111_101000_0111_1011_0_00001100_110_1, .gamoMin 40 7 11 0 6),
  (4, 0b10111_101010_1000_1001_1_00001101_101_1, .gamoMax 42 8 9 1 5),
  (4, 0b10111_011100_0010_1111_1_00001110_100_1, .gamoMinn 28 2 15 1 4),
  (4, 0b10111_001011_1001_0100_1_00001111_111_1, .gamoMaxn 11 9 4 1 7),
  (4, 0b10111_010101_1111_0110_1_00010000_111_1, .gamoSwap 21 15 6 1 7),
  (4, 0b1011100000_10001_00001_00100000_011_1, .kadd 17 1 3),
  (4, 0b10111_001101_11010_0000001000010001, .kset 13 26),
  (4, 0b10111_010100_00001_0000001000100001, .kread 20 1),
  (4, 0b10111_101101_1101_0000_0_00101000_011_1, .tierpf 45 13 0 3),
  (4, 0b10111_01011_0000000000001100000001, .qstat 11)] = true := by decide

theorem test_decode_order1 : decodes [
  (4, 0b11000_10100_10010_01101_00000000_110_1, .bind 20 18 13 6),
  (4, 0b11000_01010_01000_11110_00000001_100_1, .unbind 10 8 30 4),
  (4, 0b1100000000_11001_11101_000000100001, .acqX 25 29),
  (4, 0b1100000000_10100_10000_000000110001, .acqS 20 16),
  (4, 0b1100000000_10100_00000000001000001, .rel 20),
  (4, 0b11000000000000000000000010000001, .fenceCore),
  (4, 0b11000000000000000000000010010001, .fenceClus),
  (4, 0b11000000000000000000000010100001, .fenceDev),
  (4, 0b11000000000000000000000010110001, .fenceDom),
  (4, 0b1100000000_10101_00000000100000001, .waitn 21),
  (4, 0b11000_000100_10010_0000000100010001, .waitc 4 18),
  (4, 0b11000_11010_00110_10111_00011000_010_1, .rcas 26 6 23 2),
  (4, 0b11000_11111_11010_00010_00100000_111_1, .ramoAdd 31 26 2 7),
  (4, 0b11000_01100_00111_11111_00100001_010_1, .ramoAnd 12 7 31 2),
  (4, 0b11000_00100_10110_10010_00100010_010_1, .ramoOr 4 22 18 2),
  (4, 0b11000_01000_11100_00100_00100011_011_1, .ramoXor 8 28 4 3),
  (4, 0b11000_11111_10011_00111_00100100_011_1, .ramoMin 31 19 7 3),
  (4, 0b11000_01000_11111_10111_00100101_111_1, .ramoMax 8 31 23 7),
  (4, 0b11000_11010_01010_10110_00100110_111_1, .ramoMinn 26 10 22 7),
  (4, 0b11000_11110_11111_11010_00100111_011_1, .ramoMaxn 30 31 26 3)] = true := by decide

theorem test_decode_order2 : decodes [
  (4, 0b11000_10100_10110_11110_00101000_110_1, .ramoSwap 20 22 30 6),
  (4, 0b11000_001111_00001_00_0000110000_011_1, .iflush 15 1 0 3)] = true := by decide

theorem test_decode_engine : decodes [
  (4, 0b1100100000_11100_0000000000000_010_1, .mldw 28 2),
  (4, 0b11001000000000000000000000010001, .mswap),
  (4, 0b1100100_101_10100_11010_00000010_001_1, .mstream 5 20 26 1),
  (4, 0b1100100_101_10001_11000_00000011_001_1, .mstreams 5 17 24 1),
  (4, 0b1100100_010_00100_01100_00000100_111_1, .mstreamd 2 4 12 7),
  (4, 0b1100100000_11011_10110_00000101_110_1, .mcomp 27 22 6),
  (4, 0b1100100_011_0000000000000010000001, .azero 3),
  (4, 0b1100100_001_10011_10001_000010010001, .aldr 1 19 17),
  (4, 0b1100100_000_11010_11000_000010100001, .astr 0 26 24),
  (4, 0b1100100_011_00_101_00000000010110001, .amove 3 5),
  (4, 0b1100100_010_01001_00000_000011000001, .aout 2 9 0),
  (4, 0b1101000_011_00000_11100_000000000001, .fbrev 3 28),
  (4, 0b1101000_000_00000_10111_000000010001, .fpass 0 23),
  (4, 0b1101000_100_00000_11111_000000100001, .ftwg 4 31),
  (4, 0b1101000_111_00000_11111_000000110001, .ftwm 7 31),
  (4, 0b1101000_001_00_111_00100_000001000001, .fcmul 1 7 4)] = true := by decide

theorem test_decode_stageTask : decodes [
  (4, 0b11011000000000000000000010100001, .waitm),
  (4, 0b1101100000_10100_01011_000000000001, .chbind 20 11),
  (4, 0b1101100000_00010_0000000000001_001_1, .enq 2 1),
  (4, 0b11011_00001_000000000000000010_101_1, .deq 1 5),
  (4, 0b11011_00110_00111_11110_000000110001, .chwm 6 7 30),
  (4, 0b1101100000_00000_01111_00001000_111_1, .send 0 15 7),
  (4, 0b11011_00001_00000_01111_00001001_110_1, .recv 1 15 6),
  (4, 0b1101100000_10110_00111_00010000_000_1, .stagedef 22 7 0),
  (4, 0b1101100000000000000000010001_001_1, .krecv 1),
  (4, 0b11011000000000000000000100100001, .kyield),
  (4, 0b11011000000000000000000100110001, .kretire),
  (4, 0b11011_01100_11110_00000000101000001, .klook 12 30),
  (4, 0b11100_10100_10001_0000000000000_011_1, .tpost 20 17 3),
  (4, 0b1110000000_10111_11101_00000001_011_1, .tfoot 23 29 3),
  (4, 0b11100000000000000000000000100001, .tdone),
  (4, 0b11100_01111_01100_00000000000110001, .tstat 15 12),
  (4, 0b1110000000_01011_01100_000001000001, .twait 11 12)] = true := by decide

theorem test_decode_system1 : decodes [
  (4, 0b1110100000_00111_00000000000000001, .trap 7),
  (4, 0b11101000000000000000000000010001, .ecall),
  (4, 0b11101000000000000000000000100001, .ebreak),
  (4, 0b11101000000000000000000000110001, .xret),
  (4, 0b11101_11000_00000_11110_00001000_000_1, .csrr 24 30 0),
  (4, 0b11101_10001_11110_01101_00001001_000_1, .csrw 17 30 13 0),
  (4, 0b11101_01110_00001_11011_00001010_010_1, .csrs 14 1 27 2),
  (4, 0b11101_01001_11000_10000_00001011_010_1, .csrc 9 24 16 2),
  (4, 0b1110100000_10101_00000000100000001, .snap 21),
  (4, 0b1110100000_00110_10100_10000000_100_1, .ctxsave 6 20 4),
  (4, 0b1110100000_01100_10111_10000001_101_1, .ctxload 12 23 5),
  (4, 0b1110100000_01011_11011_100000100001, .tlbinv 11 27),
  (4, 0b11101_01010_11111_01111_10010000_101_1, .doffer 10 31 15 5),
  (4, 0b11101_00011_01010_0000010010001_100_1, .daccept 3 10 4),
  (4, 0b11101_10000_01001_0000010010010_001_1, .dreject 16 9 1),
  (4, 0b11101_11100_00100_00111_10010011_010_1, .dlend 28 4 7 2),
  (4, 0b11101_10000_10111_0000010010100_100_1, .drecall 16 23 4),
  (4, 0b11101_11110_01110_0000010010101_111_1, .drelease 30 14 7),
  (4, 0b11101_01011_01010_00000100101100001, .dquery 11 10),
  (4, 0b11101_10000_10111_01100_10100000_110_1, .psplit 16 23 12 6)] = true := by decide

theorem test_decode_system2 : decodes [
  (4, 0b11101_00001_00010_0000010100001_100_1, .pmerge 1 2 4),
  (4, 0b11101_10101_11010_01110_10101000_101_1, .heatset 21 26 14 5),
  (4, 0b11101_00111_00000_11101_10110000_101_1, .curtain 7 0 29 5),
  (4, 0b11101_11000_00101_10011_10110001_111_1, .token 24 5 19 7)] = true := by decide

/-- Each word is refused with its error (R28, R5). -/
def rejects (l : List (Nat × Nat × DecodeError)) : Bool :=
  l.all fun e => match decodeWord e.1 e.2.1 with
    | .ok _ => false
    | .error x => decide (x = e.2.2)

theorem test_decode_rejects : rejects [
  (2, 0x0000, .illegalWord),
  (4, 0b11110_000000000000000000000000001, .illegalWord), (4, 0b11111_000000000000000000000000001, .illegalWord),
  (4, 0b00000_00001_00001_00001_111111110001, .illegalWord), (4, 0b11101_00000_00000_00000_111111110001, .illegalWord),
  (4, 0b01101_00001_00010_111_0000000000000_1, .illegalWord), (4, 0b01110_00001_00010_100_0000000000000_1, .illegalWord),
  (4, 0b01110_00001_00010_111_0000000000000_1, .illegalWord),
  (4, 0b01111_00001_00010_00000_00000000_001_1, .illegalWord), (4, 0b01111_00001_00010_00011_00001000_100_1, .illegalWord),
  (4, 0b10000_00001_00010_00011_1110_0010_000_1, .illegalWord), (4, 0b11000_00001_00010_00011_00011000_001_1, .illegalWord),
  (4, 0b10111_000001_0001_000_00_00000010_101_1, .illegalWord),
  (4, 0b10110_00001_00010_00011_00001110_010_1, .reservedField),
  (4, 0b00000_10000_10110_00001_00000000_001_1, .reservedField), (4, 0b00000_10000_10110_00001_00110000_000_1, .reservedField),
  (4, 0b11101_00001_00000_00000_000000110001, .reservedField), (4, 0b10101_00_001_1_00_0000000000000001_1, .reservedField)] := by
  decide

/-- Bytes shorter than their word are no instruction. -/
theorem test_decode_truncated : (match decode [0x01] with | .error e => decide (e = .truncated) | .ok _ => false) = true ∧
    (match decode [0x01, 0x00, 0x00] with | .error e => decide (e = .truncated) | .ok _ => false) = true := by decide

/-! ### States for the tests -/

open Sys2Proof.Claims

/-- Thread 0 of core `k` about to issue, with its context made by `f` and its core by `h`. -/
def on (k : Nat) (f : Ctx → Ctx) (h : Core → Core := id) : State :=
  { State.reset with
    actor := ⟨k, 0⟩
    agenda := []
    cores := [(k, h { Core.reset with threads := [(0, f Ctx.fresh)] })]
    plat := { Platform.reset with wiping := false } }

/-- Thread 0 of core 0 about to issue. -/
def one (f : Ctx → Ctx := id) : State := on 0 f

/-- A context with these registers. -/
def withG (l : List (Nat × Word)) (c : Ctx) : Ctx := l.foldl (fun c e => c.wg e.1 e.2) c

/-- A local store without errors, watches and footprints: every aligned access within the limit is ready. -/
theorem lsReady_of (s : State) (x n : Nat) (hw : s.here.wps = []) (hp : s.here.prints = []) (hb : s.here.lsBad = [])
    (hs : s.here.lsSingle = []) (hx : x + n ≤ lsLimit s.actor.core) (ha : x % n = 0) : lsReady s x n := by
  refine ⟨hx, ha, fun l r => ?_, ?_, fun w _ _ => by simp [hb, hs]⟩
  · simp [watchHit, hw, Map.get, Tbl.get?, bits]
  · simp [awaits, hp]

/-- The state in which operation 7, from core `src` to core `dst`, has arrived. -/
def flying (p : Payload) (src dst : Nat) (s : State) : State :=
  { s with net := [⟨7, .control, src, dst, 0, p, 0⟩], args := [7] }

/-- A core with one more thread. -/
def also (n : Nat) (c : Ctx) (core : Core) : Core := { core with threads := Tbl.put core.threads n c }

/-- A second core beside the first of `on`. -/
def beside (k : Nat) (core : Core) (s : State) : State := s.setCore k core

theorem lsSound_of (s : State) (k x n : Nat) (hb : (s.core k).lsBad = []) (hs : (s.core k).lsSingle = []) : lsSound s k x n :=
  fun w _ _ => by simp [hb, hs]

/-- A translation of the first 2 MiB of partition 0 to frame 1. -/
def tr0 : TlbEntry where
  space := 0
  vpage := 0
  log2 := 21
  phys := 0x200000
  perms := 7
  device := 0
  tier := false
  direct := false
  dieLocal := false

/-- The translation cached in core 0's cluster. -/
def cached0 (s : State) : State := { s with clusters := [(0, { Cluster.reset with tlb := [tr0] })] }

/-- Partition 0 with a table that maps its first 2 MiB to frame 1, which kernel 1 holds; `bits` are the low byte of the leaf,
`top` says in which frame the page lies. -/
def tabled (s : State) (bits : Byte := 0x1F) (third : Byte := 0x20) : State :=
  { s with
    dram := [(0x1000, 1), (0x1001, 0x20), (0x2000, 1), (0x2001, 0x30), (0x3000, 1), (0x3001, 0x40), (0x4000, bits), (0x4002, third)]
    hub := { s.hub with
      parts := [(0, { Part.package with root := 0x1000 })]
      deeds := [(1, { Deed.reset with owner := 1 })] } }

/-- Entry 5 of thread 0's copy queue, which counts in counter 2. -/
def entry5 (op : CopyOp) (st : EntryState) (rem : Word := 0x1000) : Entry where
  id := 5
  op := op
  counter := some 2
  owner := 0
  loc := 0x40
  rem := rem
  lenWord := 0
  eff := 0
  since := 0
  moved := 0
  state := st
  held := []
  word := 0
  index := 0
  begun := false

/-- Core 0 with that entry in its queue. -/
def queued (e : Entry) (f : Ctx → Ctx := id) : State := on 0 f fun core => { core with queue := [e] }

/-! ### Witnesses

A theorem named after a statement gives a state and operands that meet the hypotheses of one of its clauses. -/

/-- A thread whose channels are bound east to west, with `vs` in the channel. -/
def boundTo (vs : List Word) (l : List (Nat × Word) := []) : State :=
  on 5 (fun c => { withG l c with bindU := 3, bindV := 1 }) fun core =>
    { core with chans := [(3, { Channel.reset with values := vs })] }

theorem witness_RegisterResults : ∃ (s : State) (d a b : Nat), plainRegs s [d, a, b] :=
  ⟨one, 31, 28, 29, .inl (by decide)⟩

theorem witness_RegisterResults_bound : ∃ (s : State) (d a b : Nat), s.me.bound = true ∧ plainRegs s [d, a, b] :=
  ⟨boundTo [], 31, 30, 27, by decide, .inr (by decide)⟩

theorem witness_ImmediateResults : ∃ (s : State) (d a i lo hi : Nat),
    plainRegs s [d, a] ∧ i < 2 ^ 16 ∧ lo < 32 ∧ hi < 2 :=
  ⟨one, 31, 28, 65535, 31, 1, .inl (by decide), by decide, by decide, by decide⟩

theorem witness_ShortFormResults : ∃ (s : State) (d r : Nat), plainRegs s [d, r] := ⟨one, 31, 28, .inl (by decide)⟩

theorem witness_Divides : ∃ (s : State) (d a b : Nat),
    plainRegs s [d, a, b] ∧ s.me.rg b ≠ 0 ∧ s.here.divFree ≤ s.now :=
  ⟨one (withG [(2, BitVec.allOnes 64)]), 3, 1, 2, .inl (by decide), by decide, by decide⟩

theorem witness_Divides_zero : ∃ (s : State) (d a b : Nat),
    plainRegs s [d, a, b] ∧ s.me.rg b = 0 ∧ s.here.divFree ≤ s.now :=
  ⟨one, 3, 1, 2, .inl (by decide), by decide, by decide⟩

theorem witness_Divides_delivery : ∃ (s : State) (k n x : Nat) (c : Ctx),
    s.args = [k, n, x] ∧ s.ctx? ⟨k, n⟩ = some c ∧ c.status = .divWait :=
  ⟨{ one (fun c => { c with status := .divWait }) with args := [0, 0, 7] }, 0, 0, 7, { Ctx.fresh with status := .divWait },
    rfl, rfl, rfl⟩

theorem witness_ControlFlow_branch : ∃ (s : State) (a b off : Nat), plainRegs s [a, b] ∧
    (∃ f ∈ branchForms a b off (s.me.rg a) (s.me.rg b), f.2 = true ∧
      goodTarget (s.me.pc + 2 * (BitVec.ofNat 13 off).signExtend 64)) ∧
    ∃ f ∈ branchForms a b off (s.me.rg a) (s.me.rg b), f.2 = false ∧ goodTarget (s.me.pc + 4) :=
  ⟨one, 1, 2, 4095, .inl (by decide), ⟨(.beq 1 2 4095, true), by decide, rfl, by unfold goodTarget; decide⟩,
    ⟨(.bne 1 2 4095, false), by decide, rfl, by unfold goodTarget; decide⟩⟩

theorem witness_ControlFlow_jump : ∃ (s : State) (d a off i : Nat), plainRegs s [d, a] ∧
    goodTarget (s.me.pc + 2 * (BitVec.ofNat 26 off).signExtend 64) ∧ goodTarget (s.me.rg a + imm16 i) ∧
    goodTarget (s.me.rg a) :=
  ⟨one (withG [(1, 0x1FFFFFFFFFFFFFE)]), 1, 1, 2 ^ 25 - 1, 0xFFFE, .inl (by decide), by unfold goodTarget; decide,
    by unfold goodTarget; decide, by unfold goodTarget; decide⟩

theorem witness_ControlFlow_traps : ∃ (s t : State) (d a b : Nat), plainRegs s [d, a, b] ∧ plainRegs t [d, a, b] ∧
    2 ^ 57 ≤ (s.me.rg a + imm16 0).toNat ∧ (t.me.rg a + imm16 0).toNat < 2 ^ 57 ∧ (t.me.rg a + imm16 0).toNat % 2 = 1 :=
  ⟨one (withG [(1, 0x200000000000000)]), one (withG [(1, 0x1FFFFFFFFFFFFFF)]), 3, 1, 2, .inl (by decide), .inl (by decide),
    by decide, by decide, by decide⟩

theorem witness_ControlFlow_branchTrap : ∃ (s : State) (a b off : Nat), plainRegs s [0, a, b] ∧
    2 ^ 57 ≤ (s.me.pc + 2 * (BitVec.ofNat 13 off).signExtend 64).toNat ∧
    2 ^ 57 ≤ (s.me.pc + 2 * (BitVec.ofNat 5 off).signExtend 64).toNat ∧ (s.me.pc + 4).toNat < 2 ^ 57 :=
  ⟨one, 1, 2, 8191, .inl (by decide), by decide, by decide, by decide⟩

theorem witness_ExtensionRegisters : ∃ (s : State) (sl i a : Nat), plainRegs s [a] ∧ sl < 4 ∧ i < 2 ^ 16 :=
  ⟨one, 3, 65535, 31, .inl (by decide), by decide, by decide⟩

theorem witness_ChannelOperands : ∃ (s : State) (d a b i lo hi : Nat) (x y : Word) (rest : List Word),
    acts s ∧ noneWoken s ∧ s.me.bindU < 4 ∧ d ≠ 28 ∧ d ≠ 29 ∧ a ≠ 29 ∧ b ≠ 29 ∧ i < 2 ^ 16 ∧ lo < 32 ∧ hi < 2 ∧
    (s.here.chan s.me.bindU).reserved = none ∧ (s.here.chan s.me.bindU).throttle = false ∧
    pairOf a b s.me.rg (s.here.chan s.me.bindU).values = some (x, y, rest) :=
  ⟨boundTo [7, 9, 11], 31, 28, 28, 65535, 31, 1, 7, 9, [11], by unfold acts; decide, by unfold noneWoken; decide, by decide,
    by decide, by decide, by decide, by decide, by decide, by decide, by decide, by decide, by decide, by decide⟩

theorem witness_ChannelOperands_one : ∃ (s : State) (x : Word) (rest : List Word),
    acts s ∧ noneWoken s ∧ s.me.bindU < 4 ∧ (s.here.chan s.me.bindU).reserved = none ∧
    (s.here.chan s.me.bindU).throttle = false ∧ (s.here.chan s.me.bindU).values = x :: rest :=
  ⟨boundTo [7], 7, [], by unfold acts; decide, by unfold noneWoken; decide, by decide, by decide, by decide, by decide⟩

theorem witness_ChannelAccess : ∃ (s : State) (a b n : Nat),
    acts s ∧ noneWoken s ∧ s.me.bindV < 4 ∧ a ≠ 28 ∧ a ≠ 29 ∧ b ≠ 28 ∧ b ≠ 29 ∧
    neighbour s.actor.core s.me.bindV = some n ∧ 1 ≤ s.here.creditsLeft s.me.bindV :=
  ⟨boundTo [], 1, 2, 6, by unfold acts; decide, by unfold noneWoken; decide, by decide, by decide, by decide, by decide,
    by decide, by decide, by decide⟩

theorem witness_ChannelAccess_waits : ∃ (s : State) (d a b : Nat),
    acts s ∧ s.me.bindU < 4 ∧ d ≠ 28 ∧ a ≠ 29 ∧ b ≠ 29 ∧ (d = 29 → s.me.bindV < 4) ∧
    (s.here.chan s.me.bindU).values.length < [a, b].count 28 :=
  ⟨boundTo [7], 29, 28, 28, by unfold acts; decide, by decide, by decide, by decide, by decide, by decide, by decide⟩

theorem witness_PlainAccesses : ∃ (s : State) (d a o : Nat), plainRegs s [d, a] ∧
    (∃ f ∈ loadForms d a o, lsReady s (s.me.rg a + f.2.2.2.2).toNat f.2.2.1) ∧
    ∃ f ∈ storeForms d a o, lsReady s (s.me.rg a + f.2.2.2).toNat f.2.2.1 :=
  ⟨one (withG [(1, 0x40000)]), 3, 1, 8184, .inl (by decide),
    ⟨(.ld 3 1 3 8184, 4, 8, false, (BitVec.ofNat 13 8184).signExtend 64), by decide,
      lsReady_of _ _ _ rfl rfl rfl rfl (by decide) (by decide)⟩,
    ⟨(.st 3 1 3 8184, 4, 8, (BitVec.ofNat 13 8184).signExtend 64), by decide,
      lsReady_of _ _ _ rfl rfl rfl rfl (by decide) (by decide)⟩⟩

theorem witness_AccessTraps : ∃ (s t : State) (d a b : Nat), plainRegs s [d, a, b] ∧ plainRegs t [d, a, b] ∧
    lsLimit s.actor.core < (s.me.rg a).toNat + 4 ∧
    (t.me.rg a).toNat + 4 ≤ lsLimit t.actor.core ∧ (t.me.rg a).toNat % 4 ≠ 0 :=
  ⟨one (withG [(1, 0x3FFFD)]), one (withG [(1, 0x3FFFB)]), 3, 1, 2, .inl (by decide), .inl (by decide), by decide, by decide,
    by decide⟩

/-- A thread whose g1 names the last two words of the local store, which have this state. -/
def lastWords (code : BitVec 2) (f : Ctx → Ctx := id) (h : Core → Core := id) : State :=
  on 0 (fun c => f (c.wg 1 0x3FFF8)) fun core =>
    h { core with lsState := if code = 1 then [] else [(0xFFFE, code), (0xFFFF, code)] }

theorem words_of (x n w : Nat) (hx : x = 0x3FFF8) (hn : n = 8) (h : inWords x n w) : w = 0xFFFE ∨ w = 0xFFFF := by
  subst hx hn; unfold inWords at h; omega

theorem witness_FullEmpty_loads : ∃ (s : State) (d a q : Nat), acts s ∧ plainRegs s [d, a] ∧ noneWoken s ∧
    lsReady s (s.me.rg a).toNat 8 ∧ q % 4 = 3 ∧ (∀ w, inWords (s.me.rg a).toNat 8 w → wordCode s w = 1) ∧
    lsReady s (s.me.rg a).toNat 4 ∧ s.here.watch = [] :=
  ⟨lastWords 1, 3, 1, 3, by unfold acts; decide, .inl (by decide), by unfold noneWoken; decide,
    lsReady_of _ _ _ rfl rfl rfl rfl (by decide) (by decide), by decide,
    fun w h => by rcases words_of _ 8 _ (by decide) rfl h with rfl | rfl <;> decide,
    lsReady_of _ _ _ rfl rfl rfl rfl (by decide) (by decide), rfl⟩

theorem witness_FullEmpty_stores : ∃ (s : State) (d a q : Nat), acts s ∧ plainRegs s [d, a] ∧ noneWoken s ∧
    lsReady s (s.me.rg a).toNat 8 ∧ q % 4 = 3 ∧ (∀ w, inWords (s.me.rg a).toNat 8 w → wordCode s w ≠ 2) ∧
    ∀ w, inWords (s.me.rg a).toNat 8 w → wordCode s w = 0 :=
  ⟨lastWords 0, 3, 1, 3, by unfold acts; decide, .inl (by decide), by unfold noneWoken; decide,
    lsReady_of _ _ _ rfl rfl rfl rfl (by decide) (by decide), by decide,
    fun w h => by rcases words_of _ 8 _ (by decide) rfl h with rfl | rfl <;> decide,
    fun w h => by rcases words_of _ 8 _ (by decide) rfl h with rfl | rfl <;> decide⟩

theorem witness_FullEmpty_waits : ∃ (s : State) (d a q w : Nat), acts s ∧ plainRegs s [d, a] ∧ noneWoken s ∧
    lsReady s (s.me.rg a).toNat 8 ∧ q % 4 = 3 ∧ inWords (s.me.rg a).toNat 8 w ∧ s.me.felim.toNat % 2 ^ 16 ≠ 0 ∧
    wordCode s w ≠ 1 :=
  ⟨lastWords 2, 3, 1, 3, 0xFFFF, by unfold acts; decide, .inl (by decide), by unfold noneWoken; decide,
    lsReady_of _ _ _ rfl rfl rfl rfl (by decide) (by decide), by decide, by unfold inWords; decide, by decide, by decide⟩

theorem witness_FullEmpty_storeWaits : ∃ (s : State) (a w : Nat), acts s ∧ plainRegs s [a] ∧ noneWoken s ∧
    lsReady s (s.me.rg a).toNat 8 ∧ inWords (s.me.rg a).toNat 8 w ∧ s.me.felim.toNat % 2 ^ 16 ≠ 0 ∧ wordCode s w % 2 = 1 :=
  ⟨lastWords 1, 1, 0xFFFE, by unfold acts; decide, .inl (by decide), by unfold noneWoken; decide,
    lsReady_of _ _ _ rfl rfl rfl rfl (by decide) (by decide), by unfold inWords; decide, by decide, by decide⟩

theorem witness_FullEmpty_limit : ∃ (s : State) (a w : Nat), acts s ∧ plainRegs s [a] ∧ noneWoken s ∧ s.me.gang = none ∧
    lsReady s (s.me.rg a).toNat 8 ∧ s.me.felim.toNat % 2 ^ 16 = 0 ∧ s.me.felim.getLsbD 16 = true ∧
    inWords (s.me.rg a).toNat 8 w ∧ wordCode s w ≠ 1 :=
  ⟨lastWords 0 (fun c => { c with felim := 0x10000 }), 1, 0xFFFE, by unfold acts; decide, .inl (by decide),
    by unfold noneWoken; decide, rfl, lsReady_of _ _ _ rfl rfl rfl rfl (by decide) (by decide), by decide, by decide,
    by unfold inWords; decide, by decide⟩

theorem witness_FullEmpty_watched : ∃ (s : State) (a w : Nat), acts s ∧ plainRegs s [a] ∧ noneWoken s ∧ s.me.gang = none ∧
    lsReady s (s.me.rg a).toNat 8 ∧ s.me.mode = 0 ∧ delegated s.here.xdeleg 33 = false ∧
    inWords (s.me.rg a).toNat 8 w ∧ wordCode s w = 2 :=
  ⟨lastWords 2, 1, 0xFFFE, by unfold acts; decide, .inl (by decide), by unfold noneWoken; decide, rfl,
    lsReady_of _ _ _ rfl rfl rfl rfl (by decide) (by decide), by decide, by decide, by unfold inWords; decide, by decide⟩

theorem witness_FullEmpty_take : ∃ (s : State) (a : Nat) (e : Watch) (rest : List Watch), acts s ∧ plainRegs s [a] ∧
    noneWoken s ∧ lsReady s (s.me.rg a).toNat 4 ∧ s.here.watch = e :: rest ∧ e.addr = (s.me.rg a).toNat :=
  ⟨lastWords 1 id (fun core => { core with watch := [⟨0x3FFF8, 5⟩] }), 1, ⟨0x3FFF8, 5⟩, [], by unfold acts; decide,
    .inl (by decide), by unfold noneWoken; decide, lsReady_of _ _ _ rfl rfl rfl rfl (by decide) (by decide), rfl, rfl⟩

theorem witness_AtomicResults : ∃ (s : State) (d a b q : Nat) (old : Word), plainRegs s [d, a, b] ∧ q % 4 = 3 ∧
    lsReady s (s.me.rg a).toNat 8 ∧ littleEndian s (s.me.rg a).toNat 8 true old :=
  ⟨lastWords 1, 3, 1, 2, 3, 0, .inl (by decide), by decide, lsReady_of _ _ _ rfl rfl rfl rfl (by decide) (by decide),
    by unfold littleEndian; decide⟩

theorem witness_VectorMemory : ∃ (s : State) (d a b t q : Nat), plainRegs s [a, b] ∧ d < 16 ∧ t < 15 ∧
    ∀ j, j < 32 / typeWidth t ∧ (s.me.rp q).getLsbD (j * typeWidth t) = true →
      lsReady s (((s.me.rg a).toNat + (s.me.rg b).toNat + j * typeWidth t) % 2 ^ 64) (typeWidth t) := by
  refine ⟨one (withG [(1, 0x3FFE0)]), 15, 1, 2, 3, 0, .inl (by decide), by decide, by decide, fun j h => ?_⟩
  have h8 : typeWidth 3 = 8 := rfl
  rw [h8] at h ⊢
  have : j = 0 ∨ j = 1 ∨ j = 2 ∨ j = 3 := by omega
  rcases this with rfl | rfl | rfl | rfl <;> exact lsReady_of _ _ _ rfl rfl rfl rfl (by decide) (by decide)

theorem witness_VectorMemory_strided : ∃ (s : State) (d a b t q : Nat), plainRegs s [a, b] ∧ d < 16 ∧ b < 16 ∧ t < 15 ∧
    (∀ j, j < 32 / typeWidth t ∧ (s.me.rp q).getLsbD (j * typeWidth t) = true →
      lsReady s (s.me.rg a + BitVec.ofNat 64 j * s.me.rg b).toNat (typeWidth t)) ∧
    ∀ j, j < 32 / typeWidth t ∧ (s.me.rp q).getLsbD (j * typeWidth t) = true →
      lsReady s (((s.me.rg a).toNat + typeWidth t * elemOf (s.me.rv b) (typeWidth t) j) % 2 ^ 64) (typeWidth t) := by
  refine ⟨one (withG [(1, 0x3FFF8), (2, -0x100)]), 15, 1, 2, 3, 0, .inl (by decide), by decide, by decide, by decide,
    fun j h => ?_, fun j h => ?_⟩ <;>
  · have h8 : typeWidth 3 = 8 := rfl
    rw [h8] at h ⊢
    have : j = 0 ∨ j = 1 ∨ j = 2 ∨ j = 3 := by omega
    rcases this with rfl | rfl | rfl | rfl <;> exact lsReady_of _ _ _ rfl rfl rfl rfl (by decide) (by decide)

theorem witness_IntegerLanes : ∃ d a b t u v : Nat, d < 16 ∧ a < 16 ∧ b < 16 ∧ t < 8 ∧ u < 4 ∧ v ∈ [0, 1, 4, 5] :=
  ⟨15, 15, 15, 7, 3, 5, by decide⟩

theorem witness_Comparisons : ∃ (s : State) (c p a b t u q : Nat), a < 16 ∧ b < 16 ∧ c < 4 ∧ p ≠ 0 ∧ t < 8 ∧ 8 ≤ u ∧ u < 12 ∧
    noSubnormal s u q [a, b] ∧ enablesOf s.me.fpc = 0 :=
  ⟨one, 3, 7, 15, 15, 7, 11, 0, by decide, by decide, by decide, by decide, by decide, by decide, by decide,
    .inr (by decide), by decide⟩

theorem witness_FloatArithmetic : ∃ (s : State) (d a b t q : Nat), d < 16 ∧ a < 16 ∧ b < 16 ∧ 8 ≤ t ∧ t < 12 ∧
    enablesOf s.me.fpc = 0 ∧ ∃ f ∈ floatForms d a b t q, noSubnormal s t q f.2.1 :=
  ⟨one, 15, 14, 13, 11, 0, by decide, by decide, by decide, by decide, by decide, by decide, _, List.mem_cons_self,
    .inr (by decide)⟩

/-- v1 holds a subnormal f32 number in element 0. -/
def subnormal (c : Ctx) : Ctx := c.wv 1 1

theorem witness_FloatArithmetic_monitor : ∃ (s : State) (d a b t q : Nat), d < 16 ∧ a < 16 ∧ b < 16 ∧ 8 ≤ t ∧ t < 12 ∧
    ftzOf s.me.fpc = false ∧ s.me.monitored = false ∧ (s.me.mode = 1 ∨ (s.me.mode = 0 ∧ delegated s.here.xdeleg 17 = false)) ∧
    ∃ f ∈ floatForms d a b t q, ¬ noSubnormal s t q f.2.1 :=
  ⟨one subnormal, 15, 1, 13, 10, 0, by decide, by decide, by decide, by decide, by decide, by decide, by decide, by decide,
    _, List.mem_cons_self, by unfold noSubnormal; decide⟩

/-- A context that waits for the monitor to complete an instruction. -/
def completing (i : Instr) (c : Ctx) : Ctx := { c with status := .waiting, monitored := true, current := some i }

theorem witness_FloatArithmetic_completion : ∃ (s : State) (k n d a b t q : Nat) (c : Ctx), s.args = [k, n] ∧
    s.ctx? ⟨k, n⟩ = some c ∧ c.status = .waiting ∧ c.monitored = true ∧ c.reduction = none ∧ c.gang = none ∧ d < 16 ∧ a < 16 ∧ b < 16 ∧ 8 ≤ t ∧
    t < 12 ∧ enablesOf c.fpc = 0 ∧ ftzOf c.fpc = false ∧ c.xstat.getLsbD 11 = false ∧
    ∃ f ∈ floatForms d a b t q, c.current = some f.1 :=
  ⟨{ one (completing (((floatForms 15 1 13 10 0).head?.map (·.1)).getD (.yield))) with args := [0, 0] }, 0, 0, 15, 1, 13, 10, 0,
    completing (((floatForms 15 1 13 10 0).head?.map (·.1)).getD (.yield)) Ctx.fresh, rfl, rfl, rfl, rfl, rfl, rfl, by decide,
    by decide, by decide, by decide, by decide, by decide, by decide, by decide, _, List.mem_cons_self, rfl⟩

theorem witness_SpecialFunctions : ∃ (s : State) (d a t q : Nat), d < 16 ∧ a < 16 ∧ enablesOf s.me.fpc = 0 ∧
    noSubnormal s t q [a] ∧ ∃ f ∈ specialForms d a t q, f.2.1 ≤ t ∧ t ≤ f.2.2.1 :=
  ⟨one, 15, 15, 10, 0, by decide, by decide, by decide, .inr (by decide), _, List.mem_cons_self, by decide, by decide⟩

theorem witness_VectorMoves : ∃ (s : State) (d a b t : Nat), plainRegs s [a] ∧ d < 16 ∧ t < 12 ∧ a < 16 ∧ b < 16 :=
  ⟨one, 15, 15, 15, 11, .inl (by decide), by decide, by decide, by decide, by decide⟩

theorem witness_Conversions : ∃ (s : State) (d a b t : Nat), d < 16 ∧ a < 16 ∧ b < 16 ∧ enablesOf s.me.fpc = 0 ∧
    cvtTrapOf s.me.fpc = false ∧ packSource t ≠ none :=
  ⟨one, 15, 15, 15, 0, by decide, by decide, by decide, by decide, by decide, by decide⟩

theorem witness_Conversions_vcvt : ∃ (s : State) (a t u q : Nat), a < 16 ∧ enablesOf s.me.fpc = 0 ∧
    cvtTrapOf s.me.fpc = false ∧ t < 15 ∧ u < 15 ∧ ∀ j < 32 / max (typeWidth t) (typeWidth u),
      (s.me.rp q).getLsbD (j * typeWidth u) = true → isSubnormal t (elemOf (s.me.rv a) (typeWidth t) j) = false :=
  ⟨one, 15, 10, 11, 0, by decide, by decide, by decide, by decide, by decide, by decide⟩

theorem witness_Reductions : ∃ (s : State) (d a k t u q : Nat), d < 16 ∧ a < 16 ∧ s.me.gang = none ∧ t < 8 ∧ k < 5 ∧ 8 ≤ u ∧
    u < 12 ∧ enablesOf s.me.fpc = 0 ∧ noSubnormal s u q [a] :=
  ⟨one, 15, 15, 4, 7, 11, 0, by decide, by decide, rfl, by decide, by decide, by decide, by decide, by decide, .inr (by decide)⟩

theorem witness_Reductions_gang : ∃ (s : State) (d a : Nat), d < 16 ∧ a < 16 ∧ s.me.gang.isSome = true :=
  ⟨one (fun c => { c with gang := some ⟨⟨0, 0⟩, [⟨0, 0⟩, ⟨0, 1⟩], 0, []⟩ }), 15, 15, by decide, by decide, by decide⟩

theorem witness_Reductions_combine : ∃ (s : State) (g : Gang) (k n : Nat), s.args = [k, n] ∧
    (s.ctx ⟨k, n⟩).gang = some g ∧ g.members.Nodup ∧
    ∀ m ∈ g.members, (s.ctx? m).isSome = true ∧ ∃ p, (s.ctx m).reduction = some p ∧ p.type < 8 ∧
      p.joinedAt + 12 ≤ s.now := by
  refine ⟨{ one (fun c => { c with
    gang := some ⟨⟨0, 0⟩, [⟨0, 0⟩], 0, []⟩
    reduction := some ⟨0, some 3, 0, 0, 1, 0, 2, none⟩ }) with args := [0, 0], now := 12 }, _, 0, 0, rfl, rfl, by decide, fun m h => ?_⟩
  rw [List.mem_singleton] at h
  subst h
  exact ⟨rfl, _, rfl, by decide, by decide⟩

theorem witness_Reductions_turn : ∃ (s : State) (a : Actor) (p : Partial) (x : Nat), (s.ctx a).isCombined = true ∧
    (s.ctx a).reduction = some p ∧ p.result = some (x, 0) ∧ p.type < 8 ∧ (s.ctx a).xstat.getLsbD 11 = false :=
  ⟨one (fun c => { c with
    gang := some ⟨⟨0, 0⟩, [⟨0, 0⟩], 0, []⟩
    status := .waiting
    reduction := some ⟨0, some 3, 0, 0, 1, 0, 2, some (3, 0)⟩ }), ⟨0, 0⟩, _, 3, by decide, rfl, rfl, by decide, by decide⟩

theorem witness_Spawning_request : ∃ (s : State) (d a b q k : Nat), isPlainThread s [d, a, b] ∧ s.actor.thread = 0 ∧ q ≠ 0 ∧
    handleTarget s (s.me.rg a).toNat = some k ∧ runsOther s k = false ∧ goodTarget (s.me.rg b) ∧ s.here.children ≠ 64 :=
  ⟨one (withG [(1, 0x3FFC0)]), 3, 1, 2, 7, 4095, by unfold isPlainThread acts plainRegs; decide, rfl, by decide, by decide, by decide,
    by unfold goodTarget; decide, by decide⟩

theorem witness_Spawning_target : ∃ (s : State) (f : Flight) (a : Actor) (d q n code prio : Nat) (entry : Word) (args : List Word),
    s.arriving (s.arg 0) = some f ∧ f.payload = .spawn a d q entry args code prio ∧ isUnloaded s f.dst = false ∧
    (s.core f.dst).freeThread = some n ∧ ((s.core f.dst).launch.all fun m => m.id == (s.core a.core).launchOf.id) = true :=
  ⟨flying (.spawn ⟨0, 0⟩ 3 1 0x100 [1, 2, 3, 4] 5 9) 0 1 one, _, ⟨0, 0⟩, 3, 1, 1, 5, 9, 0x100, [1, 2, 3, 4], rfl, rfl,
    by decide, by decide, by decide⟩

theorem witness_Spawning_reply : ∃ (s : State) (f : Flight) (a : Actor) (d q : Nat) (r : Option Nat) (c : Ctx),
    s.arriving (s.arg 0) = some f ∧ f.payload = .spawnReply a d q r ∧ s.ctx? a = some c ∧ c.status = .parked ∧
    (c.bound = false ∨ d ≠ 29) ∧ q ≠ 0 :=
  ⟨flying (.spawnReply ⟨0, 0⟩ 3 1 (some 64)) 1 0 (one fun c => { c with status := .parked }), _, ⟨0, 0⟩, 3, 1, some 64, _, rfl,
    rfl, rfl, rfl, .inl (by decide), by decide⟩

theorem witness_ThreadEnds_quit : ∃ (s : State) (a : Nat), isPlainThread s [a] ∧ s.here.holds s.actor.thread = false :=
  ⟨one, 31, by unfold isPlainThread acts plainRegs; decide, by decide⟩

theorem witness_ThreadEnds_drained : ∃ (s : State) (k n : Nat) (kind : DrainKind) (v : Word) (c : Ctx), s.args = [k, n] ∧
    s.ctx? ⟨k, n⟩ = some c ∧ c.status = .draining kind v ∧ isDrained s ⟨k, n⟩ = true :=
  ⟨{ one (fun c => { c with status := .draining .quit 5 }) with args := [0, 0] }, 0, 0, .quit, 5, _, rfl, rfl, rfl, by decide⟩

theorem witness_ThreadEnds_record : ∃ (s : State) (f : Flight) (h n : Nat) (v : Word) (c : Ctx),
    s.arriving (s.arg 0) = some f ∧ f.payload = .reap h v ∧ s.ctx? ⟨f.dst, n⟩ = some c ∧ c.parkReason = 7 ∧
    c.isLimited = false ∧ c.throttled = false :=
  ⟨flying (.reap 65 9) 1 0 (one fun c => { c with status := .parked, park := 7 }), _, 65, 0, 9, _, rfl, rfl, rfl, by decide,
    by decide, by decide⟩

theorem witness_ThreadEnds_reap : ∃ (s : State) (d b q h : Nat) (v : Word) (rest : List (Nat × Word)),
    isPlainThread s [d, b] ∧ s.actor.thread = 0 ∧ q ≠ 0 ∧ s.here.reaps = (h, v) :: rest :=
  ⟨on 0 id fun core => { core with reaps := [(65, 9)], children := 1 }, 3, 4, 1, 65, 9, [],
    by unfold isPlainThread acts plainRegs; decide, rfl, by decide, rfl⟩

theorem witness_ThreadEnds_reapNone : ∃ (s : State) (d b q : Nat), isPlainThread s [d, b] ∧ s.actor.thread = 0 ∧ q ≠ 0 ∧
    s.here.reaps = [] ∧ s.here.children = 0 :=
  ⟨one, 3, 4, 1, by unfold isPlainThread acts plainRegs; decide, rfl, by decide, rfl, rfl⟩

theorem witness_ThreadEnds_reapWaits : ∃ (s : State) (d b q : Nat), isPlainThread s [d, b] ∧ s.actor.thread = 0 ∧ q ≠ 0 ∧
    s.here.reaps = [] ∧ s.here.children ≠ 0 :=
  ⟨on 0 id fun core => { core with children := 64 }, 3, 4, 1, by unfold isPlainThread acts plainRegs; decide, rfl, by decide, rfl,
    by decide⟩

theorem witness_ThreadEnds_kill : ∃ (s : State) (a q k : Nat), isPlainThread s [a] ∧ q ≠ 0 ∧
    handleTarget s (s.me.rg a).toNat = some k ∧ (s.me.rg a).toNat ≠ s.me.handle ∧ handleThread (s.me.rg a).toNat ≠ 0 :=
  ⟨one (withG [(1, 0x3FFFF)]), 1, 1, 4095, by unfold isPlainThread acts plainRegs; decide, by decide, by decide, by decide, by decide⟩

/-- Core 1 with thread 1 under the handle 65, made by `f`. -/
def core1 (f : Ctx → Ctx := id) : Core := also 1 (f { Ctx.fresh with ctxid := 65 }) Core.reset

theorem witness_ThreadEnds_killed : ∃ (s : State) (f : Flight) (a x : Actor) (q h : Nat), s.arriving (s.arg 0) = some f ∧
    f.payload = .kill a q h ∧ (s.landed f.id).threadOf h = some x ∧ (s.ctx x).isDraining = false ∧ (s.ctx x).ending = none ∧ (s.ctx x).ticket = none ∧
    (s.ctx x).role = none ∧ (s.ctx x).gang = none ∧ (s.core x.core).holds x.thread = false :=
  ⟨flying (.kill ⟨0, 0⟩ 1 65) 0 1 (beside 1 core1 one), _, ⟨0, 0⟩, ⟨1, 1⟩, 1, 65, rfl, rfl, by decide, by decide, by decide,
    by decide, by decide, by decide, by decide⟩

theorem witness_ThreadEnds_killNone : ∃ (s : State) (f : Flight) (a : Actor) (q h : Nat), s.arriving (s.arg 0) = some f ∧
    f.payload = .kill a q h ∧ (s.landed f.id).threadOf h = none :=
  ⟨flying (.kill ⟨0, 0⟩ 1 66) 0 1 (beside 1 core1 one), _, ⟨0, 0⟩, 1, 66, rfl, rfl, by decide⟩

theorem witness_ThreadEnds_killAgain : ∃ (s : State) (f : Flight) (a x : Actor) (q h : Nat), s.arriving (s.arg 0) = some f ∧
    f.payload = .kill a q h ∧ (s.landed f.id).threadOf h = some x ∧ (s.ctx x).isDraining = true :=
  ⟨flying (.kill ⟨0, 0⟩ 1 0) 1 0 (one fun c => { c with status := .draining .kill 0 }), _, ⟨0, 0⟩, ⟨0, 0⟩, 1, 0, rfl, rfl, by decide,
    by decide⟩

theorem witness_ThreadEnds_killReply : ∃ (s : State) (f : Flight) (a : Actor) (q : Nat) (ok : Bool) (c : Ctx),
    s.arriving (s.arg 0) = some f ∧ f.payload = .killReply a q ok ∧ s.ctx? a = some c ∧ c.status = .parked ∧ q ≠ 0 :=
  ⟨flying (.killReply ⟨0, 0⟩ 1 true) 1 0 (one fun c => { c with status := .parked }), _, ⟨0, 0⟩, 1, true, _, rfl, rfl, rfl, rfl,
    by decide⟩

/-- Thread 1 of core 0 about to issue. -/
def second (f : Ctx → Ctx := id) : State := { on 0 id (also 1 (f { Ctx.fresh with ctxid := 1 })) with actor := ⟨0, 1⟩ }

theorem witness_Migrating : ∃ (s : State) (a q k : Nat), isPlainThread s [a] ∧ s.me.bound = false ∧ s.actor.thread ≠ 0 ∧ q ≠ 0 ∧
    handleTarget s (s.me.rg a).toNat = some k ∧ k ≠ s.actor.core ∧ s.me.unacked = [] ∧
    (keptForwards s s.actor.core).length < 8 :=
  ⟨second (withG [(2, 64)]), 2, 1, 1, by unfold isPlainThread acts plainRegs; decide, by decide, by decide, by decide, by decide,
    by decide, by decide, by decide⟩

theorem witness_Migrating_home : ∃ (s : State) (a q : Nat), isPlainThread s [a] ∧ s.me.bound = false ∧ s.actor.thread ≠ 0 ∧ q ≠ 0 ∧
    handleTarget s (s.me.rg a).toNat = some s.actor.core :=
  ⟨second (withG [(2, 63)]), 2, 1, by unfold isPlainThread acts plainRegs; decide, by decide, by decide, by decide, by decide⟩

theorem witness_Migrating_arrival : ∃ (s : State) (f : Flight) (a : Actor) (q n : Nat) (c : Ctx), s.arriving (s.arg 0) = some f ∧
    f.payload = .migrate a q c ∧ f.dst ≠ a.core ∧ q ≠ 0 ∧ (s.ctx? a).isSome = true ∧ (s.ctx a).isDraining = false ∧
    isUnloaded s f.dst = false ∧ (s.core f.dst).freeThread = some n ∧ takesMigrant (s.landed f.id) f.dst (s.core a.core).launchOf c = true :=
  ⟨flying (.migrate ⟨0, 1⟩ 1 { Ctx.fresh with ctxid := 1 }) 0 1 (second fun c => { c with status := .parked }), _, ⟨0, 1⟩, 1, 1, _,
    rfl, rfl, by decide, by decide, by decide, by decide, by decide, by decide, by decide⟩

theorem witness_Migrating_accepted : ∃ (s : State) (f : Flight) (a : Actor) (q h : Nat), s.arriving (s.arg 0) = some f ∧
    f.payload = .migrateReply a q (some h) :=
  ⟨flying (.migrateReply ⟨0, 1⟩ 1 (some 64)) 1 0 second, _, ⟨0, 1⟩, 1, 64, rfl, rfl⟩

theorem witness_Migrating_refused : ∃ (s : State) (f : Flight) (a : Actor) (q : Nat) (c : Ctx), s.arriving (s.arg 0) = some f ∧
    f.payload = .migrateReply a q none ∧ s.ctx? a = some c ∧ c.status = .parked ∧ q ≠ 0 :=
  ⟨flying (.migrateReply ⟨0, 1⟩ 1 none) 1 0 (second fun c => { c with status := .parked }), _, ⟨0, 1⟩, 1, _, rfl, rfl, rfl, rfl,
    by decide⟩

/-- A thread that waits in the wings since cycle 3. -/
def winged : Ctx := { Ctx.fresh with place := .wings 3, prio := 0x999 }

theorem witness_LiveSlots_yield : ∃ s : State, s.me.gang = none ∧ nextPending s.here = none := ⟨one, rfl, by decide⟩

theorem witness_LiveSlots_yieldBound : ∃ s : State, s.me.gang = none ∧ wingsEligible s.here s.actor.thread s.me = false :=
  ⟨one, rfl, by decide⟩

theorem witness_LiveSlots_swap : ∃ (s : State) (p : Nat × Ctx), s.me.gang = none ∧ nextPending s.here = some p ∧
    p.1 ≠ s.actor.thread ∧ s.ctx? ⟨s.actor.core, p.1⟩ = some p.2 ∧ wingsEligible s.here s.actor.thread s.me = true ∧
    s.me.eff ≤ p.2.eff ∧ s.here.portBusy ≤ s.now :=
  ⟨{ on 0 id (fun c => also 2 winged (also 1 Ctx.fresh c)) with actor := ⟨0, 1⟩ }, (2, winged), rfl, by decide, by decide, by decide,
    by decide, by decide, by decide⟩

theorem witness_LiveSlots_wake : ∃ (s : State) (a q n : Nat) (c : Ctx), acts s ∧ plainRegs s [a] ∧ q ≠ 0 ∧
    handleTarget s (s.me.rg a).toNat = some s.actor.core ∧ n ≠ s.actor.thread ∧
    s.threadOf (s.me.rg a).toNat = some ⟨s.actor.core, n⟩ ∧ s.ctx? ⟨s.actor.core, n⟩ = some c ∧ c.parkReason ∈ [1, 2, 3, 4] :=
  ⟨on 0 (withG [(1, 1)]) (also 1 { Ctx.fresh with ctxid := 1, status := .parked, park := 4 }), 1, 1, 1, _, by unfold acts; decide,
    .inl (by decide), by decide, by decide, by decide, by decide, rfl, by decide⟩

theorem witness_LiveSlots_wakeNone : ∃ (s : State) (a q : Nat), acts s ∧ plainRegs s [a] ∧ q ≠ 0 ∧
    handleTarget s (s.me.rg a).toNat = some s.actor.core ∧ s.threadOf (s.me.rg a).toNat = none :=
  ⟨one (withG [(1, 63)]), 1, 1, by unfold acts; decide, .inl (by decide), by decide, by decide, by decide⟩

theorem witness_LiveSlots_grant : ∃ (s : State) (k i : Nat) (e : Nat × Ctx), s.args = [k] ∧ (s.core k).portBusy ≤ s.now ∧
    (s.core k).freeSlot = some i ∧ nextPending (s.core k) = some e ∧ s.ctx? ⟨k, e.1⟩ = some e.2 :=
  ⟨{ on 0 id (also 1 winged) with args := [0] }, 0, 1, (1, winged), rfl, by decide, by decide, by decide, by decide⟩

/-- Sixteen live threads of priority 1, which may go to the wings. -/
def fullBarrel : Core :=
  { Core.reset with threads := (List.range 16).map fun i => (i + 1, { Ctx.fresh with place := .live i, prio := 0x111 }) }

theorem witness_LiveSlots_victim : ∃ (s : State) (k : Nat) (p v : Nat × Ctx), s.args = [k] ∧ (s.core k).isMoving = false ∧
    (s.core k).freeSlot = none ∧ (s.core k).portBusy ≤ s.now ∧ nextPending (s.core k) = some p ∧
    victimOf (s.core k) = some v ∧ v.2.eff < p.2.eff ∧ s.ctx? ⟨k, v.1⟩ = some v.2 ∧ hasReached s ⟨k, v.1⟩ v.2 = true :=
  ⟨{ beside 0 (also 20 winged fullBarrel) one with args := [0] }, 0, (20, winged),
    (16, { Ctx.fresh with place := .live 15, prio := 0x111 }), rfl, by decide, by decide, by decide, by decide, by decide, by decide,
    by decide, by decide⟩

theorem witness_LiveSlots_moved : ∃ (s : State) (k n done : Nat) (dest : Option Nat) (c : Ctx), s.args = [k, n] ∧
    s.ctx? ⟨k, n⟩ = some c ∧ c.place = .moving dest done ∧ done ≤ s.now :=
  ⟨{ one (fun c => { c with place := .moving (some 3) 0 }) with args := [0, 0] }, 0, 0, 0, some 3, _, rfl, rfl, rfl, by decide⟩

/-- Thread 0 of core 0, whose launch has 4 crews, as a member of crew 2 with one more member. -/
def crewed (f : Ctx → Ctx) (crew : Crew) : State :=
  let s := on 0 (fun c => f { c with crewSlot := 2 }) fun core => { core with launch := some ⟨3, 1, 16, 0, 9, false, 0, 4, false⟩ }
  { s with hub := { s.hub with crews := [(2, crew)] } }

theorem witness_CrewWork_join : ∃ (s : State) (a : Nat), isPlainThread s [a] ∧ (s.me.rg a).toNat < s.here.launchOf.crews ∧
    s.me.isMember = false ∧ ¬ (s.here.launchOf.coresident = true ∧ s.me.spawner.isSome = true) ∧
    (s.crew (s.here.launchOf.crewBase + (s.me.rg a).toNat)).nextRank < 2 ^ 18 ∧
    s.here.launchOf.crewBase + (s.me.rg a).toNat < 2 ^ 16 :=
  ⟨crewed (withG [(1, 3)]) ⟨[], [], 0, 0⟩, 1, by unfold isPlainThread acts plainRegs; decide, by decide, by decide, by decide,
    by decide, by decide⟩

theorem witness_CrewWork_leave : ∃ s : State, isPlainThread s [] ∧ s.me.isMember = true :=
  ⟨crewed (fun c => { c with isMember := true }) ⟨[(⟨0, 0⟩, 0)], [], 0, 1⟩, by unfold isPlainThread acts plainRegs; decide, rfl⟩

theorem witness_CrewWork_bar : ∃ (s : State) (q : Nat), isPlainThread s [] ∧ s.me.isMember = true ∧ s.me.arrived = none ∧ q ≠ 0 ∧
    (s.crew s.me.crewSlot.toNat).members ≠ [] :=
  ⟨crewed (fun c => { c with isMember := true }) ⟨[(⟨0, 0⟩, 0)], [], 0, 1⟩, 7, by unfold isPlainThread acts plainRegs; decide, rfl,
    rfl, by decide, by decide⟩

theorem witness_CrewWork_passed : ∃ (s : State) (q p : Nat), isPlainThread s [] ∧ s.me.isMember = true ∧ s.me.arrived = some p ∧
    q ≠ 0 ∧ p ≠ (s.crew s.me.crewSlot.toNat).phase ∧ (s.crew s.me.crewSlot.toNat).members ≠ [] :=
  ⟨crewed (fun c => { c with isMember := true, arrived := some 65535 }) ⟨[(⟨0, 0⟩, 0)], [], 0, 1⟩, 7, 65535,
    by unfold isPlainThread acts plainRegs; decide, rfl, rfl, by decide, by decide, by decide⟩

theorem witness_CrewWork_waiting : ∃ (s : State) (slot : Nat) (c : Ctx), s.args = [slot] ∧ allArrived (s.crew slot) = true ∧
    phaseReady s (s.crew slot) = false ∧ s.ctx? ⟨0, 0⟩ = some c ∧ c.isWinged = true ∧ c.parkReason = 5 ∧ c.suspended = false :=
  ⟨{ crewed (fun c => { c with isMember := true, arrived := some 0, status := .parked, park := 0x205, place := .wings 0 })
      ⟨[(⟨0, 0⟩, 0)], [⟨0, 0⟩], 0, 1⟩ with args := [2] }, 2, _, rfl, by decide, by decide, rfl, by decide, by decide, by decide⟩

theorem witness_CrewWork_phase : ∃ (s : State) (slot : Nat), s.args = [slot] ∧ phaseReady s (s.crew slot) = true ∧
    ((s.crew slot).members.map (·.1)).Nodup ∧ ∃ m ∈ (s.crew slot).members, (s.ctx m.1).parkReason = 5 :=
  ⟨{ crewed (fun c => { c with isMember := true, arrived := some 0, status := .parked, park := 0x205 })
      ⟨[(⟨0, 0⟩, 0)], [⟨0, 0⟩], 0, 1⟩ with args := [2] }, 2, rfl, by decide, by decide, by decide⟩

theorem witness_CrewWork_part : ∃ (s : State) (d a b q : Nat), plainRegs s [d, d + 1, a, b] ∧ d % 2 = 0 ∧ q ≤ 1 ∧
    (q = 0 → s.me.isMember = true) ∧ s.me.rg b ≠ 0 :=
  ⟨one (withG [(1, 100), (2, 8)]), 30, 1, 2, 1, .inl (by decide), by decide, by decide, by decide, by decide⟩

theorem witness_Gangs_await : ∃ (s : State) (a q : Nat), isPlainThread s [a] ∧ q ≠ 0 ∧ isHub s.actor.core = false ∧
    (s.me.rg a).toNat < 64 ∧
    ((gangMembers s.actor 2 (s.me.rg a).toNat).all fun m => m == s.actor || isAwaiting s s.me.codeId m) = false :=
  ⟨one (withG [(1, 63)]), 1, 1, by unfold isPlainThread acts plainRegs; decide, by decide, by decide, by decide, by decide⟩

theorem witness_Gangs_enrol : ∃ (s : State) (a q : Nat), isPlainThread s [a] ∧ q ≠ 0 ∧ isHub s.actor.core = false ∧
    (s.me.rg a).toNat < 64 ∧
    ((gangMembers s.actor 2 (s.me.rg a).toNat).all fun m => m == s.actor || isAwaiting s s.me.codeId m) = true :=
  ⟨beside 1 (core1 fun c => { c with status := .parked, park := 8 }) (one (withG [(1, 1)])), 1, 1,
    by unfold isPlainThread acts plainRegs; decide, by decide, by decide, by decide, by decide⟩

theorem witness_Gangs_ungang : ∃ (s t : State) (g : Gang), s.me.gang = none ∧ t.me.gang = some g ∧ g.stroke ≠ t.actor :=
  ⟨one, one (fun c => { c with gang := some ⟨⟨1, 1⟩, [⟨0, 0⟩, ⟨1, 1⟩], 0, []⟩ }), _, rfl, rfl, by decide⟩

/-- A gang follower on core 0 with one buffered instruction. -/
def follower (i : Instr) : State :=
  { one (fun c => { c with gang := some ⟨⟨1, 1⟩, [⟨0, 0⟩, ⟨1, 1⟩], 0, [⟨i, 0x40, 0x80, 0x44⟩]⟩ }) with args := [0, 0] }

theorem witness_Gangs_buffer : ∃ (s : State) (k n : Nat) (c : Ctx) (g : Gang) (item : GangItem) (rest : List GangItem),
    s.args = [k, n] ∧ s.ctx? ⟨k, n⟩ = some c ∧ c.gang = some g ∧ g.stroke ≠ ⟨k, n⟩ ∧ g.buffer = item :: rest ∧
    isReadyThread s k n c = true ∧ c.status = .running ∧ c.bound = false ∧ c.xstat.getLsbD 11 = false ∧ item.instr = .add 3 1 2 :=
  ⟨follower (.add 3 1 2), 0, 0, _, _, _, _, rfl, rfl, rfl, by decide, rfl, by decide, rfl, by decide, by decide, rfl⟩

theorem witness_Gangs_branch : ∃ (s : State) (c : Ctx) (g : Gang) (item : GangItem) (rest : List GangItem) (a b off : Nat),
    s.args = [0, 0] ∧ s.ctx? ⟨0, 0⟩ = some c ∧ c.gang = some g ∧ g.stroke ≠ ⟨0, 0⟩ ∧ g.buffer = item :: rest ∧
    isReadyThread s 0 0 c = true ∧ c.status = .running ∧ c.bound = false ∧ c.xstat.getLsbD 11 = false ∧
    ∃ f ∈ branchForms a b off 0 0, item.instr = f.1 :=
  ⟨follower (.beq 1 2 16), _, _, _, _, 1, 2, 16, rfl, rfl, rfl, by decide, rfl, by decide, rfl, by decide, by decide, _,
    List.mem_cons_self, rfl⟩

theorem witness_RefusedForms_gang : ∃ (s : State) (q : Nat), q ≠ 0 ∧ s.me.gang.isSome = true :=
  ⟨follower .bar, 1, by decide, by decide⟩

theorem witness_RefusedForms_zero : ∃ (s : State) (q : Nat), q ≠ 0 ∧ s.me.gang = none ∧ s.isSpeculative s.me = false ∧
    s.actor.thread ≠ 0 := ⟨second, 1, by decide, rfl, by decide, by decide⟩

theorem witness_RefusedForms_privilege : ∃ s : State, s.me.mode = 0 := ⟨one, by decide⟩

theorem witness_CopyQueue_linear : ∃ (s : State) (k m b q len : Nat), mayEnqueue s [2 * m, 2 * m + 1, b] (some k) q [] [run (s.me.rg (2 * m)).toNat len] ∧
    mayEnqueue s [2 * m, 2 * m + 1, b] (some k) q [run (s.me.rg (2 * m)).toNat len] [] ∧
    (s.me.rg (2 * m + 1)).toNat = len ∧ len = (s.me.rg (2 * m + 1)).toNat % 2 ^ 24 ∧ len ≠ 0 ∧
    (s.me.rg (2 * m)).toNat + len ≤ lsLimit s.actor.core ∧ inSpace (s.me.rg b) len :=
  ⟨one (withG [(2, 0x3FF00), (3, 0x100), (4, 0x1FFFFFFFFFFFF00)]), 63, 1, 4, 7, 0x100, by unfold mayEnqueue acts plainRegs; decide,
    by unfold mayEnqueue acts plainRegs; decide, by decide, by decide, by decide, by decide, by unfold inSpace; decide⟩

theorem witness_CopyQueue_rput : ∃ (s : State) (k m b q len c : Nat), mayEnqueue s [2 * m, 2 * m + 1, b] (some k) q [run (s.me.rg (2 * m)).toNat len] [] ∧
    (s.me.rg (2 * m + 1)).toNat = len + 2 ^ 24 ∧ len = (s.me.rg (2 * m + 1)).toNat % 2 ^ 24 ∧ len ≠ 0 ∧
    (s.me.rg (2 * m)).toNat + len ≤ lsLimit s.actor.core ∧ (s.me.rg b).toNat < 2 ^ 48 ∧
    winOffset (s.me.rg b).toNat + len ≤ winLimit (s.me.rg b).toNat ∧ winOffset (s.me.rg b).toNat % 4 = 0 ∧ len % 4 = 0 ∧
    winCore (s.me.rg b).toNat = some c ∧ c ≠ s.actor.core ∧ s.mayName s.actor.core c = true :=
  ⟨one (withG [(2, 0x3FF00), (3, 0x1000100), (4, 0x200000)]), 63, 1, 4, 7, 0x100, 1, by unfold mayEnqueue acts plainRegs; decide,
    by decide, by decide, by decide, by decide, by decide, by decide, by decide, by decide, by decide, by decide, by decide⟩

theorem witness_CopyQueue_gamo : ∃ (s : State) (k m t' q r : Nat), r = (s.me.rg (2 * t')).toNat ∧ (s.me.rg (2 * m)).toNat < 2 ^ 57 ∧
    (s.me.rg (2 * m)).toNat % 8 = 0 ∧ r + 8 ≤ lsLimit s.actor.core ∧ r % 8 = 0 ∧
    mayEnqueue s [2 * m, 2 * m + 1, 2 * t'] (some k) q [] [run r 8] :=
  ⟨one (withG [(2, 0x1FFFFFFFFFFFFF8), (4, 0x3FFF8)]), 0, 1, 2, 1, 0x3FFF8, by decide, by decide, by decide, by decide, by decide,
    by unfold mayEnqueue acts plainRegs; decide⟩

theorem witness_CopyQueue_kadd : ∃ (s : State) (a b q c : Nat), (s.me.rg a).toNat < 2 ^ 33 ∧
    ((s.me.rg a).getLsbD 32 = true → bits (s.me.rg a).toNat 16 2 = 0) ∧ nameCore (s.me.rg a).toNat = some c ∧
    s.mayName s.actor.core c = true ∧ mayEnqueue s [a, b] none q [] [] :=
  ⟨one (withG [(1, 0x3FFFF)]), 1, 2, 1, 4095, by decide, by decide, by decide, by decide, by unfold mayEnqueue acts plainRegs; decide⟩

theorem witness_CopyQueue_others : ∃ (s : State) (k m a q len : Nat), (s.me.rg (2 * m + 1)).toNat = len ∧ len ≠ 0 ∧
    len = (s.me.rg (2 * m + 1)).toNat % 2 ^ 24 ∧ inSpace (s.me.rg (2 * m)) len ∧
    mayEnqueue s [2 * m, 2 * m + 1] (some k) q [] [] ∧ (s.me.rg a).toNat ≠ 0 ∧ (s.me.rg a).toNat < 2 ^ 16 ∧
    mayEnqueue s [a] (some k) q [] [] :=
  ⟨one (withG [(1, 65535), (2, 0x200000), (3, 0xFFFFFF)]), 0, 1, 1, 1, 0xFFFFFF, by decide, by decide, by decide,
    by unfold inSpace; decide, by unfold mayEnqueue acts plainRegs; decide, by decide, by decide,
    by unfold mayEnqueue acts plainRegs; decide⟩

theorem witness_CopyQueue_strided : ∃ (s : State) (k m q : Nat), mayEnqueue s [2 * m, 2 * m + 1] (some k) q [] [⟨(s.me.rg (2 * m)).toNat, 4, 4, 1⟩] ∧
    (s.me.re 0).toNat % 2 ^ 16 + 1 = 1 ∧ (s.me.rg (2 * m)).toNat + 4 ≤ lsLimit s.actor.core ∧
    (s.me.rg (2 * m + 1)).toNat + 4 ≤ 2 ^ 57 ∧ (s.me.rg (2 * m + 1)).toNat % 4 = 0 ∧ (s.me.rg (2 * m)).toNat % 4 = 0 :=
  ⟨one (withG [(2, 0x3FFFC), (3, 0x1FFFFFFFFFFFFFC)]), 0, 1, 1, by unfold mayEnqueue acts plainRegs; decide, by decide, by decide,
    by decide, by decide, by decide⟩

/-- A full copy queue. -/
def fullQueue (core : Core) : Core := { core with queue := List.replicate 32 (entry5 (.get 1) .waiting) }

theorem witness_CopyQueue_full : ∃ (s : State) (m b q : Nat), acts s ∧ plainRegs s [2 * m, 2 * m + 1, b] ∧ s.me.ticket = none ∧ q ≠ 0 ∧
    s.me.rg (2 * m + 1) ≠ 0 ∧ (s.me.rg (2 * m + 1)).toNat < 2 ^ 24 ∧
    (s.me.rg (2 * m)).toNat + (s.me.rg (2 * m + 1)).toNat ≤ lsLimit s.actor.core ∧
    inSpace (s.me.rg b) (s.me.rg (2 * m + 1)).toNat ∧
    engineWaits s.here [run (s.me.rg (2 * m)).toNat (s.me.rg (2 * m + 1)).toNat] [] = false ∧
    engineWaits s.here [] [run (s.me.rg (2 * m)).toNat (s.me.rg (2 * m + 1)).toNat] = false ∧ 32 ≤ s.here.entries.length :=
  ⟨on 0 (withG [(3, 64)]) fullQueue, 1, 4, 1, by unfold acts; decide, .inl (by decide), rfl, by decide, by decide, by decide,
    by decide, by unfold inSpace; decide, by decide, by decide, by decide⟩

theorem witness_CopyQueue_counter : ∃ (s : State) (k m b q : Nat), acts s ∧ plainRegs s [2 * m, 2 * m + 1, b] ∧ s.me.ticket = none ∧
    q ≠ 0 ∧ s.me.rg (2 * m + 1) ≠ 0 ∧ (s.me.rg (2 * m + 1)).toNat < 2 ^ 24 ∧
    (s.me.rg (2 * m)).toNat + (s.me.rg (2 * m + 1)).toNat ≤ lsLimit s.actor.core ∧
    inSpace (s.me.rg b) (s.me.rg (2 * m + 1)).toNat ∧ s.here.entries.length < 32 ∧
    Map.get 0 s.here.kout k = BitVec.allOnes 16 :=
  ⟨on 0 (withG [(3, 64)]) (fun core => { core with kout := [(63, BitVec.allOnes 16)] }), 63, 1, 4, 1, by unfold acts; decide,
    .inl (by decide), rfl, by decide, by decide, by decide, by decide, by unfold inSpace; decide, by decide, by decide⟩

theorem witness_CopyPerformance_get : ∃ (s : State) (k : Nat) (e : Entry) (len : Nat) (tr : TlbEntry), serves s k e ∧ e.op = .get len ∧
    len ≠ 0 ∧ mapped s k tr 1 e.rem.toNat len ∧ lsSound s k e.loc len :=
  ⟨{ cached0 (queued (entry5 (.get 8) .waiting)) with args := [0] }, 0, entry5 (.get 8) .waiting, 8, tr0,
    ⟨by unfold hasEntry; decide, by decide, rfl, rfl, ⟨0, 0⟩, by decide, by decide⟩, rfl, by decide, by unfold mapped mappedIn; decide,
    lsSound_of _ _ _ _ rfl rfl⟩

theorem witness_CopyPerformance_put : ∃ (s : State) (k : Nat) (e : Entry) (len : Nat) (tr : TlbEntry), serves s k e ∧ e.op = .put len ∧
    len ≠ 0 ∧ mapped s k tr 2 e.rem.toNat len ∧ lsSound s k e.loc len :=
  ⟨{ cached0 (queued (entry5 (.put 8) .waiting)) with args := [0] }, 0, entry5 (.put 8) .waiting, 8, tr0,
    ⟨by unfold hasEntry; decide, by decide, rfl, rfl, ⟨0, 0⟩, by decide, by decide⟩, rfl, by decide, by unfold mapped mappedIn; decide,
    lsSound_of _ _ _ _ rfl rfl⟩

theorem witness_CopyPerformance_rput : ∃ (s : State) (k dst : Nat) (e : Entry) (len : Nat) (full : Bool), serves s k e ∧
    e.op = .rput len full ∧ len ≠ 0 ∧ winDevice e.rem.toNat = s.plat.devid ∧ winCore e.rem.toNat = some dst ∧
    lsSound s k e.loc len :=
  ⟨{ queued (entry5 (.rput 8 true) .waiting 0x200000) with args := [0] }, 0, 1, entry5 (.rput 8 true) .waiting 0x200000, 8, true,
    ⟨by unfold hasEntry; decide, by decide, rfl, rfl, ⟨0, 0⟩, by decide, by decide⟩, rfl, by decide, by decide, by decide,
    lsSound_of _ _ _ _ rfl rfl⟩

theorem witness_CopyPerformance_arrives : ∃ (s : State) (f : Flight) (src id off : Nat) (bs : List Byte) (e : Entry) (a : Actor),
    s.arriving (s.arg 0) = some f ∧ f.payload = .rput src id off bs false ∧ hasEntry s src e ∧ e.id = id ∧ e.state = .sent ∧
    src ≠ f.dst ∧ s.ownerOf f.handle = some a ∧ bs ≠ [] ∧ lsSound s f.dst off bs.length :=
  ⟨flying (.rput 0 5 0x80 [1, 2] false) 0 1 (queued (entry5 (.rput 2 false) .sent 0x200080)), _, 0, 5, 0x80, [1, 2],
    entry5 (.rput 2 false) .sent 0x200080, ⟨0, 0⟩, rfl, rfl, by unfold hasEntry; decide, rfl, rfl, by decide, by decide, by decide,
    lsSound_of _ _ _ _ rfl rfl⟩

theorem witness_CopyPerformance_arrivesInPart : ∃ (s : State) (f : Flight) (src id off : Nat) (bs : List Byte),
    s.arriving (s.arg 0) = some f ∧ f.payload = .rput src id off bs false ∧ bs ≠ [] ∧ lsSound s f.dst off bs.length ∧
    min bs.length (4 - off % 4) < bs.length :=
  ⟨flying (.rput 0 5 0x83 [1, 2] false) 0 1 (queued (entry5 (.rput 2 false) .sent 0x200083)), _, 0, 5, 0x83, [1, 2], rfl, rfl,
    by decide, lsSound_of _ _ _ _ rfl rfl, by decide⟩

theorem witness_CopyPerformance_completes : ∃ (s : State) (k n : Nat) (e : Entry), s.args = [k, e.id] ∧ hasEntry s k e ∧
    e.state = .performed ∧ e.counter = some n ∧ ∀ f ∈ (s.core k).prints, f.id ≠ e.id :=
  ⟨{ queued (entry5 (.get 8) .performed) with args := [0, 5] }, 0, 2, entry5 (.get 8) .performed, rfl, by unfold hasEntry; decide,
    rfl, rfl, by decide⟩

theorem witness_CopyPerformance_fails : ∃ (s : State) (k n cause frame : Nat) (xval : Word) (e : Entry) (a : Actor), s.args = [k, e.id] ∧
    hasEntry s k e ∧ e.state = .failed cause xval frame ∧ e.counter = some n ∧ s.ownerOf e.owner = some a ∧ (s.ctx? a).isSome = true ∧
    (s.ctx a).pend.length < 4 :=
  ⟨{ queued (entry5 (.get 8) (.failed 0x128 0x1000 0)) with args := [0, 5] }, 0, 2, 0x128, 0, 0x1000,
    entry5 (.get 8) (.failed 0x128 0x1000 0),
    ⟨0, 0⟩, rfl, by unfold hasEntry; decide, rfl, rfl, by decide, by decide, by decide⟩

theorem witness_CopyPerformance_acknowledged : ∃ (s : State) (f : Flight) (a : Actor) (id : Nat) (c : Ctx),
    s.arriving (s.arg 0) = some f ∧ f.payload = .ack a id ∧ s.ctx? a = some c :=
  ⟨flying (.ack ⟨0, 0⟩ 5) 1 0 (one fun c => { c with unacked := [⟨5, 1⟩] }), _, ⟨0, 0⟩, 5, _, rfl, rfl, rfl⟩

theorem witness_CopyPerformance_tierDone : ∃ (s : State) (k len dir : Nat) (e : Entry), s.args = [k, e.id] ∧ hasEntry s k e ∧
    e.op = .tierpf len dir ∧ e.state = .sent ∧ len ≤ e.moved :=
  ⟨{ queued (entry5 (.tierpf 0 0) .sent) with args := [0, 5] }, 0, 0, 0, entry5 (.tierpf 0 0) .sent, rfl, by unfold hasEntry; decide,
    rfl, rfl, by decide⟩

/-- No stack has warmed up. -/
theorem cold (s : State) (h : s.plat.stackState = []) : allCold s := fun _ _ => by simp [h, Map.get, Tbl.get?]

/-- A TIER page of partition 0 in frame 1, a free LPDDR frame in its pool, and an entry that moves it there. -/
def tiered : State :=
  let s := tabled { queued (entry5 (.tierpf 0x200000 1) .sent 0) with args := [0, 5] } 0x5F
  s.setPart 0 { s.part 0 with pool := [524288] }

theorem physBad_of (s : State) (pa n : Nat) (h : s.dramBad = []) : s.physBad pa n = none := by
  unfold State.physBad
  split
  · rfl
  · rw [List.find?_eq_none.2 (by simp [h])]

set_option maxRecDepth 4000 in
theorem witness_CopyPerformance_tierMoves : ∃ (s : State) (k len dir : Nat) (e : Entry) (l : Leaf) (f : Nat), s.args = [k, e.id] ∧
    hasEntry s k e ∧ e.op = .tierpf len dir ∧ e.state = .sent ∧ e.moved < len ∧ s.spaceOf k < 64 ∧
    s.linkAllowed (s.spaceOf k) = true ∧ allCold s ∧ s.rootOf (s.spaceOf k) ≠ 0 ∧
    walkFrom s (e.rem.toNat + e.moved) 5 (s.rootOf (s.spaceOf k)) = .ok l ∧ l.log2 = 21 ∧ l.device = s.plat.devid ∧
    l.tier = true ∧ inHub l.phys = false ∧ (decide (524288 ≤ frameOf l.phys) == (dir == 1)) = false ∧
    s.physBad l.phys (2 ^ 21) = none ∧ inRanges f = true ∧
    ((s.part (s.spaceOf k)).pool.filter fun x => decide (524288 ≤ x) == (dir == 1)) = [f] ∧
    ∀ i < 8, frameOf (l.at_ + i) ≠ f :=
  ⟨tiered, 0, 0x200000, 1, entry5 (.tierpf 0x200000 1) .sent 0, ⟨0x200000, 21, 7, 0, false, true, false, 0x4000⟩, 524288, rfl,
    by unfold hasEntry; decide, rfl, rfl, by decide, by decide, by decide, cold _ rfl, by decide, by rfl, rfl, rfl, rfl, by decide, by decide,
    physBad_of _ _ _ rfl, by decide, by decide, by decide⟩

theorem witness_Counters : ∃ (s : State) (r n : Nat) (c : Ctx), acts s ∧ plainRegs s [r] ∧ n ≠ s.actor.thread ∧
    s.ctx? ⟨s.actor.core, n⟩ = some c ∧ c.parkReason = 2 ∧ bits c.park.toNat 8 24 = 63 ∧ c.isLimited = false ∧
    c.throttled = false :=
  ⟨on 0 id (also 1 { Ctx.fresh with ctxid := 1, status := .parked, park := 2 + 256 * 63 }), 31, 1, _, by unfold acts; decide,
    .inl (by decide), by decide, rfl, by decide, by decide, by decide, by decide⟩

theorem witness_Counters_increment : ∃ (s : State) (f : Flight) (src id n v : Nat) (a : Actor), s.arriving (s.arg 0) = some f ∧
    f.payload = .increment src id n v ∧ awaitsRputs s f.handle id f.dst = false ∧ switchedOut (s.landed f.id) f.dst = none ∧
    s.ownerOf f.handle = some a :=
  ⟨flying (.increment 0 5 63 9) 0 1 (queued (entry5 (.kadd 9) .sent)), _, 0, 5, 63, 9, ⟨0, 0⟩, rfl, rfl, by decide, by decide, by decide⟩

theorem witness_Counters_window : ∃ (s : State) (addr v k n : Nat), s.args = [addr, 4, v] ∧ v < 2 ^ 32 ∧
    counterAt addr = some (k, 16 * n) ∧ isCore k = true ∧ switchedOut s k = none :=
  ⟨{ one with args := [0xF100004023F0, 4, 0xFFFFFFFF] }, 0xF100004023F0, 0xFFFFFFFF, 4104, 63, rfl, by decide, by decide, by decide, by decide⟩

/-- A walk under way for the entry. -/
def walks0 (w : Walk) (s : State) : State := { s with walks := [(9, w)], args := [9] }

set_option maxRecDepth 4000 in
theorem witness_Translation_fill : ∃ (s : State) (id k : Nat) (e : Entry) (w : Walk) (l : Leaf), walking s id k e w ∧
    e.state = .walking ∧ allCold s ∧ s.rootOf w.space ≠ 0 ∧ walkFrom s w.va.toNat 5 (s.rootOf w.space) = .ok l ∧ fillCheck s w.space l = none :=
  ⟨walks0 ⟨.entry 0 5, 0, 0x1000, 1, none, 0⟩ (tabled (queued (entry5 (.get 8) .walking))), 9, 0, entry5 (.get 8) .walking, _,
    ⟨0x200000, 21, 7, 0, false, false, false, 0x4000⟩, ⟨rfl, rfl, rfl, by unfold hasEntry; decide⟩, rfl, cold _ rfl, by decide, by rfl, by decide⟩

theorem witness_Translation_absent : ∃ (s : State) (id k : Nat) (e : Entry) (w : Walk), walking s id k e w ∧ w.space < 64 ∧
    allCold s ∧ s.rootOf w.space ≠ 0 ∧ walkFrom s w.va.toNat 5 (s.rootOf w.space) = .error .pageNotPresent :=
  ⟨walks0 ⟨.entry 0 5, 0, 0x1FFFFFFFFFFF000, 1, none, 0⟩ (tabled (queued (entry5 (.get 8) .walking))), 9, 0,
    entry5 (.get 8) .walking, _, ⟨rfl, rfl, rfl, by unfold hasEntry; decide⟩, by decide, cold _ rfl, by decide, by rfl⟩

theorem witness_Translation_stall : ∃ (s : State) (id k kernel : Nat) (e : Entry) (w : Walk), walking s id k e w ∧ w.space < 64 ∧
    kernel = (s.part w.space).kernel ∧ kernel ≠ 0 ∧
    (∀ f ∈ (s.die (dieOf k)).keys, f.space ≠ w.space ∨ f.page ≠ w.va.toNat / 2 ^ 16) ∧ (s.die (dieOf k)).keys.length < 64 ∧
    isScrubbed s w = false :=
  ⟨walks0 ⟨.entry 0 5, 0, 0x1000, 1, some 0x128, 0⟩ (queued (entry5 (.get 8) .stalled)), 9, 0, 1, entry5 (.get 8) .stalled, _,
    ⟨rfl, rfl, rfl, by unfold hasEntry; decide⟩, by decide, by decide, by decide, by decide, by decide, by decide⟩

theorem witness_Translation_reply : ∃ (s : State) (d seq k : Nat) (e : Entry) (f : FaultKey) (va : Word), s.args = [d, seq] ∧
    (s.die d).keys.find? (fun f => f.seq == seq) = some f ∧ f.waiters = [(.entry k e.id, va)] ∧ hasEntry s k e ∧
    e.state = .stalled ∧ (s.die d).overflow = [] :=
  ⟨{ queued (entry5 (.get 8) .stalled) with
      args := [0, 3], dies := [(0, { Die.reset with keys := [⟨0, 0, 3, [(.entry 0 5, 0x1000)], 1, 0x128, 0x1000, 0⟩] })] },
    0, 3, 0, entry5 (.get 8) .stalled, _, 0x1000, rfl, rfl, rfl, by unfold hasEntry; decide, rfl, rfl⟩

theorem witness_Translation_record : ∃ (s : State) (n : Nat) (r : FRecord) (rest : List FRecord), s.args = [n] ∧ n ≠ 0 ∧
    (s.faultQueue n).waiting = r :: rest ∧
    ringOpen s n (s.faultQueue n).base (s.faultQueue n).head (s.faultQueue n).tail = true ∧ (s.faultQueue n).note = 0 ∧
    allCold s := by
  refine ⟨{ one with args := [1], hub := { Hub.reset with
      deeds := [(1, { Deed.reset with owner := 1 })]
      fqs := [(1, { FaultQueue.reset with base := 0x7000000200000, waiting := [⟨0x128, 0, 1, 0, 0x1000, 0, 3, 0, 1, 0⟩] })] } },
    1, _, [], rfl, by decide, rfl, by decide, rfl, cold _ rfl⟩

theorem witness_InstructionFetch : ∃ (s : State) (k n : Nat) (c : Ctx) (tr : TlbEntry), s.args = [k, n] ∧ s.ctx? ⟨k, n⟩ = some c ∧
    c.fetching = true ∧ mapped s k tr 4 (c.pc.toNat / 64 * 64) 64 :=
  ⟨cached0 { one (fun c => { c with fetching := true, pc := 0x1FFFC4 }) with args := [0, 0] }, 0, 0, _, tr0, rfl, rfl, rfl,
    by unfold mapped mappedIn; decide⟩

theorem witness_InstructionFetch_flush : ∃ (s : State) (k n code scope : Nat) (e : Entry), s.args = [k, e.id] ∧ hasEntry s k e ∧
    e.op = .iflush code scope ∧ e.state = .sent ∧ e.counter = some n :=
  ⟨{ queued (entry5 (.iflush 65535 3) .sent) with args := [0, 5] }, 0, 2, 65535, 3, entry5 (.iflush 65535 3) .sent, rfl,
    by unfold hasEntry; decide, rfl, rfl, rfl⟩

theorem witness_SyncObjects_bind : ∃ (s : State) (d a b q : Nat), acts s ∧ plainRegs s [d, a, b] ∧ q ≠ 0 ∧
    localObject s (s.me.rg a) ∧ regionOk (s.me.rg b) = true :=
  ⟨one (withG [(1, 0xFFFFFFFF), (2, 0x118)]), 3, 1, 2, 1, by unfold acts; decide, .inl (by decide), by decide,
    by unfold localObject; decide, by decide⟩

/-- The hub with these bindings and objects. -/
def hubWith (bs : List Binding) (os : List SyncObj) (s : State) : State := { s with hub := { s.hub with bindings := bs, objects := os } }

theorem witness_SyncObjects_binds : ∃ (s : State) (f : Flight) (a : Actor) (d q part : Nat) (o r : Word),
    s.arriving (s.arg 0) = some f ∧ f.payload = .binding a d q false part o r ∧
    (∀ b ∈ bindingsOf s part, ¬ (b.object = o ∧ sameRegion b.region r = true)) ∧ (bindingsOf s part).length < 1024 ∧
    (∀ b ∈ bindingsOf s part, b.object = o ∨ regionsMeet b.region r = false) ∧ bindingsOf s part ≠ [] :=
  ⟨flying (.binding ⟨0, 0⟩ 3 1 false 0 4 0x218) 0 4104 (hubWith [⟨0, 5, 0x118⟩] [] one), _, ⟨0, 0⟩, 3, 1, 0, 4, 0x218, rfl, rfl,
    by decide, by decide, by decide, by decide⟩

theorem witness_SyncObjects_meets : ∃ (s : State) (f : Flight) (a : Actor) (d q part : Nat) (o r : Word),
    s.arriving (s.arg 0) = some f ∧ f.payload = .binding a d q false part o r ∧
    (∀ b ∈ bindingsOf s part, ¬ (b.object = o ∧ sameRegion b.region r = true)) ∧ (bindingsOf s part).length < 1024 ∧
    ∃ b ∈ bindingsOf s part, b.object ≠ o ∧ regionsMeet b.region r = true :=
  ⟨flying (.binding ⟨0, 0⟩ 3 1 false 0 4 0x118) 0 4104 (hubWith [⟨0, 5, 0x118⟩] [] one), _, ⟨0, 0⟩, 3, 1, 0, 4, 0x118, rfl, rfl,
    by decide, by decide, by decide⟩

theorem witness_SyncObjects_rebinds : ∃ (s : State) (f : Flight) (a : Actor) (d q part : Nat) (o r : Word),
    s.arriving (s.arg 0) = some f ∧ f.payload = .binding a d q false part o r ∧
    ∃ b ∈ bindingsOf s part, b.object = o ∧ sameRegion b.region r = true :=
  ⟨flying (.binding ⟨0, 0⟩ 3 1 false 0 5 0x118) 0 4104 (hubWith [⟨0, 5, 0x118⟩] [] one), _, ⟨0, 0⟩, 3, 1, 0, 5, 0x118, rfl, rfl,
    by decide⟩

theorem witness_SyncObjects_full : ∃ (s : State) (f : Flight) (a : Actor) (d q part : Nat) (o r : Word),
    s.arriving (s.arg 0) = some f ∧ f.payload = .binding a d q false part o r ∧
    (∀ b ∈ bindingsOf s part, ¬ (b.object = o ∧ sameRegion b.region r = true)) ∧ 1024 ≤ (bindingsOf s part).length := by
  refine ⟨flying (.binding ⟨0, 0⟩ 3 1 false 0 4 0x218) 0 4104 (hubWith (List.replicate 1024 ⟨0, 5, 0x118⟩) [] one), _, ⟨0, 0⟩, 3, 1,
    0, 4, 0x218, rfl, rfl, fun b h => ?_, ?_⟩
  · obtain ⟨h, -⟩ := List.mem_filter.1 h
    obtain rfl := (List.mem_replicate.1 h).2
    decide
  · show 1024 ≤ (List.filter _ (List.replicate 1024 _)).length
    rw [List.filter_replicate]
    exact Nat.le_of_eq List.length_replicate.symm

theorem witness_SyncObjects_unbind : ∃ (s t : State) (f g : Flight) (a : Actor) (d q part : Nat) (o r : Word),
    s.arriving (s.arg 0) = some f ∧ f.payload = .binding a d q true part o r ∧
    (s.hub.bindings.any fun b => b.part == part && b.object == o && sameRegion b.region r) = true ∧
    t.arriving (t.arg 0) = some g ∧ g.payload = .binding a d q true part o r ∧
    (t.hub.bindings.any fun b => b.part == part && b.object == o && sameRegion b.region r) = false :=
  ⟨flying (.binding ⟨0, 0⟩ 3 1 true 0 5 0x118) 0 4104 (hubWith [⟨0, 5, 0x118⟩] [] one),
    flying (.binding ⟨0, 0⟩ 3 1 true 0 5 0x118) 0 4104 one, _, _, ⟨0, 0⟩, 3, 1, 0, 5, 0x118, rfl, rfl, by decide, rfl, rfl, by decide⟩

theorem witness_SyncObjects_status : ∃ (s : State) (f : Flight) (a : Actor) (d q : Nat) (x : Word) (ok : Bool) (c : Ctx),
    s.arriving (s.arg 0) = some f ∧ f.payload = .status a d q x ok ∧ s.ctx? a = some c ∧
    (c.status = .waiting ∨ c.status = .parked) ∧ (c.bound = false ∨ d ≠ 29) ∧ q ≠ 0 :=
  ⟨flying (.status ⟨0, 0⟩ 3 1 2 false) 4104 0 (one fun c => { c with status := .waiting }), _, ⟨0, 0⟩, 3, 1, 2, false, _, rfl, rfl,
    rfl, .inl rfl, .inl (by decide), by decide⟩

theorem witness_SyncObjects_acquire : ∃ (s : State) (a b : Nat), acts s ∧ plainRegs s [a, b] ∧ localObject s (s.me.rg a) ∧
    lsReady s (s.me.rg b).toNat 8 ∧ putsPending s (s.spaceOf s.actor.core) (s.me.rg a) = false :=
  ⟨one (withG [(1, 5), (2, 0x3FFF8)]), 1, 2, by unfold acts; decide, .inl (by decide), by unfold localObject; decide,
    lsReady_of _ _ _ rfl rfl rfl rfl (by decide) (by decide), by decide⟩

theorem witness_SyncObjects_releaseWaits : ∃ (s : State) (a : Nat), acts s ∧ plainRegs s [a] ∧ localObject s (s.me.rg a) ∧
    putsPending s (s.spaceOf s.actor.core) (s.me.rg a) = true :=
  ⟨hubWith [⟨0, 5, 0x4018⟩] [] (queued (entry5 (.put 8) .waiting) (withG [(1, 5)])), 1, by unfold acts; decide, .inl (by decide),
    by unfold localObject; decide, by decide⟩

theorem witness_SyncObjects_lock : ∃ (s t : State) (f g : Flight) (a : Actor) (part slot : Nat) (o : Word),
    s.arriving (s.arg 0) = some f ∧ f.payload = .lock a part o true slot ∧ objectExists s.hub part o = true ∧
    (∀ x ∈ (s.object part o).holders, x.1 ≠ (s.ctx a).handle) ∧ (s.object part o).queue = [] ∧ (s.object part o).holders = [] ∧
    t.arriving (t.arg 0) = some g ∧ g.payload = .lock a part o true slot ∧ objectExists t.hub part o = true ∧
    (∀ x ∈ (t.object part o).holders, x.1 ≠ (t.ctx a).handle) ∧ (t.object part o).queue = [] ∧ (t.object part o).holders ≠ [] :=
  ⟨flying (.lock ⟨0, 0⟩ 0 5 true 0x100) 0 4104 (hubWith [⟨0, 5, 0x118⟩] [⟨0, 5, [], [], 3⟩] one),
    flying (.lock ⟨0, 0⟩ 0 5 true 0x100) 0 4104 (hubWith [⟨0, 5, 0x118⟩] [⟨0, 5, [(64, false)], [], 3⟩] one), _, _, ⟨0, 0⟩, 0, 0x100, 5,
    rfl, rfl, by decide, by decide, by decide, by decide, rfl, rfl, by decide, by decide, by decide, by decide⟩

theorem witness_SyncObjects_unbound : ∃ (s : State) (f : Flight) (a : Actor) (part slot : Nat) (o : Word) (exclusive : Bool),
    s.arriving (s.arg 0) = some f ∧ f.payload = .lock a part o exclusive slot ∧ objectExists s.hub part o = false :=
  ⟨flying (.lock ⟨0, 0⟩ 0 5 true 0x100) 0 4104 one, _, ⟨0, 0⟩, 0, 0x100, 5, true, rfl, rfl, by decide⟩

theorem witness_SyncObjects_release : ∃ (s t : State) (f g : Flight) (a : Actor) (part : Nat) (o : Word),
    s.arriving (s.arg 0) = some f ∧ f.payload = .release a part o ∧ objectExists s.hub part o = true ∧
    isBound s.hub part o = true ∧ (s.object part o).holders = [((s.ctx a).handle, true)] ∧ (s.object part o).queue = [] ∧
    t.arriving (t.arg 0) = some g ∧ g.payload = .release a part o ∧ objectExists t.hub part o = true ∧
    isBound t.hub part o = true ∧ ∀ x ∈ (t.object part o).holders, x.1 ≠ (t.ctx a).handle :=
  ⟨flying (.release ⟨0, 0⟩ 0 5) 0 4104 (hubWith [⟨0, 5, 0x118⟩] [⟨0, 5, [(0, true)], [], 3⟩] one),
    flying (.release ⟨0, 0⟩ 0 5) 0 4104 (hubWith [⟨0, 5, 0x118⟩] [⟨0, 5, [(64, true)], [], 3⟩] one), _, _, ⟨0, 0⟩, 0, 5,
    rfl, rfl, by decide, by decide, by decide, by decide, rfl, rfl, by decide, by decide, by decide⟩

theorem witness_SyncObjects_answers : ∃ (s t u v : State) (f g h i : Flight) (a : Actor) (slot : Nat) (o count : Word) (c : Ctx),
    s.arriving (s.arg 0) = some f ∧ s.ctx? a = some c ∧ c.status = .waiting ∧ f.payload = .lockAnswer a 1 o slot count ∧
    t.arriving (t.arg 0) = some g ∧ t.ctx? a = some c ∧ g.payload = .lockAnswer a 2 o slot count ∧
    u.arriving (u.arg 0) = some h ∧ u.ctx? a = some c ∧ h.payload = .releaseAnswer a true o ∧
    v.arriving (v.arg 0) = some i ∧ v.ctx? a = some c ∧ i.payload = .releaseAnswer a false o :=
  let w : State := one fun c => { c with status := .waiting }
  ⟨flying (.lockAnswer ⟨0, 0⟩ 1 5 0x3FFF8 3) 4104 0 w, flying (.lockAnswer ⟨0, 0⟩ 2 5 0x3FFF8 3) 4104 0 w,
    flying (.releaseAnswer ⟨0, 0⟩ true 5) 4104 0 w, flying (.releaseAnswer ⟨0, 0⟩ false 5) 4104 0 w, _, _, _, _, ⟨0, 0⟩, 0x3FFF8, 5, 3,
    { Ctx.fresh with status := .waiting }, rfl, rfl, rfl, rfl, rfl, rfl, rfl, rfl, rfl, rfl, rfl, rfl, rfl⟩

theorem witness_SyncObjects_grant : ∃ (s : State) (f : Flight) (a : Actor) (slot n : Nat) (count : Word) (c : Ctx),
    s.arriving (s.arg 0) = some f ∧ f.payload = .grant a slot count ∧ s.ctx? ⟨a.core, n⟩ = some c ∧ c.parkReason = 6 ∧
    bits c.park.toNat 8 24 = slot ∧ slot % 8 = 0 ∧ (s.core a.core).wordState (slot / 4) = 0 :=
  ⟨flying (.grant ⟨0, 0⟩ 0x3FFF8 3) 4104 0 (lastWords 0 fun c => { c with status := .parked, park := 0x3FFF806 }), _, ⟨0, 0⟩, 0x3FFF8,
    0, 3, _, rfl, rfl, rfl, by decide, by decide, by decide, by decide⟩

theorem witness_FencesAndWaits : ∃ s t : State, ¬ fenced s 3 ∧ fenced t 3 :=
  ⟨one, queued (entry5 (.put 8) .waiting), by
    rintro (⟨c, hc, f, hf, -⟩ | ⟨e, ⟨⟨c, hc, he⟩, -⟩, -⟩ | ⟨u, hu, -⟩)
    · rw [List.mem_singleton.1 hc] at hf
      exact List.not_mem_nil hf
    · rw [List.mem_singleton.1 hc] at he
      exact List.not_mem_nil he
    · exact List.not_mem_nil hu, .inr (.inl ⟨entry5 (.put 8) .waiting,
      ⟨⟨_, List.mem_cons_self, by decide⟩, .inl (by decide)⟩, .inr (.inr rfl)⟩)⟩

theorem witness_FencesAndWaits_waitn : ∃ (s : State) (a b : Nat), plainRegs s [a, b] ∧ (s.me.rg a).toNat < 2 ^ 32 ∧
    (s.me.rg b).toNat < 2 ^ 32 ∧ (∃ i < 4, (s.me.rg a).toNat / 2 ^ (8 * i) % 2 ^ 8 < 32 ∧
      (s.me.rg a).toNat / 2 ^ (8 * i) % 2 ^ 8 < classCount s i) ∧
    ¬ ∃ i < 4, (s.me.rg b).toNat / 2 ^ (8 * i) % 2 ^ 8 < 32 ∧
      (s.me.rg b).toNat / 2 ^ (8 * i) % 2 ^ 8 < classCount s i :=
  ⟨queued (entry5 (.put 8) .waiting) (withG [(1, 0), (2, 0x2020201F)]), 1, 2, .inl (by decide), by decide, by decide, by decide,
    by decide⟩

theorem witness_FencesAndWaits_waitc : ∃ (s : State) (r t : Nat), plainRegs s [r, t] ∧
    0 ≤ (Map.get 0 s.here.kval 63 - (s.me.rg r).setWidth 32).toInt ∧
    (Map.get 0 s.here.kval 63 - (s.me.rg t).setWidth 32).toInt < 0 :=
  ⟨one (withG [(1, 0x80000001), (2, 1)]), 1, 2, .inl (by decide), by decide, by decide⟩

theorem witness_RemoteAtomics : ∃ (s : State) (d a b q k : Nat), acts s ∧ plainRegs s [d, a, b] ∧ q ∈ [2, 3, 6, 7] ∧ q % 4 = 3 ∧
    (s.me.rg a).toNat < 2 ^ 48 ∧ winDevice (s.me.rg a).toNat = s.plat.devid ∧ winCore (s.me.rg a).toNat = some k ∧
    k ≠ s.actor.core ∧ s.mayName s.actor.core k = true ∧ winOffset (s.me.rg a).toNat + 8 ≤ winLimit (s.me.rg a).toNat ∧
    winOffset (s.me.rg a).toNat % 8 = 0 :=
  ⟨one (withG [(1, 0x23FFF8)]), 3, 1, 2, 7, 1, by unfold acts; decide, .inl (by decide), by decide, by decide, by decide, by decide,
    by decide, by decide, by decide, by decide, by decide⟩

theorem witness_RemoteAtomics_far : ∃ (s : State) (d a b q : Nat), acts s ∧ plainRegs s [d, a, b] ∧ q ∈ [2, 3, 6, 7] ∧ q % 4 = 3 ∧
    (s.me.rg a).toNat < 2 ^ 48 ∧ winDevice (s.me.rg a).toNat ≠ s.plat.devid ∧ (winCore (s.me.rg a).toNat).isSome = true ∧
    remoteFailure s (winDevice (s.me.rg a).toNat) = none ∧ s.linkAllowed (s.spaceOf s.actor.core) = true ∧
    winOffset (s.me.rg a).toNat + 8 ≤ winLimit (s.me.rg a).toNat ∧ winOffset (s.me.rg a).toNat % 8 = 0 :=
  ⟨{ one (withG [(1, 0x20023FFF8)]) with fabric := [(1, .accepts)], plat := { Platform.reset with devidWritten := true } }, 3, 1, 2, 7, by unfold acts; decide, .inl (by decide), by decide,
    by decide, by decide, by decide, by decide, by decide, by decide, by decide, by decide⟩

theorem witness_RemoteAtomics_performs : ∃ (s : State) (f : Flight) (a : Actor) (d off : Nat) (old x e name : Word),
    s.arriving (s.arg 0) = some f ∧ f.dst < elsewhere ∧ lsSound s f.dst off 8 ∧ off % 8 = 0 ∧
    (∀ i < 64, old.getLsbD i = (decide (i < 64) && (Map.get 0 (s.core f.dst).ls (off + i / 8)).getLsbD (i % 8))) ∧
    x.toNat < 2 ^ 64 ∧ e.toNat < 2 ^ 64 ∧ f.payload = .atomic a d 9 true true off x.toNat e.toNat name :=
  ⟨flying (.atomic ⟨0, 0⟩ 3 9 true true 0x3FFF8 7 0 0x23FFF8) 0 1 one, _, ⟨0, 0⟩, 3, 0x3FFF8, 0, 7, 0, 0x23FFF8, rfl, by decide,
    lsSound_of _ _ _ _ rfl rfl, by decide, by decide, by decide, by decide, rfl⟩

theorem witness_RemoteAtomics_reply : ∃ (s t : State) (f g : Flight) (a : Actor) (d old : Nat) (name : Word) (c : Ctx),
    s.arriving (s.arg 0) = some f ∧ s.ctx? a = some c ∧ c.status = .parked ∧ (c.bound = false ∨ d ≠ 29) ∧ old < 2 ^ 32 ∧
    f.payload = .atomicReply a d false 0 old name ∧
    t.arriving (t.arg 0) = some g ∧ t.ctx? a = some c ∧ g.payload = .atomicReply a d false 1 old name ∧
    t.ownerOf c.handle = some a ∧ c.pend.length < 4 :=
  let w : State := one fun c => { c with status := .parked, park := 9 }
  ⟨flying (.atomicReply ⟨0, 0⟩ 3 false 0 0xFFFFFFFF 0x23FFF8) 1 0 w, flying (.atomicReply ⟨0, 0⟩ 3 false 1 0xFFFFFFFF 0x23FFF8) 1 0 w,
    _, _, ⟨0, 0⟩, 3, 0xFFFFFFFF, 0x23FFF8, { Ctx.fresh with status := .parked, park := 9 }, rfl, rfl, rfl, .inl (by decide), by decide,
    rfl, rfl, rfl, rfl, by decide, by decide⟩

theorem witness_RemoteAtomics_cancel : ∃ (s : State) (a : Actor) (c : Ctx) (due : Nat) (f : Flight), s.args = [a.core, a.thread] ∧
    s.ctx? a = some c ∧ c.parkReason = 9 ∧ c.timeoutAt = some due ∧ due ≤ s.now ∧ unperformed s a = some f :=
  ⟨{ flying (.atomic ⟨0, 0⟩ 3 0 true true 0x100 7 0 0x200100) 0 1
      (one fun c => { c with status := .parked, park := 9, timeoutAt := some 4194304 }) with args := [0, 0], now := 4194304 }, ⟨0, 0⟩, _,
    4194304, _, rfl, rfl, by decide, rfl, by decide, rfl⟩

theorem witness_RemoteAtomics_cancelled : ∃ (s : State) (f r : Flight) (a : Actor) (d : Nat) (name : Word),
    s.net.find? (fun f => f.id == s.arg 0) = some f ∧ f.payload = .cancel a ∧ unperformed (s.landed f.id) a = some r ∧
    r.payload = .atomic a d 0 true true 0x100 7 0 name ∧ f.dst < elsewhere :=
  ⟨{ one with
      net := [⟨6, .atomic, 0, 1, 0, .atomic ⟨0, 0⟩ 3 0 true true 0x100 7 0 0x200100, 0⟩, ⟨7, .atomic, 0, 1, 0, .cancel ⟨0, 0⟩, 0⟩]
      args := [7] }, _, _, ⟨0, 0⟩, 3, 0x200100, rfl, rfl, rfl, rfl, by decide⟩

/-! #### Matrix -/

/-- A 32-row descriptor whose two sides have format `c` (R265). -/
def desc (c : Nat) (sparsity : Nat := 0) : Word := BitVec.ofNat 64 (c + 256 * c + 65536 * 2 + 31 * 2 ^ 24 + sparsity * 2 ^ 56)

/-- The D64 descriptor. -/
def desc64 : Word := BitVec.ofNat 64 (1 + 256 + 65536 + 31 * 2 ^ 24)

/-- Core 0 with this engine. -/
def engined (e : Engine) (f : Ctx → Ctx := id) : State := on 0 f fun core => { core with eng := e }

/-- A plane loaded for a descriptor. -/
def planeFor (w : Word) : WPlane := { WPlane.empty with state := .loaded, format := weightFormat w, scaled := weightScaled w, sparsity := sparsityOf w }

theorem witness_MatrixStreams_mldw : ∃ (s : State) (a q : Nat), mayMatrix s [a] ∧ descFault (streamKind (s.me.re q)) (s.me.re q) = none ∧
    (s.me.rg a).toNat % 64 = 0 ∧ (s.me.rg a).toNat + imageSize (s.me.re q) ≤ lsLimit s.actor.core ∧ s.here.eng.loads.length < 2 ∧
    s.here.eng.queue = [] ∧ engineWaits s.here [run (s.me.rg a).toNat (imageSize (s.me.re q))] [] = false :=
  ⟨one fun c => (withG [(1, 0x3F800)] c).we 3 (desc 5), 1, 3, by unfold mayMatrix plainRegs; decide, by decide, by decide, by decide,
    by decide, by decide, by decide⟩

theorem witness_MatrixStreams_load : ∃ (s : State) (k id o base : Nat) (w : Word) (rest : List Load), s.args = [k] ∧
    (s.core k).frozen = false ∧ (s.core k).eng.loads = .weights id o base w [] :: rest ∧
    (∀ r ∈ (s.core k).eng.rows, r.plane ≠ 1 - (s.core k).eng.active) ∧ sparsityOf w = 0 ∧ lsSound s k base (imageSize w) :=
  ⟨{ engined { Engine.reset with loads := [.weights 5 0 0x3F800 (desc 5) []] } with args := [0] }, 0, 5, 0, 0x3F800, desc 5, [], rfl,
    by decide, rfl, by decide, by decide, lsSound_of _ _ _ _ rfl rfl⟩

theorem witness_MatrixStreams_mswap : ∃ s : State, mayMatrix s [] ∧ s.here.eng.queue.length < 8 ∧ s.here.eng.loads = [] :=
  ⟨one, by unfold mayMatrix plainRegs; decide, by decide, by decide⟩

theorem witness_MatrixStreams_swap : ∃ (s : State) (k id o : Nat) (loads : List Nat) (rest : List EngineEntry), s.args = [k] ∧
    (s.core k).frozen = false ∧ (s.core k).eng.queue = ⟨id, o, .swap loads⟩ :: rest ∧ (s.core k).eng.loads = [] :=
  ⟨{ engined { Engine.reset with queue := [⟨5, 0, .swap []⟩] } with args := [0] }, 0, 5, 0, [], [], rfl, by decide, rfl, rfl⟩

/-- The hypotheses of the streaming clause. -/
def streams (s : State) (d a b q kind : Nat) : Prop :=
  let w := s.me.re q
  let ab := (s.me.rg a).toNat
  let ctl := (s.me.rg b).toNat
  let sbase := ctl % 2 ^ 18
  let start := ctl / 2 ^ 24 % 2 ^ 5
  let n := descRows w - start
  let p := s.here.eng.plane s.here.eng.active
  let elems : Bytes := ⟨ab + start * rowPitch w, rowBytes w, rowPitch w, n⟩
  let scales := if rowScales w = 0 then [] else [run (sbase + start * rowScales w) (n * rowScales w)]
  s.here.eng.queue = [] ∧ descFault kind w = none ∧ (kind = 2 → d % 2 = 0) ∧ streamReserved kind (s.me.rg b) = false ∧
    start < descRows w ∧ ab % 16 = 0 ∧ ab + (descRows w - 1) * rowPitch w + rowBytes w ≤ lsLimit s.actor.core ∧
    (rowScales w ≠ 0 → sbase + descRows w * rowScales w ≤ lsLimit s.actor.core) ∧
    engineWaits s.here (elems :: scales) [] = false ∧
    (∀ r ∈ s.here.eng.rows, r.d ∉ planesOf d (kind == 2) ∧ (r.double = true → r.d + 1 ∉ planesOf d (kind == 2))) ∧
    p.state = .loaded ∧ p.format = weightFormat w ∧ p.scaled = weightScaled w ∧ p.sparsity = sparsityOf w

theorem witness_MatrixStreams_stream :
    (∃ s, mayMatrix s [1, 2] ∧ streams s 7 1 2 3 0 ∧ ∀ x, s.here.lsBad.contains x = false ∧ s.here.lsSingle.contains x = false) ∧
    (∃ s, mayMatrix s [1, 2] ∧ streams s 7 1 2 3 1 ∧ ∀ x, s.here.lsBad.contains x = false ∧ s.here.lsSingle.contains x = false) ∧
    ∃ s, mayMatrix s [1, 2] ∧ streams s 6 1 2 3 2 ∧ ∀ x, s.here.lsBad.contains x = false ∧ s.here.lsSingle.contains x = false :=
  ⟨⟨engined { Engine.reset with planes := [planeFor (desc 5), WPlane.empty] }
      fun c => (withG [(1, 0x3F000), (2, 0x1F000000)] c).we 3 (desc 5),
      by unfold mayMatrix plainRegs; decide, by unfold streams; decide, fun x => ⟨rfl, rfl⟩⟩,
    ⟨engined { Engine.reset with planes := [planeFor (desc 5 1), WPlane.empty] }
      fun c => (withG [(1, 0x3F000)] c).we 3 (desc 5 1),
      by unfold mayMatrix plainRegs; decide, by unfold streams; decide, fun x => ⟨rfl, rfl⟩⟩,
    ⟨engined { Engine.reset with planes := [planeFor desc64, WPlane.empty] }
      fun c => (withG [(1, 0x3F000), (2, 0x20000000)] c).we 3 desc64,
      by unfold mayMatrix plainRegs; decide, by unfold streams; decide, fun x => ⟨rfl, rfl⟩⟩⟩

/-- A row of a stream. -/
def row5 (double : Bool) (w : Word) : StreamRow where
  d := 6
  row := 31
  half := 1
  double := double
  desc := w
  plane := 0
  acts := []
  scales := []

theorem witness_MatrixStreams_row :
    (∃ (s : State) (k : Nat) (r : StreamRow) (rest : List StreamRow), s.args = [k] ∧ (s.core k).frozen = false ∧
      (s.core k).eng.rows = r :: rest ∧ r.row < 32 ∧ r.double = false) ∧
    ∃ (s : State) (k : Nat) (r : StreamRow) (rest : List StreamRow), s.args = [k] ∧ (s.core k).frozen = false ∧
      (s.core k).eng.rows = r :: rest ∧ r.row < 32 ∧ r.double = true ∧ r.half < 2 :=
  ⟨⟨{ engined { Engine.reset with rows := [row5 false (desc 5)] } with args := [0] }, 0, row5 false (desc 5), [], rfl, by decide, rfl,
      by decide, rfl⟩,
    ⟨{ engined { Engine.reset with rows := [row5 true desc64] } with args := [0] }, 0, row5 true desc64, [], rfl, by decide, rfl,
      by decide, rfl, by decide⟩⟩

theorem witness_MatrixStreams_mcomp : ∃ (s : State) (a b q : Nat),
    let w := s.me.re q
    let src := (s.me.rg a).toNat
    let dst := (s.me.rg b).toNat
    let size := 64 * recordSize (weightFormat w) + 32 * columnScales w
    mayMatrix s [a, b] ∧ s.here.eng.loads = [] ∧ s.here.eng.queue = [] ∧ descFault (streamKind w) w = none ∧ sparsityOf w = 1 ∧
      src % 64 = 0 ∧ dst % 64 = 0 ∧ src + size ≤ lsLimit s.actor.core ∧ dst + imageSize w ≤ lsLimit s.actor.core ∧
      (run src size).meets (run dst (imageSize w)) = false ∧
      engineWaits s.here [run src size] [run dst (imageSize w)] = false ∧
      ∀ x, s.here.lsBad.contains x = false ∧ s.here.lsSingle.contains x = false :=
  ⟨one fun c => (withG [(1, 0x10000)] c).we 3 (desc 5 1), 1, 2, 3, by unfold mayMatrix plainRegs; decide, by decide, by decide,
    by decide, by decide, by decide, by decide, by decide, by decide, by decide, by decide, fun x => ⟨rfl, rfl⟩⟩

theorem witness_MatrixStreams_image : ∃ (s : State) (k id o src dst : Nat) (w : Word) (im : List Byte) (held : Bool) (rest : List Load),
    s.args = [k] ∧ (s.core k).frozen = false ∧ (s.core k).eng.loads = .compress id o src dst w (some im) held :: rest ∧
    lsSound s k dst im.length :=
  ⟨{ engined { Engine.reset with loads := [.compress 5 0 0x10000 0 (desc 5 1) (some [1, 2]) false] } with args := [0] }, 0, 5, 0,
    0x10000, 0, desc 5 1, [1, 2], false, [], rfl, by decide, rfl, lsSound_of _ _ _ _ rfl rfl⟩

theorem witness_Accumulators_zero : ∃ s : State, mayMatrix s [] ∧ s.here.eng.queue.length < 8 :=
  ⟨one, by unfold mayMatrix plainRegs; decide, by decide⟩

theorem witness_Accumulators_head :
    (∃ (s : State) (k id o d a : Nat) (rest : List EngineEntry), s.args = [k] ∧ (s.core k).frozen = false ∧
      (∀ r ∈ (s.core k).eng.rows, r.d ≠ d ∧ r.d ≠ a ∧ (r.double = true → r.d + 1 ≠ d ∧ r.d + 1 ≠ a)) ∧
      (s.core k).eng.queue = ⟨id, o, .zero d⟩ :: rest) ∧
    ∃ (s : State) (k id o d a : Nat) (rest : List EngineEntry), s.args = [k] ∧ (s.core k).frozen = false ∧
      (∀ r ∈ (s.core k).eng.rows, r.d ≠ d ∧ r.d ≠ a ∧ (r.double = true → r.d + 1 ≠ d ∧ r.d + 1 ≠ a)) ∧
      (s.core k).eng.queue = ⟨id, o, .move d a⟩ :: rest :=
  ⟨⟨{ engined { Engine.reset with queue := [⟨5, 0, .zero 7⟩], rows := [row5 false (desc 5)] } with args := [0] }, 0, 5, 0, 7, 0, [],
      rfl, by decide, by decide, rfl⟩,
    ⟨{ engined { Engine.reset with queue := [⟨5, 0, .move 7 0⟩], rows := [row5 false (desc 5)] } with args := [0] }, 0, 5, 0, 7, 0, [],
      rfl, by decide, by decide, rfl⟩⟩

/-- The hypotheses that the transfers share, for rows of `size` bytes. -/
def transfers (s : State) (d a b size : Nat) : Prop :=
  let w := s.me.rg b
  let n := w.toNat / 2 ^ 5 % 2 ^ 5 + 1
  mayMatrix s [a, b] ∧ s.here.eng.queue = [] ∧ s.here.eng.rows = [] ∧ w.toNat % 2 ^ 5 + n ≤ 32 ∧ (s.me.rg a).toNat % 16 = 0 ∧
    (w.getLsbD 10 = true → d % 2 = 0) ∧ (s.me.rg a).toNat + n * size ≤ lsLimit s.actor.core ∧
    engineWaits s.here [run (s.me.rg a).toNat (n * size)] [] = false ∧
    engineWaits s.here [] [run (s.me.rg a).toNat (n * size)] = false

theorem witness_Accumulators_move :
    (∃ (s : State) (d a b : Nat), transfers s d a b 128 ∧ (s.me.rg b).toNat < 2 ^ 11 ∧ (s.me.rg b).getLsbD 10 = false ∧
      (∀ i < (s.me.rg b).toNat / 2 ^ 5 % 2 ^ 5 + 1, s.here.eng.isPoisoned d ((s.me.rg b).toNat % 2 ^ 5 + i) = false) ∧
      ∀ x, s.here.lsBad.contains x = false ∧ s.here.lsSingle.contains x = false) ∧
    ∃ (s : State) (d a b : Nat), transfers s d a b 256 ∧ (s.me.rg b).toNat < 2 ^ 11 ∧ (s.me.rg b).getLsbD 10 = true ∧
      (∀ i < (s.me.rg b).toNat / 2 ^ 5 % 2 ^ 5 + 1, s.here.eng.isPoisoned d ((s.me.rg b).toNat % 2 ^ 5 + i) = false ∧
        s.here.eng.isPoisoned (d + 1) ((s.me.rg b).toNat % 2 ^ 5 + i) = false) ∧
      ∀ x, s.here.lsBad.contains x = false ∧ s.here.lsSingle.contains x = false :=
  ⟨⟨one (withG [(1, 0x3F000), (2, 31 * 32)]), 7, 1, 2, by unfold transfers mayMatrix plainRegs; decide, by decide, by decide,
      by decide, fun x => ⟨rfl, rfl⟩⟩,
    ⟨one (withG [(1, 0x3F000), (2, 1024 + 15 * 32 + 16)]), 6, 1, 2, by unfold transfers mayMatrix plainRegs; decide, by decide,
      by decide, by decide, fun x => ⟨rfl, rfl⟩⟩⟩

theorem witness_Accumulators_poisoned : ∃ (s : State) (d a b r : Nat), transfers s d a b 128 ∧ (s.me.rg b).toNat < 2 ^ 11 ∧
    s.here.eng.isPoisoned d ((s.me.rg b).toNat % 2 ^ 5 + r) = true ∧ r < (s.me.rg b).toNat / 2 ^ 5 % 2 ^ 5 + 1 ∧
    (s.me.rg b).getLsbD 10 = false ∧ (∀ i < r, s.here.eng.isPoisoned d ((s.me.rg b).toNat % 2 ^ 5 + i) = false) ∧
    ∀ x, s.here.lsBad.contains x = false ∧ s.here.lsSingle.contains x = false :=
  ⟨engined { Engine.reset with poison := [32 * 7 + 31] } (withG [(1, 0x3F000), (2, 31 * 32)]), 7, 1, 2, 31,
    by unfold transfers mayMatrix plainRegs; decide, by decide, by decide, by decide, by decide, by decide, fun x => ⟨rfl, rfl⟩⟩

theorem witness_Accumulators_aout : ∃ (s : State) (d a b : Nat),
    let w := s.me.rg b
    transfers s d a b (32 * (typeBits ((elemType (outFormat w)).getD 9) / 8)) ∧ bits w.toNat 12 4 = 0 ∧ w.toNat < 2 ^ 30 ∧
      isFormat (outFormat w) = true ∧ outAllowed w = true ∧
      (∀ i < w.toNat / 2 ^ 5 % 2 ^ 5 + 1, s.here.eng.isPoisoned d (w.toNat % 2 ^ 5 + i) = false ∧
        (w.getLsbD 10 = true → s.here.eng.isPoisoned (d + 1) (w.toNat % 2 ^ 5 + i) = false)) ∧
      ∀ x, s.here.lsBad.contains x = false ∧ s.here.lsSingle.contains x = false :=
  ⟨one (withG [(1, 0x3F000), (2, 31 * 32 + 3 * 65536)]), 7, 1, 2, by unfold transfers mayMatrix plainRegs; decide, by decide,
    by decide, by decide, by decide, by decide, fun x => ⟨rfl, rfl⟩⟩

theorem witness_Accumulators_written : ∃ (s : State) (k : Nat) (o : WriteOut) (rest : List WriteOut), s.args = [k] ∧
    (s.core k).frozen = false ∧ (s.core k).eng.outs = o :: rest ∧ lsSound s k o.addr o.bytes.length :=
  ⟨{ engined { Engine.reset with outs := [⟨5, 0, 0x40, [1, 2]⟩] } with args := [0] }, 0, _, [], rfl, by decide, rfl,
    lsSound_of _ _ _ _ rfl rfl⟩

theorem witness_Transforms_ftwg : ∃ (s : State) (d b : Nat), mayMatrix s [b] ∧ xfBadSize 2 (s.me.rg b) = false ∧
    d % layoutPlanes (xfM (s.me.rg b)) = 0 ∧ s.here.eng.queue.length < 8 :=
  ⟨one (withG [(2, 4 + 16 * 65536)]), 7, 2, by unfold mayMatrix plainRegs; decide, by decide, by decide, by decide⟩

theorem witness_Transforms_held : ∃ (s : State) (d a b : Nat), mayMatrix s [b] ∧ s.here.eng.queue = [] ∧ s.here.eng.rows = [] ∧
    ∀ fn ∈ [0, 1, 3, 4], xfBadSize fn (s.me.rg b) = false ∧ d % layoutPlanes (xfM (s.me.rg b)) = 0 ∧
      a % layoutPlanes (xfM (s.me.rg b)) = 0 ∧
      ∀ p ∈ xfPlanes fn d a (xfM (s.me.rg b)), ∀ r < layoutRows (xfM (s.me.rg b)), s.here.eng.isPoisoned p r = false :=
  ⟨one (withG [(2, 4 + 16 * 65536)]), 7, 3, 2, by unfold mayMatrix plainRegs; decide, by decide, by decide, by decide⟩

/-- Core 0 with a transform at the head of its engine queue. -/
def transforming (fn : Nat) : State :=
  { engined { Engine.reset with queue := [⟨5, 0, .xform fn 7 3 (4 + 16 * 65536)⟩] } with args := [0] }

theorem witness_Transforms_execute : ∀ fn ∈ [0, 1, 2, 3, 4], ∃ (s : State) (k id o d a : Nat) (w : Word) (rest : List EngineEntry),
    s.args = [k] ∧ (s.core k).frozen = false ∧ (s.core k).eng.queue = ⟨id, o, .xform fn d a w⟩ :: rest ∧
    (s.core k).eng.rows = [] ∧ fn < 5 :=
  by
  intro fn h
  simp only [List.mem_cons, List.not_mem_nil, or_false] at h
  rcases h with rfl | rfl | rfl | rfl | rfl <;> exact ⟨transforming _, 0, 5, 0, 7, 3, _, [], rfl, by decide, rfl, rfl, by decide⟩

/-! #### Channels, messages, stages -/

theorem witness_ChannelsAndMessages_chbind :
    (∃ (s : State) (u v : Nat), acts s ∧ isHub s.actor.core = false ∧ u ≤ 4 ∧ v ≤ 4 ∧ bindFault s u v = none ∧ s.me.bound = false ∧
      (u ≠ 4 ∨ v ≠ 4)) ∧
    ∃ (s : State) (u v : Nat), acts s ∧ isHub s.actor.core = false ∧ u ≤ 4 ∧ v ≤ 4 ∧ bindFault s u v = none ∧ s.me.bound = true ∧
      u = 4 ∧ v = 4 :=
  ⟨⟨one, 1, 2, by unfold acts; decide, by decide, by decide, by decide, by decide, by decide, by decide⟩,
    ⟨one fun c => { c with bindU := 1 }, 4, 4, by unfold acts; decide, by decide, by decide, by decide, by decide, by decide, rfl, rfl⟩⟩

/-- Core 0 with `n` credits spent in direction 1, to which its thread 0 is bound. -/
def credited (n : Nat) : State :=
  on 0 (fun c => { c with bindV := 1 }) fun core => { core with credits := Map.set 0 [] 1 n }

theorem witness_ChannelsAndMessages_enq : ∀ n ∈ [0, 63, 64], ∃ (s : State) (a q n' : Nat), acts s ∧ isHub s.actor.core = false ∧ q ≠ 0 ∧
    s.me.bindV < 4 ∧ a ≠ 28 ∧ a ≠ 29 ∧ neighbour s.actor.core s.me.bindV = some n' ∧ s.here.creditsLeft s.me.bindV = 64 - n :=
  fun n h => ⟨credited n, 1, 2, 1, by unfold acts; revert n; decide, by revert n; decide, by decide, by revert n; decide, by decide,
    by decide, by revert n; decide, by revert n; decide⟩

/-- Core 0 whose channel 1 holds these values; its thread 0 is bound to it. -/
def channeled (l : List Word) (f : Core → Core := id) : State :=
  on 0 (fun c => { c with bindU := 1 }) fun core => f (core.setChan 1 { Channel.reset with values := l })

theorem witness_ChannelsAndMessages_deq : ∀ l ∈ [[], [5, 6]], ∃ (s : State) (d q : Nat), acts s ∧ isHub s.actor.core = false ∧ q ≠ 0 ∧
    s.me.bindU < 4 ∧ d ≠ 28 ∧ d ≠ 29 ∧ (s.here.chan s.me.bindU).reserved = none ∧ (s.here.chan s.me.bindU).values = l :=
  by
  intro l h
  simp only [List.mem_cons, List.not_mem_nil, or_false] at h
  rcases h with rfl | rfl <;> exact ⟨channeled _, 1, 2, by unfold acts; decide, by decide, by decide, by decide, by decide, by decide,
    rfl, rfl⟩

theorem witness_ChannelsAndMessages_chwm : ∃ (s : State) (d a c : Nat), acts s ∧ isHub s.actor.core = false ∧ plainRegs s [d, a] ∧ c < 4 ∧
    chwmOk (s.me.rg a).toNat = true ∧ (s.me.rg a).getLsbD 31 = true :=
  ⟨one (withG [(1, 0x803F3E00)]), 2, 1, 3, by unfold acts; decide, by decide, .inl rfl, by decide, by decide, by decide⟩

theorem witness_ChannelsAndMessages_push : ∃ (s : State) (f : Flight) (u n : Nat) (x : Word) (c : Ctx), s.arriving (s.arg 0) = some f ∧
    f.payload = .push u x ∧ s.ctx? ⟨f.dst, n⟩ = some c :=
  ⟨flying (.push 1 5) 1 0 one, _, 1, 0, 5, _, rfl, rfl, rfl⟩

theorem witness_ChannelsAndMessages_credit : ∃ (s : State) (f : Flight) (v : Nat), s.arriving (s.arg 0) = some f ∧ f.payload = .credit v :=
  ⟨flying (.credit 1) 1 0 one, _, 1, rfl, rfl⟩

/-- Two threads that wait on one another's channels: thread 0 of core 0 for a value from core 1, and the other way round. -/
def stuckPair : State :=
  let c : Ctx := { Ctx.fresh with status := .parked, park := 4 + 2 ^ 8 * 1, timeoutAt := some 0, bindU := 1, bindV := 1 }
  let d : Ctx := { c with park := 4 + 2 ^ 8 * 3, bindU := 3, bindV := 3 }
  { beside 1 { Core.reset with threads := [(0, d)] } (on 0 fun _ => c) with args := [0, 0] }

theorem stuck_cycle : (waitsFor stuckPair ⟨0, 0⟩).contains ⟨0, 0⟩ = true := by
  have h : ∀ n, reachable stuckPair (n + 2) [⟨1, 0⟩] = [⟨1, 0⟩, ⟨0, 0⟩] := fun n => by
    rw [reachable]
    have : (([⟨1, 0⟩].flatMap (waitEdges stuckPair)).filter fun a => isStuck stuckPair a && !([(⟨1, 0⟩ : Actor)].contains a)).eraseDups =
      [⟨0, 0⟩] := by decide
    rw [this]
    rw [reachable]
    have : ((([Actor.mk 1 0] ++ [Actor.mk 0 0]).flatMap (waitEdges stuckPair)).filter fun a =>
      isStuck stuckPair a && !(([Actor.mk 1 0] ++ [Actor.mk 0 0]).contains a)).eraseDups = [] := by decide
    simp only [this]
    rfl
  unfold waitsFor
  have : ((waitEdges stuckPair ⟨0, 0⟩).filter (isStuck stuckPair)).eraseDups = [⟨1, 0⟩] := by decide
  rw [this, h 4094]
  rfl

theorem witness_ChannelsAndMessages_deadlock : ∃ (s : State) (a : Actor), s.args = [a.core, a.thread] ∧ isStuck s a = true ∧
    (waitsFor s a).contains a = true ∧ (s.ctx? a).isSome = true ∧ (s.ctx a).pend.length < 4 :=
  ⟨stuckPair, ⟨0, 0⟩, rfl, by decide, stuck_cycle, by decide, by decide⟩

theorem witness_ChannelsAndMessages_running : ∃ (s : State) (a : Actor), s.args = [a.core, a.thread] ∧ isStuck s a = false :=
  ⟨{ one with args := [0, 0] }, ⟨0, 0⟩, rfl, by decide⟩

theorem witness_ChannelsAndMessages_send : ∃ (s : State) (a b q k : Nat), acts s ∧ plainRegs s [a, b, b + 1] ∧ q ≠ 0 ∧ b % 2 = 0 ∧
    (s.me.rg a).toNat < 2 ^ 33 ∧ bits (s.me.rg a).toNat 0 6 = 0 ∧
    (bits (s.me.rg a).toNat 32 1 = 1 → bits (s.me.rg a).toNat 16 2 = 0) ∧ nameDevice (s.me.rg a).toNat = s.plat.devid ∧
    nameCore (s.me.rg a).toNat = some k ∧ s.mayName s.actor.core k = true :=
  ⟨one (withG [(1, 0x3FFC0)]), 1, 2, 3, 4095, by unfold acts; decide, .inl rfl, by decide, by decide, by decide, by decide, by decide,
    by decide, by decide, by decide⟩

/-- A message has arrived at core 0, whose inbox holds `n` and whose thread 0 is parked for one. -/
def messaged (n : Nat) : State :=
  flying (.message ⟨1, 0⟩ 3 5 6 0x40) 1 0 (on 0 (fun c => { c with status := .parked, park := 3 }) fun core =>
    { core with inbox := List.replicate n ⟨1, 2, 3⟩ })

theorem witness_ChannelsAndMessages_arrival : ∀ n ∈ [0, 63, 64], ∃ (s : State) (f : Flight) (a : Actor) (q : Nat) (m0 m1 sender : Word),
    s.arriving (s.arg 0) = some f ∧ f.payload = .message a q m0 m1 sender ∧ switchedOut (s.landed f.id) f.dst = none ∧
    (s.core f.dst).inbox.length = n ∧ ∃ n c, s.ctx? ⟨f.dst, n⟩ = some c ∧ c.parkReason = 3 ∧ c.isLimited = false ∧
      c.throttled = false :=
  fun n h => ⟨messaged n, _, ⟨1, 0⟩, 3, 5, 6, 0x40, rfl, rfl, by revert n; decide, by revert n; decide, 0, _, rfl, by decide, by decide, by decide⟩

theorem witness_ChannelsAndMessages_reply : ∃ (s : State) (f : Flight) (a : Actor) (q ans : Nat) (name : Word) (c : Ctx),
    s.arriving (s.arg 0) = some f ∧ f.payload = .messageReply a q ans name ∧ ans < 2 ∧ s.ctx? a = some c ∧ c.status = .parked ∧
    q ≠ 0 :=
  ⟨flying (.messageReply ⟨0, 0⟩ 3 1 0) 1 0 (one fun c => { c with status := .parked }), _, ⟨0, 0⟩, 3, 1, 0, _, rfl, rfl, by decide, rfl,
    rfl, by decide⟩

theorem witness_ChannelsAndMessages_recv : ∀ l ∈ [[], [(⟨1, 2, 3⟩ : Message)]], ∃ (s : State) (d b q : Nat), acts s ∧ plainRegs s [d, d + 1, b] ∧
    q ≠ 0 ∧ d % 2 = 0 ∧ s.here.inbox = l ∧ b ≠ 0 ∧ d ≠ 0 ∧ d ≠ b ∧ d + 1 ≠ b :=
  fun l _ => ⟨on 0 id fun core => { core with inbox := l }, 2, 4, 3, by unfold acts on; exact ⟨rfl, rfl, rfl, rfl⟩, .inl rfl, by decide,
    by decide, rfl, by decide, by decide, by decide, by decide⟩

/-- A stage on channel 1 with no output: capacity `cap`, an idle limit of 1 microsecond, its image at 64, its spill area at 4096. -/
def stage1 (cap : Nat := 2) : Stage where
  desc := [0x100, 0x200, 0x2800000000001000, BitVec.ofNat 64 (cap + 256 + 64 * 2 ^ 32)]
  input := 1
  output := 4
  codeId := 7
  prio := 3
  ceil := 3
  slots := []
  spills := []
  spilling := []
  ending := false

/-- Core 0 with that stage and these values in its input channel. -/
def staged (st : Stage) (l : List Word) (f : Ctx → Ctx := id) (g : Core → Core := id) : State :=
  { on 0 f (fun core => g { core.setChan 1 { Channel.reset with values := l } with stage := some st }) with args := [0] }

/-- A context that is the role of key 9, suspended. -/
def role9 (c : Ctx) : Ctx := { c with role := some 9, suspended := true }

/-- Addresses below 2 MiB of partition 0 are mapped by `tr0`, where it is cached. -/
theorem mapped_tr0 (s : State) (g need va n : Nat) (hc : (s.cluster g).tlb = [tr0]) (hp : permits tr0 need = true)
    (hd : s.plat.devid = 0) (hb : s.dramBad = []) (hr : s.hub.deeds = []) (hs : s.plat.stackState = []) (hn : va + n ≤ 2 ^ 21) :
    mappedIn s g 0 tr0 need va n := by
  have hv : ∀ i < n, (va + i) / 2097152 = 0 ∧ (va + i) % 2097152 = va + i := fun i hi => by omega
  refine ⟨fun i hi => ?_, hp, hd.symm, fun i hi => ⟨?_, ?_, ?_, ?_⟩⟩
  · simp [State.cached, hc, TlbEntry.covers, tr0, hv i hi]
  · have := (hv i hi).2
    simp [inHub, TlbEntry.physOf, tr0, this]
    omega
  · simp [hb]
  · have h : s.isShut = fun _ => false := funext fun x => by simp [State.isShut, hs, Map.get, Tbl.get?]
    simp [shutUnder, pageShut, h]
  · simp [State.refuses, State.deed, hr, Map.get, Tbl.get?, Deed.reset]
    split <;> simp

/-- The same of core 0. -/
theorem cached0_mapped (s : State) (need va n : Nat) (h : (cached0 s).spaceOf 0 = 0) (hp : permits tr0 need = true)
    (hd : s.plat.devid = 0) (hb : s.dramBad = []) (hr : s.hub.deeds = []) (hs : s.plat.stackState = []) (hn : va + n ≤ 2 ^ 21) :
    mapped (cached0 s) 0 tr0 need va n := by
  unfold mapped
  rw [h]
  exact mapped_tr0 (cached0 s) 0 need va n rfl hp hd hb hr hs hn

theorem getBytes_nil (x n : Nat) : getBytes [] x n = List.replicate n 0 := by
  induction n generalizing x with
  | zero => rfl
  | succ n ih => simp [getBytes, ih, Map.get, Tbl.get?, List.replicate_succ]

theorem natOfBytes_zeros (n : Nat) : natOfBytes (List.replicate n 0) = 0 := by
  induction n with
  | zero => rfl
  | succ n ih => rw [List.replicate_succ, natOfBytes, ih]; rfl

theorem badWord_of (c : Core) (x n : Nat) (h : c.lsBad = []) : c.badWord x n = none := by
  unfold Core.badWord
  rw [List.find?_eq_none.2 (by simp [h])]
  rfl

/-- Physical memory that nothing has written reads as zeros. -/
theorem blank (s : State) (hd : s.dram = []) (n : Nat) (f : Nat → Nat) :
    List.replicate n 0 = (List.range n).map fun i => s.physByte (f i) := by
  have h : ∀ a, s.physByte a = 0 := fun a => by unfold State.physByte; split <;> simp [hd, Map.get, Tbl.get?]
  simp only [h]
  induction n with
  | zero => rfl
  | succ n ih => rw [List.replicate_succ', ih, List.range_succ, List.map_append]; rfl

/-- An image of zeros passes CheckImage. -/
theorem zeros_sound : checkImage (List.replicate 1024 0) 0 = none := by
  have h : ∀ off n, imageNat (List.replicate 1024 0) off n = 0 := fun off n => by
    unfold imageNat
    rw [List.drop_replicate, List.take_replicate, natOfBytes_zeros]
  have hp : badPending (List.replicate 1024 0) = fun _ => false := funext fun off => by
    unfold badPending
    rw [h, h]
    rfl
  unfold checkImage
  simp only [h, hp]
  decide

theorem witness_StagesAndRoles_stagedef : ∃ (s : State) (a b q : Nat), acts s ∧ isHub s.actor.core = false ∧ s.me.gang = none ∧
    s.actor.thread = 0 ∧ q = 4 ∧ a ≤ 4 ∧ b < 4 ∧ s.here.stage = none ∧
    scriptOk (lsLimit s.actor.core) (s.me.re q).toNat (s.me.re (q + 1)).toNat (s.me.re (q + 2)).toNat (s.me.re (q + 3)).toNat = true ∧
    dirFault s b = none ∧ (a = 4 ∨ dirFault s a = none) ∧ ∀ e ∈ s.here.threads, e.2.bindU ≠ b :=
  ⟨one fun c => (((c.we 4 0x100).we 5 0x200).we 6 (0x2800000000001000)).we 7 (0x4000000002), 2, 1, 4, by unfold acts; decide,
    by decide, by decide, rfl, rfl, by decide, by decide, rfl, by decide, by decide, by decide, by decide⟩

theorem witness_StagesAndRoles_ends : ∃ (s : State) (a b q : Nat) (st : Stage), acts s ∧ isHub s.actor.core = false ∧ s.me.gang = none ∧
    s.actor.thread = 0 ∧ q = 0 ∧ a = 4 ∧ b = 4 ∧ s.here.stage = some st :=
  ⟨staged stage1 [], 4, 4, 0, stage1, by unfold acts; decide, by decide, by decide, rfl, rfl, rfl, rfl, rfl⟩

theorem witness_StagesAndRoles_malformed : ∃ (s : State) (k key : Nat) (st : Stage) (r : Record), stageQuiet s k st ∧
    nextRecord ((s.core k).chan st.input) = some r ∧ key = r.header.toNat % 2 ^ 24 ∧ r.header.toNat / 2 ^ 27 % 2 ^ 5 ≠ 0 ∧
    (s.ctx? ⟨k, 0⟩).isSome = true ∧ (s.ctx ⟨k, 0⟩).pend.length < 4 :=
  ⟨staged stage1 [0x8000009], 0, 9, stage1, ⟨0x8000009, []⟩, by unfold stageQuiet; decide, by decide, by decide, by decide, by decide,
    by decide⟩

theorem witness_StagesAndRoles_appended : ∃ (s : State) (k key : Nat) (st : Stage) (r : Record), stageQuiet s k st ∧
    nextRecord ((s.core k).chan st.input) = some r ∧ key = r.header.toNat % 2 ^ 24 ∧ r.header.toNat / 2 ^ 27 % 2 ^ 5 = 0 ∧
    key ≠ 0xFFFFFF ∧ ((s.core k).roleOf key).isSome = true ∧ (st.pending key).length < 4 :=
  ⟨staged stage1 [0x1000009, 77] (fun c => { c with role := some 9 }), 0, 9, stage1, ⟨0x1000009, [77]⟩, by unfold stageQuiet; decide,
    by decide, by decide, by decide, by decide, by decide, by decide⟩

theorem witness_StagesAndRoles_created : ∃ (s : State) (k key n : Nat) (st : Stage) (r : Record) (im : List Byte), stageQuiet s k st ∧
    nextRecord ((s.core k).chan st.input) = some r ∧ key = r.header.toNat % 2 ^ 24 ∧ r.header.toNat / 2 ^ 27 % 2 ^ 5 = 0 ∧
    key ≠ 0xFFFFFF ∧ (s.core k).roleOf key = none ∧ (s.core k).roles.length < st.capacity ∧ (s.core k).freeThread = some n ∧
    im = getBytes (s.core k).ls st.imageAt 1024 ∧ (s.core k).badWord st.imageAt 1024 = none ∧ checkImage im 0 = none :=
  ⟨staged stage1 [0x1FFFFFE, 77], 0, 0xFFFFFE, 1, stage1, ⟨0x1FFFFFE, [77]⟩, List.replicate 1024 0,
    by unfold stageQuiet; decide, by decide, by decide, by decide, by decide, by decide, by decide, by decide, (getBytes_nil _ _).symm,
    badWord_of _ _ _ rfl, zeros_sound⟩

theorem witness_StagesAndRoles_spill : ∃ (s : State) (k n key : Nat) (st : Stage) (p : Spill) (c : Ctx) (tr : TlbEntry), s.args = [k, key] ∧
    (s.core k).stage = some st ∧ st.spilling.find? (fun p => p.key == key) = some p ∧ (s.core k).roleOf key = some (n, c) ∧
    s.ctx? ⟨k, n⟩ = some c ∧ c.suspended = true ∧ mapped s k tr 2 (st.slotAddr p.slot) 1024 :=
  ⟨cached0 { staged { stage1 with spilling := [⟨9, 0, 0, false, 0, 0, none⟩] } [] role9 with args := [0, 9] }, 0, 0, 9, _, ⟨9, 0, 0, false, 0, 0, none⟩,
    role9 Ctx.fresh, tr0, rfl, rfl, rfl, rfl, rfl, rfl, cached0_mapped _ _ _ _ (by decide) rfl rfl rfl rfl rfl (by decide)⟩

theorem witness_StagesAndRoles_fetched : ∃ (s : State) (k n key : Nat) (st : Stage) (p : Spill) (tr : TlbEntry) (im : List Byte),
    s.args = [k, key] ∧ (s.core k).stage = some st ∧ st.spills.find? (fun p => p.key == key && p.fetching) = some p ∧ p.finale = 0 ∧
    st.pending key = [] ∧ (s.core k).freeThread = some n ∧ wingsCount (s.core k) < 48 ∧ mapped s k tr 1 (st.slotAddr p.slot) 1024 ∧
    im = (List.range 1024).map (fun i => s.physByte (tr.physOf (st.slotAddr p.slot + i))) ∧ checkImage im 0 = none :=
  ⟨cached0 { staged { stage1 with spills := [⟨9, 0, 0, true, 0, 0, none⟩] } [] with args := [0, 9] }, 0, 1, 9, _, ⟨9, 0, 0, true, 0, 0, none⟩,
    tr0, List.replicate 1024 0, rfl, rfl, rfl, rfl, rfl, by decide, by decide, cached0_mapped _ _ _ _ (by decide) rfl rfl rfl rfl rfl (by decide),
    blank _ rfl _ _, zeros_sound⟩

theorem witness_StagesAndRoles_idle : ∃ (s : State) (k n key : Nat) (st : Stage) (c : Ctx), s.args = [k, key] ∧ (s.core k).stage = some st ∧
    st.idle ≠ 0 ∧ st.pending key = [] ∧ st.isSpilling key = false ∧ (s.core k).roleOf key = some (n, c) ∧ s.ctx? ⟨k, n⟩ = some c ∧
    c.suspended = true ∧ c.suspendedAt + st.idle ≤ s.time :=
  ⟨{ staged stage1 [] role9 with args := [0, 9], time := 1000 }, 0, 0, 9, stage1, role9 Ctx.fresh, rfl, rfl, by decide, by decide,
    by decide, rfl, rfl, rfl, by decide⟩

theorem witness_StagesAndRoles_role : ∀ f ∈ [false, true], ∀ l ∈ [[], [(9, [(⟨9, []⟩ : Record)])]], ∃ (s : State) (key q : Nat) (st : Stage),
    isRoleOf s key st ∧ q ≠ 0 ∧ s.me.finale = f ∧ st.slots = l ∧ s.here.holds s.actor.thread = false :=
  fun f _ l _ => ⟨staged { stage1 with slots := l } [] (fun c => { c with role := some 9, finale := f }), 9, 3,
    { stage1 with slots := l }, ⟨⟨rfl, rfl, rfl, rfl⟩, rfl, rfl, rfl, rfl⟩, by decide, rfl, rfl, rfl⟩

theorem witness_StagesAndRoles_role_klook : ∃ (s : State) (d a : Nat) (st : Stage), isHub s.actor.core = false ∧ plainRegs s [d, a] ∧
    (s.me.rg a).toNat < 0xFFFFFF ∧ s.here.stage = some st :=
  ⟨staged stage1 [] (withG [(1, 0xFFFFFE)]), 2, 1, stage1, by decide, .inl rfl, by decide, rfl⟩

/-! #### Tasks, queues, launches -/

theorem witness_Tasks_tfoot : ∃ (s : State) (a n q : Nat), plainRegs s [a] ∧ n ≤ 4 ∧ q = 4 ∧ lsReady s (s.me.rg a).toNat 32 ∧
    ∀ j < n, regionBad (s.me.re (q + j)) = false :=
  ⟨one fun c => (withG [(1, 0x3FFE0)] c).we 7 0x8, 1, 4, 4, .inl rfl, by decide, rfl,
    lsReady_of _ _ _ rfl rfl rfl rfl (by decide) (by decide), by decide⟩

theorem regionsFine (l : List Word) (h : l.all (fun r => !regionBad r) = true) : ∀ r ∈ l, regionBad r = false :=
  fun r hr => by simpa using List.all_eq_true.1 h r hr

theorem witness_Tasks_tpost : ∃ (s : State) (d a q : Nat), acts s ∧ plainRegs s [d, a] ∧ s.me.ticket = none ∧ q ≠ 0 ∧
    (s.me.rg a).toNat + 96 ≤ lsLimit s.actor.core ∧ (s.me.rg a).toNat % 64 = 0 ∧
    watchHit s.here (s.me.rg a).toNat 96 true false = false ∧ awaits s.here [run (s.me.rg a).toNat 96] [] = false ∧
    lsSound s s.actor.core (s.me.rg a).toNat 96 ∧ recordOk s (lsWords s.here (s.me.rg a).toNat 8) = true ∧
    ∀ r ∈ lsWords s.here ((s.me.rg a).toNat + 64) 4, regionBad r = false :=
  ⟨one (withG [(1, 0x3FF80)]), 2, 1, 3, by unfold acts; decide, .inl rfl, rfl, by decide, by decide, by decide, by decide, by decide,
    lsSound_of _ _ _ _ rfl rfl, by decide +kernel, regionsFine _ (by decide +kernel)⟩

/-- A task of partition 0 with this timestamp, state and thread. -/
def task5 (ts : Nat) (st : TaskState := .waiting) (actor : Option Actor := none) (puts : List (Nat × Nat) := []) : Task where
  gen := 0
  part := 0
  entry := 0x100
  args := [1, 2, 3, 4]
  ts := ts
  posted := ts
  prio := 0
  early := false
  note := none
  crew := 0
  limit := 3
  user := 0
  regions := []
  edges := []
  state := st
  withEdge := false
  aborts := 0
  poster := none
  actor := actor
  readSet := []
  puts := puts

/-- The hub with these tasks. -/
def tasked (l : Tbl Task) (s : State) : State := { s with hub := { s.hub with tasks := l } }

/-- The launch of core 0's threads. -/
def launch0 : CoreLaunch where
  id := 1
  kernel := 1
  threads := 1
  stack := 0
  ceil := 9
  coresident := false
  crewBase := 0
  crews := 0
  tasks := true

/-- A post of a record with timestamp `ts` has arrived at the hub. -/
def posted (ts : Word) : State := flying (.post ⟨0, 0⟩ 1 2 [0x100, 0, 0, 0, 0, ts, 0, 0] [0, 0, 0, 0] 0) 0 4104 one

theorem witness_Tasks_refused : ∃ (s : State) (f : Flight) (a : Actor) (d q part : Nat) (r fp : List Word),
    s.arriving (s.arg 0) = some f ∧ f.payload = .post a d q r fp part ∧ (s.ctx a).isDraining = false ∧ freeRecord s.hub ≠ none ∧
    recordTs r ≤ floorOf s part :=
  ⟨posted 0, _, ⟨0, 0⟩, 1, 2, 0, _, _, rfl, rfl, by decide, by decide, by decide⟩

theorem witness_Tasks_posted : ∃ (s : State) (f : Flight) (a : Actor) (d q part e : Nat) (r fp : List Word),
    s.arriving (s.arg 0) = some f ∧ f.payload = .post a d q r fp part ∧ (s.ctx a).isDraining = false ∧ freeRecord s.hub = some e ∧
    floorOf s part < recordTs r :=
  ⟨posted 1, _, ⟨0, 0⟩, 1, 2, 0, 0, _, _, rfl, rfl, by decide, by decide, by decide⟩

theorem witness_Tasks_tstat : ∃ (s : State) (d a : Nat), acts s ∧ plainRegs s [d, a] ∧ (s.me.rg a).toNat < 2 ^ 32 ∧
    bits (s.me.rg a).toNat 28 4 = 8 :=
  ⟨one (withG [(1, 0x80000005)]), 2, 1, by unfold acts; decide, .inl rfl, by decide, by decide⟩

theorem witness_Tasks_twait : ∀ x ∈ [0, 1], ∃ (s : State) (a b : Nat) (tr : TlbEntry), plainRegs s [a, b] ∧ s.me.wait = none ∧
    (s.me.rg a).toNat < 2 ^ 57 ∧ (s.me.rg a).toNat % 8 = 0 ∧ mapped s s.actor.core tr 1 (s.me.rg a).toNat 8 ∧
    s.me.rg b = BitVec.ofNat 64 x ∧ natOfBytes (bytesAt s tr (s.me.rg a).toNat 8) = 0 :=
  fun x hx => ⟨cached0 (one (withG [(1, 0x1FFFF8), (2, BitVec.ofNat 64 x)])), 1, 2, tr0, .inl rfl, rfl, by revert x; decide,
    by revert x; decide, cached0_mapped _ _ _ _ (by revert x; decide) rfl rfl rfl rfl rfl (by revert x; decide), by revert x; decide,
    by revert x; decide⟩

theorem witness_Tasks_tdone : ∃ (s : State) (k : Nat), acts s ∧ s.me.ticket = some k ∧ s.here.holds s.actor.thread = false :=
  ⟨one fun c => { c with ticket := some 0x80000000 }, _, by unfold acts; decide, rfl, by decide⟩

theorem witness_Tasks_commit : ∃ (s : State) (part e : Nat) (u : Task), s.args = [part] ∧ oldestTask s.hub.tasks part = some e ∧
    Tbl.get? s.hub.tasks e = some u ∧ u.part = part ∧ u.state = .finished ∧ u.note = none ∧ u.puts = [] :=
  ⟨{ tasked [(3, task5 1 .finished)] one with args := [0] }, 0, 3, task5 1 .finished, rfl, by decide, by decide, rfl, rfl, rfl, rfl⟩

/-- The entry of a held put. -/
def heldEntry : Entry := { entry5 (.put 2) .heldPut with held := [(0x1000, [7, 8])] }

theorem witness_Tasks_heldPut : ∃ (s : State) (part e k n va : Nat) (bs : List Byte) (en : Entry) (tr : TlbEntry) (u : Task),
    s.args = [part] ∧ oldestTask s.hub.tasks part = some e ∧ Tbl.get? s.hub.tasks e = some u ∧ u.part = part ∧
    u.state = .finished ∧ u.note = none ∧ u.puts = [(k, en.id)] ∧ hasEntry s k en ∧ en.state = .heldPut ∧ en.held = [(va, bs)] ∧
    en.counter = some n ∧ bs ≠ [] ∧ isServed s (.entry k en.id) = false ∧ mappedIn s (clusterOf k) part tr 2 va bs.length ∧ ∀ x ∈ s.hub.tasks, x.2.readSet = [] :=
  ⟨{ tasked [(3, task5 1 .finished none [(0, 5)])] (cached0 (queued heldEntry)) with args := [0] }, 0, 3, 0, 2, 0x1000, [7, 8],
    heldEntry, tr0, task5 1 .finished none [(0, 5)], rfl, by decide, by decide, rfl, rfl, rfl, rfl, by unfold hasEntry; decide, rfl, rfl,
    rfl, by decide, by decide, mapped_tr0 _ _ _ _ _ rfl rfl rfl rfl rfl rfl (by decide), by decide⟩

theorem witness_Tasks_room : ∃ (s : State) (part e v : Nat) (t0 u : Task), s.args = [part] ∧ oldestTask s.hub.tasks part = some e ∧
    Tbl.get? s.hub.tasks e = some t0 ∧ wantsThread s part e t0 = true ∧ (∀ x ∈ s.hub.tasks, x.2.poster = none) ∧
    latestTask (s.hub.tasks.filter fun x => x.2.part == part && x.1 != e && x.2.actor.isSome) = some v ∧
    Tbl.get? s.hub.tasks v = some u :=
  ⟨{ tasked [(3, task5 1), (4, task5 2 .dispatched (some ⟨0, 0⟩)), (5, task5 3)] (one fun c => { c with ticket := some 0x80000004 })
      with args := [0] }, 0, 3, 4, _, _, rfl, by decide, rfl, by decide, by decide, by decide, rfl⟩

/-- A queue of partition 0 with one packet. -/
def queue5 (busy : Bool := true) (control : Bool := false) : Queue where
  qcb := 0x200800
  qid := 5
  prio := 9
  part := 0
  kernel := 1
  control := control
  msi := false
  ring := 0x1000
  log2n := 4
  timeline := 0x2000
  msiAddr := 0
  msiData := 0
  read := 0
  write := 1
  busy := busy
  tested := 0
  seeds := []
  stalled := false

/-- That queue in slot 3, over this memory. -/
def umpired (q : Queue) (dram : Map Byte) (tr : TlbEntry := tr0) : State :=
  { one with
    args := [3]
    dram := dram
    clusters := [(256, { Cluster.reset with tlb := [tr] })]
    hub := { Hub.reset with queues := [(3, q)] } }

/-- A QCB of partition 0 at 0x200800. -/
def qcbBytes : Map Byte := [(0x200801, 0x10), (0x200808, 4), (0x200809, 9), (0x20080C, 5), (0x200818, 1)]

theorem witness_Queues_qadmit : ∃ (s : State) (m addr slot : Nat) (q : Queue), s.args = [m, addr] ∧
    allCold s ∧ (∀ q ∈ heldQueues s.hub, q.qcb ≠ addr) ∧ readQcb s m addr = some q ∧ (∀ x ∈ heldQueues s.hub, x.qid ≠ q.qid) ∧
    (∀ x ∈ s.hub.halted, x.1 = q.qid → x.2 = addr) ∧ freeQueueSlot s.hub = some slot :=
  ⟨{ one with args := [1, 0x200800], dram := qcbBytes, hub := { Hub.reset with deeds := [(1, { Deed.reset with owner := 1 })] } }, 1,
    0x200800, 0, { queue5 false with timeline := 0, write := 0 }, rfl, cold _ rfl, by decide, by decide, by decide, by decide, by decide⟩

theorem witness_Queues_refused : ∀ addr ∈ [0x200800, 0x200804], ∃ (s : State) (m : Nat), s.args = [m, addr] ∧ allCold s ∧
    (∀ q ∈ heldQueues s.hub, q.qcb ≠ addr) ∧ readQcb s m addr = none ∧ inRanges (frameOf (addr + 14)) = true ∧
    inRanges (frameOf (addr + 15)) = true :=
  fun addr h => ⟨{ one with args := [1, addr], dram := qcbBytes }, 1, rfl, cold _ rfl, fun _ h => (List.not_mem_nil h).elim,
    by revert addr; decide, by revert addr; decide, by revert addr; decide⟩

theorem witness_Queues_doorbell : ∃ (s : State) (slot : Nat) (q : Queue), s.args = [q.qid] ∧
    s.hub.queues.find? (fun x => x.2.qid == q.qid) = some (slot, q) ∧ allCold s :=
  ⟨{ umpired (queue5 false) qcbBytes with args := [5] }, 3, queue5 false, rfl, rfl, cold _ rfl⟩

theorem witness_Queues_select : ∃ (s : State) (slot : Nat) (rest : List Nat) (q : Queue) (tr : TlbEntry) (type : Nat),
    inReset s = false ∧ (s.hub.queues.any fun x => x.2.busy) = false ∧ s.plat.staged = none ∧ s.linkAllowed q.space = true ∧ allCold s ∧
    s.hub.admitList = [] ∧ queueOrder s.hub = slot :: rest ∧ Tbl.get? s.hub.queues slot = some q ∧
    (q.write + 2 ^ 64 - q.read) % 2 ^ 64 ≤ 2 ^ q.log2n ∧ mappedIn s 256 q.space tr 1 q.packetAt 64 ∧
    type = Machine.field (bytesAt s tr q.packetAt 64) 0 1 ∧ 1 ≤ type ∧ type ≤ 4 ∧ Machine.field (bytesAt s tr q.packetAt 64) 0 8 < 2 ^ 8 ∧
    isReady s q type = true :=
  ⟨umpired (queue5 false) [(0x201000, 2)], 3, [], queue5 false, tr0, 2, by decide, by decide, rfl, by decide, cold _ rfl, rfl, by decide, rfl, by decide,
    mapped_tr0 _ _ _ _ _ rfl rfl rfl rfl rfl rfl (by decide), by decide, by decide, by decide, by decide, by decide⟩

/-- The packet of the queue. -/
theorem chosen (dram : Map Byte) : packetChosen (umpired queue5 dram) 3 queue5 (bytesAt (umpired queue5 dram) tr0 0x1000 64) tr0 :=
  ⟨rfl, rfl, rfl, by decide, cold _ rfl, mapped_tr0 _ _ _ _ _ rfl rfl rfl rfl rfl rfl (by decide), rfl⟩

theorem witness_Queues_wait : ∀ x ∈ [0, 1], ∃ (s : State) (slot : Nat) (q : Queue) (b : List Byte) (tr tw : TlbEntry),
    packetChosen s slot q b tr ∧ Machine.field b 0 1 = 2 ∧ (∀ x ∈ b.drop 24, x = 0) ∧ Machine.field b 8 8 % 8 = 0 ∧ Machine.field b 8 8 < 2 ^ 57 ∧
    mappedIn s 256 q.space tw 1 (Machine.field b 8 8) 8 ∧ natOfBytes (bytesAt s tw (Machine.field b 8 8) 8) = 0 ∧ Machine.field b 16 8 = x :=
  fun x hx => ⟨_, 3, queue5, _, tr0, tr0, chosen [(0x201000, 2), (0x201009, 0x30), (0x201010, BitVec.ofNat 8 x)], by revert x; decide,
    by revert x; decide, by revert x; decide, by revert x; decide,
    mapped_tr0 _ _ _ _ _ rfl rfl rfl rfl rfl rfl (by revert x; decide), by revert x; decide, by revert x; decide⟩

theorem witness_Queues_signal : ∃ (s : State) (slot : Nat) (q : Queue) (b : List Byte) (tr tw : TlbEntry),
    let first := tw.physOf q.timeline.toNat
    let diff := BitVec.ofNat 64 (Machine.field b 8 8) - BitVec.ofNat 64 (natOfBytes (bytesAt s tw q.timeline.toNat 8))
    packetChosen s slot q b tr ∧ Machine.field b 0 1 = 3 ∧ isReady s q 3 = true ∧ (∀ x ∈ b.drop 16, x = 0) ∧
      mappedIn s 256 q.space tw 3 q.timeline.toNat 8 ∧ diff ≠ 0 ∧ diff.msb = false ∧ apart first q :=
  ⟨_, 3, queue5, _, tr0, tr0, chosen [(0x201000, 3), (0x201008, 5)], by decide, by decide, by decide,
    mapped_tr0 _ _ _ _ _ rfl rfl rfl rfl rfl rfl (by decide), by decide, by decide, by unfold apart; decide⟩

theorem witness_Queues_seed : ∃ (s : State) (slot e : Nat) (q : Queue) (b bs : List Byte) (tr tw : TlbEntry), packetChosen s slot q b tr ∧
    Machine.field b 0 1 = 4 ∧ q.seeds = [] ∧ (∀ x ∈ b.drop 20, x = 0) ∧ Machine.field b 16 4 = 1 ∧ Machine.field b 8 8 % 64 = 0 ∧
    Machine.field b 8 8 + 128 ≤ 2 ^ 57 ∧ mappedIn s 256 q.space tw 1 (Machine.field b 8 8) 128 ∧ bs = bytesAt s tw (Machine.field b 8 8) 128 ∧
    seedsOk s q.space (seedEntries bs 1) = true ∧ freeRecord s.hub = some e :=
  ⟨_, 3, 0, queue5, _, _, tr0, tr0, chosen [(0x201000, 4), (0x201009, 0x30), (0x201010, 1), (0x203001, 1), (0x203028, 1)], by decide, rfl,
    by decide, by decide, by decide, by decide, mapped_tr0 _ _ _ _ _ rfl rfl rfl rfl rfl rfl (by decide), rfl, by decide, by decide⟩

/-- A translation of control cores of kernel 1. -/
def tr65 : TlbEntry := { tr0 with space := 65 }

theorem witness_Launches_launch : ∃ (s : State) (slot base : Nat) (q : Queue) (b d : List Byte) (tr td : TlbEntry),
    packetChosen s slot q b tr ∧ Machine.field b 0 1 = 1 ∧ isReady s q 1 = true ∧ Machine.field b 20 4 = 0 ∧ Machine.field b 8 8 + 64 ≤ 2 ^ 57 ∧
    mappedIn s 256 q.space td 1 (Machine.field b 8 8) 64 ∧ d = bytesAt s td (Machine.field b 8 8) 64 ∧ descriptorOk d q.control = true ∧
    1 ≤ Machine.field b 16 4 ∧ Machine.field b 16 4 ≤ (queueCores s q).length ∧ (∀ k ∈ queueCores s q, (s.core k).unmapped = false) ∧
    (bits (Machine.field d 6 2) 1 1 = 0 ∨ q.control = true ∨ tokenOpen (s.part q.part) = true) ∧
    freeCrews s.hub (Machine.field d 39 1) = some base :=
  ⟨umpired (queue5 true true) [(0x201000, 1), (0x201009, 0x30), (0x201010, 8), (0x203004, 1), (0x203006, 4), (0x203024, 16)] tr65, 3, 0,
    queue5 true true, _, _, tr65, tr65, by unfold packetChosen mappedIn; exact ⟨rfl, rfl, rfl, by decide, cold _ rfl, by decide, rfl⟩, by decide,
    by decide, by decide, by decide, by unfold mappedIn; decide, rfl, by decide, by decide, by decide, by decide, by decide, by decide⟩

/-- A launch on control cores or, else, on compute cores. -/
def launch5 (control : Bool) (cores : Nat) (loading loaded : List Nat) (done : Word := 0) : Launch where
  queue := 3
  qid := 5
  part := 0
  kernel := 1
  control := control
  entry := 0x100
  codeId := 7
  lsAddr := 0x1000
  lsSize := 8
  lsTotal := 16
  stack := 16
  threads := 2
  prio := 0
  ceil := 9
  crewBase := 0
  crews := 0
  mask := 5
  coresident := true
  gate := false
  tasks := false
  args := [1, 2, 3, 4]
  done := done
  cores := cores
  toSend := []
  loading := loading
  loaded := loaded
  lifted := false
  timeline := 0x2000
  msi := false
  msiAddr := 0
  msiData := 0
  broken := false
  stalled := false

/-- The hub with launch 1. -/
def launching (l : Launch) (f : Ctx → Ctx := id) : State :=
  { one f with args := [1], hub := { Hub.reset with launches := [(1, l)] } }

theorem witness_Spawning_unloaded : ∃ (s : State) (f : Flight) (a : Actor) (d q code prio : Nat) (entry : Word) (args : List Word),
    s.arriving (s.arg 0) = some f ∧ f.payload = .spawn a d q entry args code prio ∧ isUnloaded s f.dst = true :=
  ⟨flying (.spawn ⟨0, 0⟩ 3 1 0x100 [1, 2, 3, 4] 5 9) 0 1 { one with hub := { Hub.reset with launches := [(4, launch5 false 0 [1] [])] } },
    _, ⟨0, 0⟩, 3, 1, 5, 9, 0x100, [1, 2, 3, 4], rfl, rfl, by decide⟩

theorem witness_Launches_placement : ∃ (s : State) (id k : Nat) (l : Launch) (rest : List Nat), s.args = [id] ∧
    Tbl.get? s.hub.launches id = some l ∧ l.cores = 1 ∧ l.toSend = [] ∧ (launchCores s l).filter (isIdle s) = k :: rest ∧
    (s.cluster (clusterOf k)).permits < 8 :=
  ⟨launching (launch5 true 1 [] []), 1, 4096, _, [4097, 4098, 4099, 4100, 4101, 4102, 4103], rfl, rfl, rfl, rfl, by decide, by decide⟩

theorem witness_Launches_command : ∃ (s : State) (id k : Nat) (l : Launch) (tr : TlbEntry), s.args = [id, k] ∧
    Tbl.get? s.hub.launches id = some l ∧ k ∈ l.loading ∧ inReset s = false ∧ (s.core k).retired = false ∧
    (s.core k).stopped = false ∧ l.lsSize ≤ l.lsTotal ∧ mapped s k tr 1 l.lsAddr.toNat l.lsSize :=
  ⟨cached0 { launching (launch5 false 0 [0] []) with args := [1, 0], cores := [] }, 1, 0, _, tr0, rfl, rfl, by decide, by decide,
    by decide, by decide, by decide, cached0_mapped _ _ _ _ (by decide) rfl rfl rfl rfl rfl (by decide)⟩

theorem witness_Launches_lift : ∃ (s : State) (id : Nat) (l : Launch), s.args = [id] ∧ Tbl.get? s.hub.launches id = some l ∧
    l.isGated = true ∧ gateOpen s l = true ∧ 0 ∈ l.loaded ∧ ∃ c, s.ctx? ⟨0, 0⟩ = some c ∧ c.parkReason = 11 :=
  ⟨launching (launch5 false 0 [] [0]) fun c => { c with status := .parked, park := 11 }, 1, _, rfl, rfl, by decide, by decide, by decide,
    _, rfl, by decide⟩

theorem witness_Launches_complete : ∃ (s : State) (id : Nat) (l : Launch), s.args = [id] ∧ Tbl.get? s.hub.launches id = some l ∧
    isComplete s id l = true ∧ l.done = 0 :=
  ⟨launching (launch5 false 0 [] [0]), 1, _, rfl, rfl, by decide, rfl⟩

theorem witness_Launches_timeline : ∃ (s : State) (id : Nat) (l : Launch) (tr : TlbEntry), s.args = [id] ∧
    Tbl.get? s.hub.launches id = some l ∧ isComplete s id l = true ∧
    mappedIn s 256 (if l.control then 64 + l.kernel else l.part) tr 3 l.timeline.toNat 8 ∧ l.done ≠ 0 ∧
    l.stalled = false ∧ (l.done - BitVec.ofNat 64 (natOfBytes (bytesAt s tr l.timeline.toNat 8))).msb = false ∧
    l.done ≠ BitVec.ofNat 64 (natOfBytes (bytesAt s tr l.timeline.toNat 8)) :=
  ⟨{ launching (launch5 false 0 [] [0] 5) with clusters := [(256, { Cluster.reset with tlb := [tr0] })] }, 1, _, tr0, rfl, rfl, by decide,
    mapped_tr0 _ _ _ _ _ rfl rfl rfl rfl rfl rfl (by decide), by decide, by decide, by decide, by decide⟩

theorem witness_Tasks_dispatch : ∃ (s : State) (part e k n : Nat) (u : Task) (core : Core), s.args = [part] ∧
    nextTask s part = some (e, u) ∧ bestTaskCore s part = some (k, core) ∧ s.core k = core ∧ core.freeThread = some n ∧
    u.aborts < u.limit :=
  let s := on 0 id fun core => { core with launch := some launch0 }
  ⟨{ s with args := [0], hub := { s.hub with
      tasks := [(3, task5 1)], launches := [(1, { launch5 false 0 [] [0] with coresident := false, tasks := true })] } }, 0, 3, 0, 1,
    task5 1, _, rfl, by decide, rfl, rfl, by decide, by decide⟩

/-! #### Traps, registers, images -/

/-- A context in this mode. -/
def inMode (m : W32) (c : Ctx) : Ctx := { c with xstat := m }

theorem witness_TrapAndReturn_calls : ∀ m ∈ [0, 1, 3], ∃ (s : State) (a : Nat), s.me.gang = none ∧ plainRegs s [a] ∧ s.me.mode = m :=
  fun m h => ⟨one (inMode (BitVec.ofNat 32 m)), 1, rfl, .inl rfl, by revert m; decide⟩

theorem witness_TrapAndReturn_illegal : ∃ (s : State) (a len w : Nat), s.me.gang = none ∧ plainRegs s [a] ∧ s.args = [len, w] ∧
    decodeWord len w = .error .illegalWord :=
  ⟨{ one with args := [2, 0] }, 1, 2, 0, rfl, .inl rfl, rfl, rfl⟩

theorem witness_TrapAndReturn_reserved : ∃ (s : State) (a len w : Nat), s.me.gang = none ∧ plainRegs s [a] ∧ s.args = [len, w] ∧
    decodeWord len w = .error .reservedField ∧ isHub s.actor.core = false :=
  ⟨{ one with args := [4, 3] }, 1, 4, 3, rfl, .inl rfl, rfl, rfl, by decide⟩

theorem witness_TrapAndReturn_taken : ∃ (s : State) (k n : Nat) (c : Ctx), s.args = [k, n] ∧ s.ctx? ⟨k, n⟩ = some c ∧ c.gang = none ∧
    atBoundary s.now (s.core k) n c = true ∧ (∀ p ∈ c.pend, p.cause ≠ causeCode .async .preempt) ∧
    (c.pend.any fun p => takeable (s.core k) c p.cause) = true :=
  ⟨{ one fun c => { c with pend := [⟨0x121, 5, 9, 0⟩, ⟨0x122, 6, 9, 0⟩] } with args := [0, 0] }, 0, 0, _, rfl, rfl, rfl, by decide, by decide,
    by decide⟩

theorem witness_TrapAndReturn_returns : ∀ x ∈ [0x1FFFFFFFFFFFFFE, 0x200000000000000, 1], ∃ s : State, s.me.xpc.toNat = x :=
  fun x h => ⟨one fun c => { c with xpc := BitVec.ofNat 64 x }, by revert x; decide⟩

theorem witness_RefusedForms_userMode : ∃ (s : State), s.me.mode = 0 := ⟨one, by decide⟩

theorem witness_ControlRegisters_legal : ∃ (s : State) (d a hi lo : Nat) (e : Nat × Word × Nat), plainRegs s [d, a] ∧
    e ∈ controlRegisters s ∧ e.1 = 8 * hi + lo ∧ s.me.mode = 0 ∧ e.1 ≠ 0x20 ∧ e.1 ∉ readOnlyRegisters ∧
    s.me.rg a &&& ~~~(BitVec.ofNat 64 e.2.2) = 0 :=
  ⟨one (withG [(1, 0x1F1F0F)]), 2, 1, 0, 0, _, .inl rfl, .head _, by decide, by decide, by decide, by decide, by decide⟩

theorem witness_ControlRegisters_reserved : ∃ (s : State) (d a hi lo : Nat) (e : Nat × Word × Nat), plainRegs s [d, a] ∧
    e ∈ controlRegisters s ∧ e.1 = 8 * hi + lo ∧ s.me.mode ≠ 0 ∧ s.me.rg a &&& ~~~(BitVec.ofNat 64 e.2.2) ≠ 0 :=
  ⟨one fun c => inMode 1 (withG [(1, 0x10)] c), 2, 1, 0, 0, _, .inl rfl, .head _, by decide, by decide, by decide⟩

theorem witness_ControlRegisters_readOnly : ∃ (s : State) (d a hi lo : Nat) (e : Nat × Word × Nat), plainRegs s [d, a] ∧
    e ∈ controlRegisters s ∧ e.1 = 8 * hi + lo ∧ s.me.mode = 0 ∧ e.1 ∈ readOnlyRegisters :=
  ⟨one, 2, 1, 0, 2, _, .inl rfl, .tail _ (.tail _ (.head _)), by decide, by decide, by decide⟩

theorem witness_ControlRegisters_stat : ∃ (s : State) (d a hi lo : Nat) (e : Nat × Word × Nat), plainRegs s [d, a] ∧
    e ∈ controlRegisters s ∧ e.1 = 8 * hi + lo ∧ e.1 = 0xB ∧ s.me.mode = 3 ∧ s.me.rg a &&& ~~~(BitVec.ofNat 64 e.2.2) = 0 ∧
    (s.me.rg a).toNat / 4 % 4 ≠ 2 ∧ (s.me.rg a).toNat / 4 % 4 ≤ s.me.mode :=
  ⟨one fun c => inMode 3 (withG [(1, 0xC)] c), 2, 1, 1, 3, (0xB, _, 0xFFF), .inl rfl,
    .tail _ (.tail _ (.tail _ (.tail _ (.tail _ (.tail _ (.tail _ (.tail _ (.tail _ (.tail _ (.tail _ (.head _))))))))))), by decide, rfl,
    by decide, by decide, by decide, by decide⟩

theorem witness_ControlRegisters_privileged : ∃ (s : State) (d a hi lo : Nat), plainRegs s [d, a] ∧ s.me.mode = 0 ∧ 8 * hi + lo = 0x20 :=
  ⟨one, 2, 1, 4, 0, .inl rfl, by decide, rfl⟩

theorem witness_ControlRegisters_unlisted : ∃ (s : State) (d a hi lo : Nat), plainRegs s [d, a] ∧
    (controlRegisters s).all (fun e => decide (e.1 ≠ 8 * hi + lo)) = true :=
  ⟨one, 2, 1, 1, 4, .inl rfl, by decide⟩

/-- Thread 0 in S mode names thread 1, which is held. -/
def handling (l : List (Nat × Word)) : State :=
  cached0 (on 0 (fun c => inMode 1 (withG l c)) (also 1 { Ctx.fresh with status := .held 0 0, ctxid := 1 }))

theorem handling_may (need : Nat) (h : permits tr0 need = true) :
    mayHandle (handling [(1, 1), (2, 0x1000)]) 1 2 3 ⟨0, 1⟩ tr0 need := by
  refine ⟨by decide, .inl rfl, by decide, by decide, by decide, by decide, by decide, by decide, by decide, by decide, ?_⟩
  exact cached0_mapped _ _ _ _ (by decide) h rfl rfl rfl rfl (by decide)

theorem witness_ContextImages_save : ∃ (s : State) (a b q : Nat) (x : Actor) (tr : TlbEntry), mayHandle s a b q x tr 2 :=
  ⟨_, 1, 2, 3, ⟨0, 1⟩, tr0, handling_may 2 (by decide)⟩

theorem zerosGet (n i : Nat) : (List.replicate n (0 : Byte)).getD i 0 = 0 := by
  induction n generalizing i with
  | zero => rfl
  | succ n ih => cases i with
    | zero => rfl
    | succ i => exact ih i

theorem witness_ContextImages_load : ∃ (s : State) (a b q : Nat) (x : Actor) (tr : TlbEntry) (im : List Byte), mayHandle s a b q x tr 1 ∧
    im.length = 1024 ∧ (∀ i < 1024, s.physByte (tr.physOf (s.me.rg b).toNat + i) = im.getD i 0) ∧
    checkImage im (s.ctx x).mode = none :=
  ⟨_, 1, 2, 3, ⟨0, 1⟩, tr0, List.replicate 1024 0, handling_may 1 (by decide), List.length_replicate, fun i _ => by
    rw [zerosGet]
    unfold State.physByte
    split <;> rfl, zeros_sound⟩

theorem witness_ContextImages_tlbinv : ∀ kind < 3, ∃ (s : State) (a b part : Nat), s.me.mode ≠ 0 ∧ plainRegs s [a, b] ∧
    (s.me.rg b).toNat = part + 64 * kind ∧ part < 64 ∧ (s.part part).valid = true ∧
    (s.part part).kernel = s.kernelOf s.actor.core :=
  fun kind h => ⟨one fun c => inMode 1 (withG [(2, BitVec.ofNat 64 (64 * kind))] c), 1, 2, 0, by revert kind; decide, .inl rfl,
    by revert kind; decide, by decide, rfl, by revert kind; decide⟩

theorem witness_Debugging_snap :
    (∃ (s : State) (a : Nat), acts s ∧ plainRegs s [a] ∧ s.me.mode = 0 ∧ s.plat.snapctl.getLsbD 11 = false) ∧
    ∃ (s : State) (a : Nat), acts s ∧ plainRegs s [a] ∧ s.me.mode = 0 ∧ s.plat.snapctl.getLsbD 11 = true :=
  ⟨⟨one, 1, by unfold acts; decide, .inl rfl, by decide, by decide⟩,
    ⟨{ one with plat := { Platform.reset with wiping := false, snapctl := 0xC00 } }, 1, by unfold acts; decide, .inl rfl, by decide,
      by decide⟩⟩

theorem witness_Debugging_firing : (∃ (s : State) (tag p : Nat), s.args = [tag, 512, p] ∧ p < 64 ∧ mayFire s) ∧
    ∃ (s : State) (tag p : Nat), s.args = [tag, 512, p] ∧ p < 64 ∧ ¬ mayFire s :=
  ⟨⟨{ one with args := [7, 512, 0] }, 7, 0, rfl, by decide, fun u h => by cases h⟩,
    ⟨{ one with args := [7, 512, 0], plat := { Platform.reset with lastFiring := some 0 } }, 7, 0, rfl, by decide, fun h => absurd (h 0 rfl) (by decide)⟩⟩

theorem witness_Debugging_pin : (∃ s : State, s.plat.snapctl.getLsbD 10 = true ∧ mayFire s) ∧
    ∃ s : State, s.plat.snapctl.getLsbD 10 = false :=
  ⟨⟨{ one with plat := { Platform.reset with snapctl := 0xC00 } }, by decide, fun u h => by cases h⟩, ⟨one, by decide⟩⟩

theorem witness_Debugging_halt : ∀ m ∈ [0, 8], ∃ (s : State) (k v : Nat), s.args = [m, k, v] ∧ mayDebug s m = decide (m = 8) :=
  fun m h => ⟨{ one with args := [m, 0, 1] }, 0, 1, rfl, by revert m; decide⟩

theorem witness_Debugging_watchdog : ∀ n ∈ [2 ^ 24, 2 ^ 24 - 1], ∃ (s : State) (k : Nat) (e : Nat × Ctx) (rest : List (Nat × Ctx)),
    s.args = [k] ∧ waitingThreads s k = e :: rest ∧ (s.core k).nextIssue = 0 ∧ (s.core k).readySince = 0 ∧ s.now = n :=
  fun n h => ⟨{ one with args := [0], now := n }, 0, (0, Ctx.fresh), [], rfl, by revert n; decide, rfl, rfl, rfl⟩

theorem witness_HostAndErrors_single : ∀ x ∈ [0, 1], ∃ (s : State) (k w : Nat), s.args = [k, w, x] ∧ w ∉ (s.core k).lsHealed :=
  fun x _ => ⟨{ one with args := [0, 5, x] }, 0, 5, rfl, List.not_mem_nil⟩

theorem witness_HostAndErrors_retires : ∃ (s : State) (k w : Nat), s.args = [k, w, 1] ∧ w ∈ (s.core k).lsHealed ∧
    (s.core k).retired = false ∧ (∀ e ∈ (s.core k).threads, e.2.gang = none) ∧
    (∃ n c, s.ctx? ⟨k, n⟩ = some c ∧ c.isDraining = false ∧ hasReached s ⟨k, n⟩ c = true) ∧
    (∃ n c, s.ctx? ⟨k, n⟩ = some c ∧ hasReached s ⟨k, n⟩ c = false) ∧ ∃ n c, s.ctx? ⟨k, n⟩ = some c ∧ c.isDraining = true :=
  ⟨{ on 0 id (fun core => also 1 { Ctx.fresh with ctxid := 1, readyAt := 40 }
        (also 2 { Ctx.fresh with ctxid := 2, status := .draining .quit 0 } { core with lsHealed := [5] })) with args := [0, 5, 1] },
    0, 5, rfl, by decide, rfl, by decide, ⟨0, _, rfl, by decide, by decide⟩, ⟨1, _, rfl, by decide⟩, 2, _, rfl, by decide⟩

theorem witness_HostAndErrors_retiresAgain : ∃ (s : State) (k w : Nat), s.args = [k, w] ∧ w ∈ (s.core k).lsSingle ∧
    w ∈ (s.core k).lsHealed ∧ (s.core k).retired = false ∧ ∀ e ∈ (s.core k).threads, e.2.gang = none :=
  ⟨{ on 0 id (fun core => { core with lsSingle := [5], lsHealed := [5] }) with args := [0, 5] }, 0, 5, rfl, by decide, by decide, rfl,
    by decide⟩

theorem witness_HostAndErrors_retiredStore : ∃ (s : State) (k w : Nat), s.args = [k, w] ∧ (s.core k).retired = true ∧
    ∀ e ∈ (s.core k).threads, e.2.gang = none :=
  ⟨{ on 0 id (fun core => { core with retired := true }) with args := [0, 5] }, 0, 5, rfl, by decide, by decide⟩

theorem witness_HostAndErrors_memory : (∃ (s : State) (k w : Nat), s.args = [k, w]) ∧ ∃ (s : State) (a : Nat), s.args = [a] :=
  ⟨⟨{ one with args := [0, 5] }, 0, 5, rfl⟩, ⟨{ one with args := [5] }, 5, rfl⟩⟩

theorem witness_HostAndErrors_host : ∀ w ∈ [0, 1], ∃ (s : State) (m addr n v : Nat), s.args = [m, addr, n, w, v] ∧ hostReaches s addr n ∧
    ∀ i < n, (addr + i) / 8 ∉ s.dramBad :=
  fun w h => ⟨{ one with args := [0, 0x1FFFFC, 8, w, 5] }, 0, 0x1FFFFC, 8, 5, rfl, ⟨by decide, by decide, by decide, by unfold isCold; revert w; decide⟩,
    fun i _ => List.not_mem_nil⟩

theorem witness_HostAndErrors_refused : ∀ w ∈ [0, 1], ∃ (s : State) (m addr n v : Nat), s.args = [m, addr, n, w, v] ∧ inHub addr = false ∧
    0 < n ∧ (s.deedCheck 0 (frameOf addr)).isSome = true :=
  fun w h => ⟨{ one with args := [0, 0xEFFFFFFFFFF8, 8, w, 5] }, 0, 0xEFFFFFFFFFF8, 8, 5, rfl, by decide, by decide, rfl⟩

theorem witness_HostAndErrors_window : ∀ w ∈ [0, 1], ∃ (s : State) (addr n v k off : Nat), s.args = [addr, n, w, v] ∧
    storeAt addr = some (k, off) ∧ n ∈ [4, 8] ∧ off % n = 0 ∧ off + n ≤ lsLimit k ∧ lsSound s k off n :=
  fun w h => ⟨{ one with args := [0xF2000003FFF8, 8, w, 5] }, 0xF2000003FFF8, 8, 5, 0, 0x3FFF8, rfl, by decide, by decide, by decide,
    by decide, lsSound_of _ _ _ _ rfl rfl⟩

theorem witness_HostAndErrors_shut : ∀ w ∈ [0, 1], ∃ (s : State) (m addr n v : Nat), s.args = [m, addr, n, w, v] ∧ inHub addr = false ∧
    0 < n ∧ ¬ isCold s addr :=
  fun w h => ⟨{ one with args := [0, 0x1000, 8, w, 5], plat := { Platform.reset with stackState := [(1, 4)] } }, 0, 0x1000, 8, 5, rfl,
    by decide, by decide, by unfold isCold; revert w; decide⟩

/-- A direct read of the last 8 bytes of frame 0 by device 3, domain tag 9, which the last entry of stack 7's table allows. -/
def directed (stack : Nat) (written : Bool := true) : State :=
  { one with
    args := [stack, 3, 9, 0x1FFFF8, 8]
    plat := { Platform.reset with wiping := false, devidWritten := written, access := [(4094, 0x90007), (4095, 0x15000000000000)] } }

theorem directed_may : mayReadDirect (directed 7) 7 3 9 0x1FFFF8 8 := by
  have h : ∀ i < 8, (frameOf (0x1FFFF8 + i) = 0 ∧ (0x1FFFF8 + i) / 4096 % 12 = 7) := by decide
  refine ⟨by decide, by decide, fun a h1 h2 => ?_⟩
  obtain ⟨i, rfl⟩ := Nat.exists_eq_add_of_le h1
  obtain ⟨hf, hs⟩ := h i (by omega)
  refine ⟨⟨by rw [hf]; decide, .inl hs⟩, ?_, 255, by decide, ?_⟩
  · rw [hf]
    decide
  · rw [hf]
    exact ⟨by decide, .inr (by decide), by decide, by decide, by decide, by decide, by decide⟩

theorem witness_HostAndErrors_direct :
    (∃ (s : State) (stack dev tag addr len : Nat), s.args = [stack, dev, tag, addr, len] ∧ 0 < len ∧ s.plat.devidWritten = true ∧
      mayReadDirect s stack dev tag addr len ∧ ∀ i < len, (addr + i) / 8 ∉ s.dramBad) ∧
    (∃ (s : State) (stack dev tag addr len : Nat), s.args = [stack, dev, tag, addr, len] ∧ 0 < len ∧ s.plat.devidWritten = true ∧
      ¬ mayReadDirect s stack dev tag addr len) ∧
    ∃ (s : State) (stack dev tag addr len : Nat), s.args = [stack, dev, tag, addr, len] ∧ 0 < len ∧ s.plat.devidWritten = false :=
  ⟨⟨directed 7, 7, 3, 9, 0x1FFFF8, 8, rfl, by decide, rfl, directed_may, fun i _ => List.not_mem_nil⟩,
    ⟨directed 8, 8, 3, 9, 0x1FFFF8, 8, rfl, by decide, rfl, fun h =>
      absurd (h.2.2 0x1FFFF8 (by decide) (by decide)).1 (by unfold onStack; decide)⟩,
    ⟨directed 7 false, 7, 3, 9, 0x1FFFF8, 8, rfl, by decide, rfl⟩⟩

theorem witness_HostAndErrors_registers : ∃ (s : State) (m k p n x : Nat), isControlMaster m = true ∧ s.controlKernel (m - 8) = k ∧ 1 ≤ k ∧
    k < 16 ∧ p < 64 ∧ (s.part p).valid = true ∧ (s.part p).kernel = k ∧ 1 ≤ n ∧ n < 16 ∧ x < 2 ^ 64 ∧
    ∃ r ∈ plainRegisters k p n x, s.args = [m, r.1, 8, x] :=
  ⟨{ one with args := [8, 0xF00000400000, 8, 0xFFFFFFFFFFFFFFFF] }, 8, 1, 0, 1, 0xFFFFFFFFFFFFFFFF, by decide, rfl, by decide, by decide,
    by decide, rfl, rfl, by decide, by decide, by decide, _, .head _, rfl⟩

theorem witness_HostAndErrors_debug : ∃ (s : State) (m die n x : Nat), mayDebug s m = true ∧ die < 4 ∧ n < 1024 ∧
    ∃ r ∈ debugRegisters, s.args = [m, 0xF30000000000 + 2 ^ 26 * die + 2 ^ 16 * n + r.1, 8, x] :=
  ⟨{ one with args := [8, 0xF30000000020, 8, 5] }, 8, 0, 0, 5, by decide, by decide, by decide, _, .head _, rfl⟩

theorem witness_HostAndErrors_starts : ∃ (s : State) (m x : Nat), isControlMaster m = true ∧
    ∃ r ∈ startingWrites m x, s.args = [m, r.1, 8, x] :=
  ⟨{ one with args := [8, 0xF00000200000, 8, 5] }, 8, 5, by decide, _, .head _, rfl⟩

theorem witness_HostAndErrors_narrow : ∃ (s : State) (m k p n x size : Nat), size ≠ 8 ∧ n < 16 ∧ p < 64 ∧ k < 16 ∧
    ∃ r ∈ plainRegisters k p n x, s.args = [m, r.1, size, x] :=
  ⟨{ one with args := [8, 0xF00000400000, 4, 5] }, 8, 1, 0, 1, 5, 4, by decide, by decide, by decide, by decide, _, .head _, rfl⟩

/-! #### Deeds, partitions, heats -/

/-- Thread 0 of core 0 in S mode, of kernel 1, with frame 1 and this operand in g1 and g2; the frame has this entry. -/
def deeded (e : Deed) (x : Word) : State :=
  let s := one fun c => inMode 1 (withG [(1, 0x200000), (2, x)] c)
  { s with hub := { s.hub with deeds := [(1, e)] } }

/-- An entry by its owner, state and other kernel. -/
def deedOf (owner : Nat) (st : DeedState) (other : Nat := 0) : Deed := { Deed.reset with owner := owner, state := st, other := other }

theorem deeded_may (e : Deed) (x : Word) (h : e.transit = false) (hm : (deeded e x).me.mode ≠ 0) (hk : (deeded e x).actor.core ≠ umpireKey)
    (ha : ((deeded e x).me.rg 1).toNat = 1 * 2 ^ 21) (l : List Nat) : mayDeed (deeded e x) l 1 1 :=
  ⟨hm, .inl rfl, hk, ha, by decide, by decide, h⟩

theorem witness_Deeds_effects :
    (∃ (s : State) (d a b q f : Nat), mayDeed s [d, a, b] a f ∧ q ≠ 0 ∧
      ∃ x ∈ deedEffects s (s.kernelOf s.actor.core) (s.me.rg b) (s.deed f), x.1 = 0 ∧ x.2.1) ∧
    (∃ (s : State) (d a b q f : Nat), mayDeed s [d, a, b] a f ∧ q ≠ 0 ∧
      ∃ x ∈ deedEffects s (s.kernelOf s.actor.core) (s.me.rg b) (s.deed f), x.1 = 2 ∧ x.2.1) ∧
    (∃ (s : State) (d a b q f : Nat), mayDeed s [d, a, b] a f ∧ q ≠ 0 ∧
      ∃ x ∈ deedEffects s (s.kernelOf s.actor.core) (s.me.rg b) (s.deed f), x.1 = 3 ∧ x.2.1) ∧
    ∃ (s : State) (d a b q f : Nat), mayDeed s [d, a, b] a f ∧ q ≠ 0 ∧
      ∃ x ∈ deedEffects s (s.kernelOf s.actor.core) (s.me.rg b) (s.deed f), x.1 = 4 ∧ x.2.1 :=
  ⟨⟨deeded (deedOf 1 .owned) 18, 3, 1, 2, 4, 1, deeded_may _ _ rfl (by decide) (by decide) (by decide) _, by decide, _, .head _, rfl, by decide, by decide, by decide,
      by decide⟩,
    ⟨deeded (deedOf 2 .offered 1) 0, 3, 1, 2, 4, 1, deeded_may _ _ rfl (by decide) (by decide) (by decide) _, by decide, _, .tail _ (.head _), rfl, by decide, by decide⟩,
    ⟨deeded (deedOf 1 .owned) 0xF4240012, 3, 1, 2, 4, 1, deeded_may _ _ rfl (by decide) (by decide) (by decide) _, by decide, _, .tail _ (.tail _ (.head _)), rfl, by decide,
      by decide, by decide, by decide, by decide, by decide, by decide, by decide⟩,
    ⟨deeded (deedOf 1 .lent 2) 0, 3, 1, 2, 4, 1, deeded_may _ _ rfl (by decide) (by decide) (by decide) _, by decide, _, .tail _ (.tail _ (.tail _ (.head _))), rfl,
      by decide, by decide⟩⟩

theorem witness_Deeds_failures : ∃ (s : State) (d a b q f : Nat), mayDeed s [d, a, b] a f ∧ q ≠ 0 ∧
    ∃ x ∈ deedFailures (s.kernelOf s.actor.core) (s.me.rg b) s (s.deed f), x.1 = 0 ∧ x.2.1 :=
  ⟨deeded (deedOf 2 .owned) 18, 3, 1, 2, 4, 1, deeded_may _ _ rfl (by decide) (by decide) (by decide) _, by decide, _, .head _, rfl, ⟨by decide, by decide⟩, by decide⟩

theorem witness_Deeds_transits :
    (∃ (s : State) (d a b q f : Nat), mayDeed s [d, a, b] a f ∧ q ≠ 0 ∧ (s.deed f).state = .offered ∧
      (s.deed f).other = s.kernelOf s.actor.core) ∧
    (∃ (s : State) (d a b q f : Nat), mayDeed s [d, a, b] a f ∧ q ≠ 0 ∧ (s.deed f).owner ≠ s.kernelOf s.actor.core ∧
      (s.deed f).other = s.kernelOf s.actor.core ∧ ((s.deed f).state = .lent ∨ (s.deed f).state = .recalling ∧ s.time < (s.deed f).due)) ∧
    ∃ (s : State) (d a b q f : Nat), mayDeed s [d, a, b] a f ∧ q ≠ 0 ∧ (s.deed f).owner = s.kernelOf s.actor.core ∧
      (s.deed f).state = .owned :=
  ⟨⟨deeded (deedOf 2 .offered 1) 0, 3, 1, 2, 4, 1, deeded_may _ _ rfl (by decide) (by decide) (by decide) _, by decide, rfl, by decide⟩,
    ⟨deeded { deedOf 2 .recalling 1 with due := 1 } 0, 3, 1, 2, 4, 1, deeded_may _ _ rfl (by decide) (by decide) (by decide) _, by decide, by decide, by decide, by decide⟩,
    ⟨deeded (deedOf 1 .owned) 0, 3, 1, 2, 4, 1, deeded_may _ _ rfl (by decide) (by decide) (by decide) _, by decide, by decide, rfl⟩⟩

theorem witness_Deeds_dquery : ∃ (s : State) (d a f : Nat), s.me.mode ≠ 0 ∧ plainRegs s [d, a] ∧ s.actor.core ≠ umpireKey ∧
    (s.me.rg a).toNat = f * 2 ^ 21 ∧ f < 2 ^ 27 :=
  ⟨deeded (deedOf 1 .owned) 0, 3, 1, 1, by decide, .inl rfl, by decide, by decide, by decide⟩

/-- A command in slot 2 of the host deed port on frame 1, which has this entry. -/
def ported (e : Deed) (x : Word) (frame : Word := 0x200000) : State :=
  { one with args := [2, frame.toNat, x.toNat], hub := { Hub.reset with deeds := [(1, e)], port := [(2, ⟨frame, x, 0⟩)] } }

theorem ported_may (e : Deed) (x : Word) (h : e.transit = false) : mayPort (ported e x) 2 1 x :=
  ⟨rfl, by decide, by decide, h⟩

theorem witness_DeedPortAndTransits_port :
    (∃ (s : State) (slot f : Nat) (arg : Word), mayPort s slot f arg ∧ ∃ x ∈ deedEffects s 0 arg (s.deed f), x.1 = 0 ∧ x.2.1) ∧
    (∃ (s : State) (slot f : Nat) (arg : Word), mayPort s slot f arg ∧ ∃ x ∈ deedFailures 0 arg s (s.deed f), x.1 = 0 ∧ x.2.1) ∧
    (∃ (s : State) (slot f : Nat) (arg : Word), mayPort s slot f arg ∧ (s.deed f).state = .offered ∧ (s.deed f).other = 0) ∧
    (∃ (s : State) (slot f : Nat) (arg : Word), mayPort s slot f arg ∧ (s.deed f).owner ≠ 0 ∧ (s.deed f).other = 0 ∧
      ((s.deed f).state = .lent ∨ (s.deed f).state = .recalling ∧ s.time < (s.deed f).due)) ∧
    ∃ (s : State) (slot f : Nat) (arg : Word), mayPort s slot f arg ∧ (s.deed f).owner = 0 ∧ (s.deed f).state = .owned :=
  ⟨⟨ported (deedOf 0 .owned) 18, 2, 1, 18, ported_may _ _ rfl, _, .head _, rfl, by decide, by decide, by decide, by decide⟩,
    ⟨ported (deedOf 2 .owned) 18, 2, 1, 18, ported_may _ _ rfl, _, .head _, rfl, ⟨by decide, by decide⟩, by decide⟩,
    ⟨ported (deedOf 2 .offered) 0, 2, 1, 0, ported_may _ _ rfl, rfl, rfl⟩,
    ⟨ported (deedOf 2 .lent) 0, 2, 1, 0, ported_may _ _ rfl, by decide, rfl, by decide⟩,
    ⟨ported (deedOf 0 .owned) 0, 2, 1, 0, ported_may _ _ rfl, rfl, rfl⟩⟩

theorem witness_DeedPortAndTransits_unaligned : ∃ (s : State) (slot frame arg : Nat), s.args = [slot, frame, arg] ∧ frame < 2 ^ 64 ∧
    frame % 2 ^ 21 ≠ 0 :=
  ⟨ported (deedOf 0 .owned) 0 8, 2, 8, 0, rfl, by decide, by decide⟩

theorem witness_DeedPortAndTransits_write : ∀ busy ∈ [true, false], ∀ op < 8, ∃ (s : State) (slot v : Nat) (p : PortSlot), slot < 64 ∧
    Tbl.get? s.hub.port slot = some p ∧ s.args = [0, 0xF00000500000 + 32 * slot + 16, 8, v] ∧ p.result.getLsbD 63 = busy ∧
    v % 8 = op :=
  fun busy hb op ho => ⟨{ one with
      args := [0, 0xF000005007F0, 8, op]
      hub := { Hub.reset with port := [(63, ⟨0, 0, if busy then 0x8000000000000000 else 0⟩)] } }, 63, op, _, by decide, rfl, rfl,
    by revert busy; decide, Nat.mod_eq_of_lt ho⟩

/-- Frame 1 in a transit. -/
def inTransit (op : Nat) (e : Deed) : State :=
  { one with args := [1], hub := { Hub.reset with
      deeds := [(1, { e with transit := true })], transits := [(1, ⟨op, .thread 0 0 3 4⟩)] } }

theorem witness_DeedPortAndTransits_ends : ∀ op ∈ [1, 5, 7], ∃ (s : State) (f : Nat) (u : Transit), s.args = [f] ∧
    Tbl.get? s.hub.transits f = some u ∧ s.plat.wiping = false ∧ u.op = op ∧ (s.deed f).owner ≠ (s.deed f).other :=
  fun op _ => ⟨inTransit op (deedOf 1 .offered 2), 1, _, rfl, rfl, rfl, rfl, by decide +revert⟩

theorem witness_DeedPortAndTransits_recall : ∀ t ∈ [1000, 999], ∃ (s : State) (f : Nat), s.args = [f] ∧ (s.deed f).state = .recalling ∧
    (s.deed f).transit = false ∧ (s.deed f).due = 1000 ∧ s.time = t :=
  fun t _ => ⟨{ deeded { deedOf 1 .recalling 2 with due := 1000 } 0 with args := [1], time := t }, 1, rfl, rfl, rfl, rfl, rfl⟩

theorem witness_DeedPortAndTransits_cleared : ∃ (s : State) (f : Nat), s.args = [f] ∧ (s.deed f).state = .zeroOnRead ∧ s.plat.wiping = false ∧
    clearsShut s f = false :=
  ⟨{ deeded (deedOf 1 .zeroOnRead) 0 with args := [1] }, 1, rfl, rfl, rfl, by decide⟩

theorem witness_DeedPortAndTransits_notCleared : ∃ (s : State) (f : Nat), s.args = [f] ∧ (s.deed f).state = .zeroOnRead ∧
    s.plat.wiping = false ∧ clearsShut s f = true :=
  ⟨{ deeded (deedOf 1 .zeroOnRead) 0 with args := [1], plat := { (deeded (deedOf 1 .zeroOnRead) 0).plat with stackState := [(8, 4)] } }, 1,
    rfl, rfl, rfl, by
      unfold clearsShut
      exact Bool.and_eq_true_iff.mpr ⟨by decide, List.any_eq_true.mpr ⟨0, List.mem_range.mpr (by decide), by decide⟩⟩⟩

/-- Thread 0 of control core 0 in S mode, with these registers. -/
def supervisor (l : List (Nat × Word)) (g : Core → Core := id) : State := on 4096 (fun c => inMode 1 (withG l c)) g

theorem supervisor_may (l : List (Nat × Word)) (g : Core → Core) (fields : List Nat) (hm : (supervisor l g).me.mode ≠ 0)
    (hb : (supervisor l g).me.bound = false) : supervises (supervisor l g) fields :=
  ⟨hm, .inl hb, rfl, show 4096 ≠ umpireKey by decide⟩

/-- The package's partitions replaced. -/
def parted (l : Tbl Part) (s : State) : State := { s with hub := { s.hub with parts := l } }

/-- A partition of kernel 1 with this node. -/
def partAt (node : Nat) (tenant : Nat := 0) : Part := { Part.package with node := node, tenant := tenant }

theorem witness_PartitionsAndCurtain_split :
    (∃ (s : State) (d a b q p : Nat), supervises s [d, a, b] ∧ q ≠ 0 ∧ (s.me.rg a).toNat = p ∧ ownsPart s p ∧ 1 ≤ (s.me.rg b).toNat ∧
      (s.me.rg b).toNat < 16 ∧ 256 ≤ (s.part p).node) ∧
    (∃ (s : State) (d a b q p : Nat), supervises s [d, a, b] ∧ q ≠ 0 ∧ (s.me.rg a).toNat = p ∧ ownsPart s p ∧ 1 ≤ (s.me.rg b).toNat ∧
      (s.me.rg b).toNat < 16 ∧ (s.part p).node < 256 ∧ ¬ idlePart s p) ∧
    (∃ (s : State) (d a b q p : Nat), supervises s [d, a, b] ∧ q ≠ 0 ∧ (s.me.rg a).toNat = p ∧ ownsPart s p ∧ 1 ≤ (s.me.rg b).toNat ∧
      (s.me.rg b).toNat < 16 ∧ (s.part p).node < 256 ∧ idlePart s p ∧ ∀ j < 64, (s.part j).valid = true) ∧
    ∃ (s : State) (d a b q p i : Nat), supervises s [d, a, b] ∧ q ≠ 0 ∧ (s.me.rg a).toNat = p ∧ ownsPart s p ∧ 1 ≤ (s.me.rg b).toNat ∧
      (s.me.rg b).toNat < 16 ∧ (s.part p).node < 256 ∧ idlePart s p ∧ i < 64 ∧ (s.part i).valid = false ∧
      ∀ j < i, (s.part j).valid = true :=
  ⟨⟨parted [(0, partAt 511)] (supervisor [(2, 15)]), 3, 1, 2, 4, 0, supervisor_may _ _ _ (by decide) (by decide), by decide, by decide,
      by unfold ownsPart; decide, by decide, by decide, by decide⟩,
    ⟨parted [(0, partAt 255 3)] (supervisor [(2, 15)]), 3, 1, 2, 4, 0, supervisor_may _ _ _ (by decide) (by decide), by decide, by decide,
      by unfold ownsPart; decide, by decide, by decide, by decide, by unfold idlePart; decide +kernel⟩,
    ⟨parted ((List.range 64).map fun j => (j, partAt 255)) (supervisor [(2, 15)]), 3, 1, 2, 4, 0, supervisor_may _ _ _ (by decide) (by decide),
      by decide, by decide, by unfold ownsPart; decide, by decide, by decide, by decide, by unfold idlePart; decide +kernel, by decide +kernel⟩,
    ⟨parted [(0, partAt 255)] (supervisor [(2, 15)]), 3, 1, 2, 4, 0, 1, supervisor_may _ _ _ (by decide) (by decide), by decide, by decide, by unfold ownsPart; decide,
      by decide, by decide, by decide, by unfold idlePart; decide +kernel, by decide, by decide, by decide⟩⟩

theorem witness_PartitionsAndCurtain_merge :
    (∃ (s : State) (d a q p : Nat), supervises s [d, a] ∧ q ≠ 0 ∧ (s.me.rg a).toNat = p ∧ ownsPart s p ∧ (s.part p).node = 1) ∧
    (∃ (s : State) (d a q p : Nat), supervises s [d, a] ∧ q ≠ 0 ∧ (s.me.rg a).toNat = p ∧ ownsPart s p ∧ 2 ≤ (s.part p).node ∧
      ∀ j < 64, (s.part j).valid = true → (s.part j).node = (if (s.part p).node % 2 = 0 then (s.part p).node + 1 else (s.part p).node - 1) →
        (s.part j).kernel ≠ (s.part p).kernel) ∧
    ∀ tenant ∈ [0, 3], ∃ (s : State) (d a q p o : Nat), supervises s [d, a] ∧ q ≠ 0 ∧ (s.me.rg a).toNat = p ∧ ownsPart s p ∧
      2 ≤ (s.part p).node ∧ ownsPart s o ∧
      (s.part o).node = (if (s.part p).node % 2 = 0 then (s.part p).node + 1 else (s.part p).node - 1) ∧
      (∀ j < 64, (s.part j).valid = true →
        (s.part j).node = (if (s.part p).node % 2 = 0 then (s.part p).node + 1 else (s.part p).node - 1) → j = o) ∧
      (idlePart s p ↔ tenant = 0) ∧ idlePart s o :=
  ⟨⟨supervisor [], 3, 1, 4, 0, supervisor_may _ _ _ (by decide) (by decide), by decide, by decide, by unfold ownsPart; decide, by decide⟩,
    ⟨parted [(0, partAt 2)] (supervisor []), 3, 1, 4, 0, supervisor_may _ _ _ (by decide) (by decide), by decide, by decide,
      by unfold ownsPart; decide, by decide, by decide⟩, fun tenant h =>
    ⟨parted [(0, partAt 2 tenant), (1, partAt 3)] (supervisor []), 3, 1, 4, 0, 1, supervisor_may _ _ _ (by decide) (by decide), by decide,
      by decide +revert, by unfold ownsPart; revert tenant; decide, by revert tenant; decide, by unfold ownsPart; revert tenant; decide,
      by revert tenant; decide, by revert tenant; decide +kernel, by unfold idlePart; revert tenant; decide +kernel,
      by unfold idlePart; revert tenant; decide +kernel⟩⟩

/-- The bytes of a heat record at the start of control core 0's local store. -/
def heatRecord (l : Map Byte) (core : Core) : Core := { core with ls := l }

/-- A record from 0 to 512 ns of tenant 1. -/
def heatBytes : Map Byte := [(9, 2), (61, 1), (62, 1), (63, 19)]

/-- An occurrence's record from 512 to 1,024 ns. -/
def heat1 : HeatRec where
  start := 512
  end_ := 1024
  period := 0
  root := 0x1000
  save := 0
  linkSlots := 0
  msiAddr := 8
  msiData := 9
  part := 0
  gate := false
  tenant := 1
  saveLog2 := 19
  since := 0

theorem sheet_ready (s : State) (hw : s.here.wps = []) (hp : s.here.prints = []) (hb : s.here.lsBad = []) (hs : s.here.lsSingle = [])
    (hx : 64 ≤ lsLimit s.actor.core) : lsReady s 0 64 := lsReady_of s 0 64 hw hp hb hs (by omega) rfl

/-- HEATSET of entry 255 from a record at 0, with these other records, by a kernel whose partition 0 is this. -/
def sheeted (l : Map Byte) (sheet : Tbl HeatRec) (v : Part := Part.package) : State :=
  { supervisor [(2, 255)] (heatRecord l) with hub := { Hub.reset with sheet := sheet, parts := [(0, v)] } }

theorem witness_Heats_sheet : ∀ l ∈ [[], [((61 : Nat), (1 : Byte))], heatBytes], ∃ (s : State) (d a b q x i : Nat),
    supervises s [d, a, b] ∧ q ≠ 0 ∧ (s.me.rg a).toNat = x ∧ (s.me.rg b).toNat = i ∧ i < 256 ∧ lsReady s x 64 ∧
    lsBytes s x 64 = getBytes l 0 64 ∧ (s.hub.sheet.filter fun e => e.1 != i && e.2.part == Machine.field (lsBytes s x 64) 60 1) = [] ∧
    ownsPart s 0 ∧ Tbl.get? s.hub.sheet i = none :=
  fun l h => ⟨supervisor [(2, 255)] (heatRecord l), 3, 1, 2, 4, 0, 255, supervisor_may _ _ _ (by revert l; decide) (by revert l; decide),
    by decide, by revert l; decide, by revert l; decide, by decide, sheet_ready _ rfl rfl rfl rfl (show 64 ≤ lsLimit 4096 by decide), by revert l; decide +kernel,
    rfl, by unfold ownsPart; revert l; decide, rfl⟩

/-- The record of `heatBytes` has every field in its range. -/
theorem heatBytes_ok : heatFieldsOk (getBytes heatBytes 0 64) = true := by decide +kernel

/-- A state for each answer of HEATSET to that record: 2, 3 and 4. -/
theorem witness_Heats_statuses : ∀ c ∈ [([(5, { heat1 with start := 511 })], Part.package),
      ([(5, { heat1 with period := 512 })], Part.package), ([(5, heat1)], { Part.package with kernel := 2 })],
    ∃ (s : State) (d a b q x i : Nat), supervises s [d, a, b] ∧ q ≠ 0 ∧ (s.me.rg a).toNat = x ∧ (s.me.rg b).toNat = i ∧ i < 256 ∧
      lsReady s x 64 ∧ lsBytes s x 64 = getBytes heatBytes 0 64 ∧ s.hub.sheet = c.1 ∧ s.part 0 = c.2 ∧
      ∀ o ∈ (s.hub.sheet.filter fun e => e.1 != i && e.2.part == Machine.field (lsBytes s x 64) 60 1).map (·.2), o.start < o.end_ :=
  fun c h => ⟨sheeted heatBytes c.1 c.2, 3, 1, 2, 4, 0, 255,
    ⟨by revert c; decide, .inl (by revert c; decide), by revert c; decide, by revert c; decide⟩, by decide, by revert c; decide,
    by revert c; decide, by decide, sheet_ready _ rfl rfl rfl rfl (show 64 ≤ lsLimit 4096 by decide), by revert c; decide +kernel, rfl, rfl,
    by revert c; decide +kernel⟩

theorem witness_Heats_overlap : Overlaps (heatOf (getBytes heatBytes 0 64) 0) { heat1 with start := 511 } :=
  ⟨0, 0, fun _ => rfl, fun _ => rfl, by decide +kernel, by decide +kernel⟩

theorem witness_Heats_apart : ∀ period ∈ [0, 512], ¬ Overlaps (heatOf (getBytes heatBytes 0 64) 0) { heat1 with period := period } := by
  rintro period - ⟨i, j, hi, hj, h1, h2⟩
  have hp : (heatOf (getBytes heatBytes 0 64) 0).period = 0 := by decide +kernel
  have he : (heatOf (getBytes heatBytes 0 64) 0).end_ = 512 := by decide +kernel
  rw [he, hi hp] at h2
  simp [heat1] at h2 <;> omega

theorem witness_PartitionsAndCurtain_curtain : ∀ tenant ∈ [0, 3], ∃ (s : State) (d a b q p map : Nat), supervises s [d, a, b] ∧ q ≠ 0 ∧
    (s.me.rg a).toNat = p ∧ ownsPart s p ∧ (s.me.rg b).toNat = map ∧ map < 1024 ∧ (idlePart s p ↔ tenant = 0) :=
  fun tenant h => ⟨parted [(0, partAt 511 tenant)] (supervisor [(2, 1023)]), 3, 1, 2, 4, 0, 1023, supervisor_may _ _ _ (by decide) (by decide),
    by decide, by revert tenant; decide, by unfold ownsPart; revert tenant; decide, by revert tenant; decide, by decide,
    by unfold idlePart; revert tenant; decide +kernel⟩

theorem witness_PartitionsAndCurtain_mailbox : ∀ n ∈ [0, 64], ∃ (s : State) (d a b q x p tenant : Nat), supervises s [d, a, b] ∧ q ≠ 0 ∧
    (s.me.rg a).toNat = x ∧ ownsPart s p ∧ tenant < 256 ∧ (s.me.rg b).toNat = 2 ^ 8 * p + 2 ^ 16 * tenant ∧ lsReady s x 64 ∧
    (s.part p).mailbox.length = n :=
  fun n h => ⟨parted [(0, { partAt 1 with mailbox := List.replicate n 5 })] (supervisor [(2, 0xFF0000)]), 3, 1, 2, 4, 0, 0, 255,
    supervisor_may _ _ _ (by decide) (by decide), by decide, by revert n; decide, by unfold ownsPart; revert n; decide, by decide,
    by revert n; decide, sheet_ready _ rfl rfl rfl rfl (show 64 ≤ lsLimit 4096 by decide), by revert n; decide⟩

/-- TOKEN 1 for a tenant, at address 0, in a life cycle, with these records in the sheet and this signature index. -/
def admitting (c : Nat × Nat × Tbl HeatRec × Nat) : State :=
  { supervisor [(2, BitVec.ofNat 64 (0x3F01 + 2 ^ 16 * c.1))] with
    plat := { Platform.reset with lifeCycle := c.2.1 }, hub := { Hub.reset with sheet := c.2.2.1, signIndex := c.2.2.2 } }

/-- Tenant 0; a tenant of the sheet; a part in life cycle 0, in life cycle 3, and one whose keys are spent; and two admissions. -/
def admissions : List (Nat × Nat × Tbl HeatRec × Nat) :=
  [(0, 1, [], 0), (1, 1, [(5, heat1)], 0), (255, 0, [], 0), (255, 3, [], 0), (255, 1, [], 1099511627776),
   (255, 1, [(5, heat1)], 1099511627775), (255, 2, [], 0)]

theorem witness_PartitionsAndCurtain_admit : ∀ c ∈ admissions, ∃ (s : State) (d a b q x p tenant : Nat), s = admitting c ∧
    supervises s [d, a, b] ∧ q ≠ 0 ∧ (s.me.rg a).toNat = x ∧ p < 64 ∧ tenant < 256 ∧ (s.me.rg b).toNat = 1 + 2 ^ 8 * p + 2 ^ 16 * tenant ∧
    x % 64 = 0 ∧ x + 10021 ≤ lsLimit s.actor.core ∧ (∀ l r, watchHit s.here x 10021 l r = false) ∧
    awaits s.here [run x 10021] [run x 10021] = false ∧ lsSound s s.actor.core x 10021 ∧ tenant = c.1 :=
  fun c h => ⟨admitting c, 3, 1, 2, 4, 0, 63, c.1, rfl, ⟨by revert c; decide, .inl (by revert c; decide), rfl, by revert c; decide⟩,
    by decide, by revert c; decide, by decide, by revert c; decide, by revert c; decide, by decide, by revert c; decide,
    by revert c; decide, by revert c; decide, lsSound_of _ _ _ _ rfl rfl, rfl⟩

/-- Each of the answers of TOKEN 1 in one of those states. -/
theorem witness_PartitionsAndCurtain_answers :
    (∃ c ∈ admissions, c.1 ≠ 0 ∧ ∃ e ∈ (admitting c).hub.sheet, e.2.tenant = c.1) ∧
    (∃ c ∈ admissions, c.1 ≠ 0 ∧ (∀ e ∈ (admitting c).hub.sheet, e.2.tenant ≠ c.1) ∧ (admitting c).plat.lifeCycle ∉ [1, 2]) ∧
    (∃ c ∈ admissions, c.1 ≠ 0 ∧ (∀ e ∈ (admitting c).hub.sheet, e.2.tenant ≠ c.1) ∧ 2 ^ 40 ≤ (admitting c).hub.signIndex) ∧
    ∃ c ∈ admissions, c.1 ≠ 0 ∧ (∀ e ∈ (admitting c).hub.sheet, e.2.tenant ≠ c.1) ∧ (admitting c).plat.lifeCycle ∈ [1, 2] ∧
      (admitting c).hub.signIndex < 2 ^ 40 := by decide

/-- A partition's state as a step of its own meets it. -/
def heated (v : Part) (sheet : Tbl HeatRec) (time : Nat) : State :=
  { State.reset with
    args := [0]
    time := time
    plat := { Platform.reset with wiping := false }
    hub := { Hub.reset with parts := [(0, v)], sheet := sheet } }

theorem witness_Heats_start : ∀ n ∈ [0, 1], ∃ (s : State) (p i : Nat) (h : HeatRec), s.args = [p] ∧ (s.part p).valid = true ∧
    (s.part p).switch = none ∧ (s.hub.sheet.filter fun e => e.2.part == p) = [(i, h)] ∧
    max (s.part p).lastBoundary h.since < h.start + n * h.period ∧
    (n = 0 ∨ (h.period ≠ 0 ∧ h.start + n * h.period ≤ max (s.part p).lastBoundary h.since + h.period)) ∧
    (∀ r, (s.part p).running = some r → r.until_ = h.start + n * h.period) ∧ h.start + n * h.period ≤ s.time := by
  intro n hn
  simp only [List.mem_cons, List.not_mem_nil, or_false] at hn
  rcases hn with rfl | rfl
  · exact ⟨heated Part.package [(5, heat1)] 512, 0, 5, heat1, rfl, rfl, rfl, by decide, by decide, .inl rfl, fun r hr => (nomatch hr),
      by decide⟩
  · exact ⟨heated { Part.package with running := some ⟨5, { heat1 with period := 512 }, 1024⟩, lastBoundary := 512 }
      [(5, { heat1 with period := 512 })] 1024, 0, 5, { heat1 with period := 512 }, rfl, rfl, rfl, by decide, by decide,
      .inr (by decide), fun r hr => by cases hr; rfl, by decide⟩

theorem witness_Heats_end : ∀ l ∈ [[], [(5, heat1)]], ∃ (s : State) (p : Nat) (r : Run), s.args = [p] ∧ (s.part p).valid = true ∧
    (s.part p).switch = none ∧ (s.part p).running = some r ∧ endsAlone s p r ∧ r.until_ ≤ s.time ∧ (s.part p).started = false ∧
    s.hub.sheet = l := by
  intro l hl
  refine ⟨heated { Part.package with running := some ⟨5, heat1, 1024⟩, lastBoundary := 512 } l 1024, 0, _, rfl, rfl, rfl, rfl, ?_,
    Nat.le_refl 1024, rfl, rfl⟩
  simp only [List.mem_cons, List.not_mem_nil, or_false] at hl
  rcases hl with rfl | rfl
  · exact .inl rfl
  · exact .inr ⟨heat1, 0, by decide, by decide, fun _ => rfl, .inl rfl, by decide, by decide, by decide⟩

theorem witness_Heats_switch : ∃ (s : State) (p : Nat) (r : Option Run), atBoundaryOf s p r ∧ (s.part p).heat = none ∧ allCold s ∧
    (∀ k ∈ partCores (s.part p), (s.core k).retired = false ∧ (s.core k).unmapped = false) ∧ r.isSome = true ∧
    ∀ x, r = some x → s.time < x.until_ ∧ ∀ o ∈ s.hub.saved, o.part ≠ p ∨ o.tenant ≠ x.heat.tenant :=
  ⟨heated { Part.package with switch := some ⟨some ⟨5, heat1, 1024⟩, false⟩ } [] 512, 0, some ⟨5, heat1, 1024⟩, ⟨rfl, rfl, by decide +kernel⟩,
    rfl, cold _ rfl, fun k _ => ⟨rfl, rfl⟩, rfl, fun x hx => by cases hx; exact ⟨by decide, fun o ho => (List.not_mem_nil ho).elim⟩⟩

theorem witness_Heats_save : ∃ (s : State) (p : Nat) (h : HeatRec), atBoundaryOf s p none ∧ (s.part p).heat = some h ∧
    (s.part p).barred = false ∧ s.linkAllowed p = true ∧ allCold s :=
  ⟨heated { Part.package with switch := some ⟨none, false⟩, heat := some { heat1 with linkSlots := 5 }, tenant := 1 } [] 1024, 0, _, ⟨rfl, rfl, by decide +kernel⟩,
    rfl, rfl, by decide, cold _ rfl⟩

theorem witness_Heats_expired : ∃ (s : State) (p i : Nat) (v : Part), s.args = [i] ∧
    s.hub.parts.find? (fun e => e.2.expired.contains i) = some (p, v) :=
  ⟨{ heated { Part.package with expired := [5] } [] 0 with args := [5] }, 0, 5, _, rfl, rfl⟩

theorem witness_Heats_slot : ∃ (s : State) (n : Nat), s.args = [n] ∧ s.time % 32768 / 512 = n :=
  ⟨{ heated Part.package [] 32767 with args := [63] }, 63, rfl, by decide⟩

theorem witness_PartitionsAndCurtain_remap :
    (∀ n ∈ [0, 1], ∃ (s : State) (k p : Nat), s.args = [k] ∧ s.partOf k = some p ∧ (s.core k).retired = true ∧
      (s.core k).unmapped = false ∧ idlePart s p ∧ (s.die (dieOf k)).understudies.length = n) ∧
    ∃ (s : State) (k p : Nat), s.args = [k] ∧ s.partOf k = some p ∧ (s.core k).retired = true ∧ (s.core k).unmapped = false ∧
      ¬ idlePart s p :=
  ⟨fun n h => ⟨{ heated (partAt 128) [] 0 with
      cores := [(0, { Core.reset with retired := true })], dies := [(0, { Die.reset with understudies := List.replicate n 31 })] }, 0, 0, rfl, by revert n; decide, rfl,
      rfl, by unfold idlePart; revert n; decide +kernel, List.length_replicate⟩,
    ⟨{ heated (partAt 128 3) [] 0 with cores := [(0, { Core.reset with retired := true })] }, 0, 0, rfl, by decide, rfl, rfl,
      by unfold idlePart; decide +kernel⟩⟩

theorem witness_PartitionsAndCurtain_vipost : ∀ gen ∈ [0, 1], ∃ (s : State) (id r tenant r' : Nat),
    s.args = [id + 2 ^ 11 * r + 2 ^ 16 * tenant + 2 ^ 24 * r' + 2 ^ 32 * gen] ∧ id ≠ 0 ∧ id < 2048 ∧ r < 32 ∧ tenant < 256 ∧ r' < 256 ∧
    gen < 2 ^ 32 ∧ allCold s ∧
    (Map.get 0 s.hub.vifbase tenant).toNat ≠ 0 ∧ inRanges (frameOf (Map.get 0 s.hub.vifbase tenant).toNat) = true ∧
    s.physRead (Map.get 0 s.hub.vifbase tenant).toNat 8 = 0 :=
  fun gen h => ⟨{ one with
      args := [2047 + 2048 * 31 + 65536 * 255 + 16777216 * 255 + 4294967296 * gen]
      hub := { Hub.reset with vifbase := [(255, 0x200000)] } }, 2047, 31, 255, 255,
    by revert gen; decide, by decide, by decide, by decide, by decide, by decide, by revert gen; decide, cold _ rfl, by revert gen; decide,
    by revert gen; decide, by revert gen; decide⟩

theorem witness_PartitionsAndCurtain_dropped : ∀ id ∈ [0, 1], ∃ (s : State) (r tenant r' gen : Nat),
    s.args = [id + 2 ^ 11 * r + 2 ^ 16 * tenant + 2 ^ 24 * r' + 2 ^ 32 * gen] ∧ r < 32 ∧ tenant < 256 ∧ r' < 256 ∧ gen < 2 ^ 32 ∧
    allCold s ∧ (Map.get 0 s.hub.vifbase tenant).toNat = 0 :=
  fun id h => ⟨{ one with args := [id] }, 0, 0, 0, 0, by revert id; decide, by decide, by decide, by decide, by decide, cold _ rfl, rfl⟩

/-! #### Platform and the whole machine -/

/-- A boot flash whose two markers are these bytes. -/
def flashOf (a b : List Byte) : Tbl Byte := (List.range 32).map (fun i => (i, a.getD i 0)) ++ (List.range 32).map fun i => (4096 + i, b.getD i 0)

/-- The device after reset with such a flash; the minimum and the running SVN are these. -/
def booted (a b : List Byte) (minSvn runSvn : Nat := 0) (fail : Bool := false) : State :=
  { State.reset with plat := { Platform.reset with flash := flashOf a b, minSvn := minSvn, runSvn := runSvn, bootFail := fail, owner := 3 } }

theorem readMarker_bad (a b : List Byte) (i : Nat) (h : readMarker (booted a b).plat i = none) (slot seq : Nat) :
    ¬ marks (booted a b).plat i slot seq := by
  unfold marks
  rw [h]
  exact nofun

theorem witness_Platform_none : ∃ s : State, ∀ i < 2, ∀ slot seq, marks s.plat i slot seq → verifiedSlot s.plat slot = none := by
  refine ⟨booted [] [], fun i hi slot seq h => absurd h (readMarker_bad _ _ _ ?_ _ _)⟩
  rcases (by omega : i = 0 ∨ i = 1) with rfl | rfl <;> decide +kernel

/-- Whatever SVN of at least the minimum and version the image of slot 0 has (how an image is read is opaque, log entry 9), such a
flash boots it. -/
theorem witness_Platform_boots (svn version : Nat)
    (h : checkedImage (booted (markerBytes 0 5) []).plat.keyHash (slotBase 0) (slotBytes (booted (markerBytes 0 5) []).plat 0) =
      some (svn, version)) :
    ∃ (s : State) (i slot seq : Nat), i < 2 ∧ marks s.plat i slot seq ∧ verifiedSlot s.plat slot = some (svn, version) ∧
      ∀ slot' seq', marks s.plat (1 - i) slot' seq' → seq' < seq ∨ slot' = slot ∨ verifiedSlot s.plat slot' = none := by
  refine ⟨booted (markerBytes 0 5) [], 0, 0, 5, by decide, by unfold marks; decide +kernel, ?_, fun slot' seq' h' => ?_⟩
  · unfold verifiedSlot
    rw [h]
    rfl
  · exact absurd h' (readMarker_bad _ _ _ (by decide +kernel) _ _)

/-- Two equal copies of the marker, as after an update. -/
theorem equal_marks (i : Nat) (hi : i < 2) (slot seq : Nat) (h : marks (booted (markerBytes 0 5) (markerBytes 0 5)).plat i slot seq) :
    slot = 0 ∧ seq = 5 := by
  unfold marks at h
  have h5 : readMarker (booted (markerBytes 0 5) (markerBytes 0 5)).plat i = some (0, 5) := by
    rcases (by omega : i = 0 ∨ i = 1) with rfl | rfl <;> decide +kernel
  cases h5.symm.trans h
  exact ⟨rfl, rfl⟩

theorem witness_Platform_bootsEqual (svn version : Nat)
    (h : checkedImage (booted (markerBytes 0 5) (markerBytes 0 5)).plat.keyHash (slotBase 0)
      (slotBytes (booted (markerBytes 0 5) (markerBytes 0 5)).plat 0) = some (svn, version)) :
    ∃ (s : State) (i slot seq : Nat), i < 2 ∧ marks s.plat i slot seq ∧ marks s.plat (1 - i) slot seq ∧
      verifiedSlot s.plat slot = some (svn, version) ∧
      ∀ slot' seq', marks s.plat (1 - i) slot' seq' → seq' < seq ∨ slot' = slot ∨ verifiedSlot s.plat slot' = none := by
  refine ⟨booted (markerBytes 0 5) (markerBytes 0 5), 0, 0, 5, by decide, by unfold marks; decide +kernel, by unfold marks; decide +kernel, ?_,
    fun slot' seq' h' => .inr (.inl (equal_marks _ (by decide) _ _ h').1)⟩
  unfold verifiedSlot
  rw [h]
  rfl

/-- The same of a recovery image. -/
theorem witness_Platform_recovery (x svn version : Nat) (h : checkedImage 0 (slotBase 0) (fun o n => bytesOfNat n (x / 256 ^ o)) = some (svn, version)) :
    ∃ (s : State) (m : Nat), s.args = [m, x] ∧ s.plat.bootFail = true ∧ isOwner s m = true ∧
      checkedImage s.plat.keyHash (slotBase 0) (fun o n => bytesOfNat n (x / 256 ^ o)) = some (svn, version) ∧ s.plat.minSvn ≤ svn :=
  ⟨{ booted [] [] 0 0 true with args := [2, x] }, 2, rfl, rfl, rfl, h, Nat.zero_le _⟩

/-- The same of two equal markers and RAISESVN. -/
theorem witness_Platform_raises (size svn version at_ : Nat) (hs : 1 ≤ svn)
    (h : imageHeader (slotBase 0) ((booted (markerBytes 0 5) (markerBytes 0 5) 0 1).plat.flashBytes (slotBase 0) 64) =
      some (size, svn, version, at_)) :
    ∃ (s : State) (m : Nat), s.args = [m] ∧ isOwner s m = true ∧ s.plat.minSvn < s.plat.runSvn ∧ s.plat.svnRises < 64 ∧
      ∀ i < 2, namesNew s.plat i := by
  refine ⟨{ booted (markerBytes 0 5) (markerBytes 0 5) 0 1 with args := [2] }, 2, rfl, rfl, by decide, by decide, fun i hi => ?_⟩
  refine ⟨0, 5, size, svn, version, at_, ?_, h, hs⟩
  unfold marks
  rcases (by omega : i = 0 ∨ i = 1) with rfl | rfl <;> decide +kernel

theorem witness_Platform_lifeCycle : ∀ n ∈ [0, 1, 2, 3], ∃ (s : State) (m : Nat), s.args = [m, n + 1] ∧ isOwner s m = true ∧
    s.plat.lifeCycle = n :=
  fun n _ => ⟨{ State.reset with args := [2, n + 1], plat := { Platform.reset with owner := 3, lifeCycle := n } }, 2, rfl, rfl, rfl⟩

theorem witness_Platform_owner : ∀ m ∈ [2, 0], ∃ s : State, s.args = [m, 5] ∧ isOwner s m = decide (m = 2) :=
  fun m h => ⟨{ State.reset with args := [m, 5], plat := { Platform.reset with owner := 3 } }, rfl, by revert m; decide⟩

theorem witness_Platform_shutdown : ∀ t ∈ [100000, 99999], ∃ (s : State) (u : Nat), s.plat.shutdownAt = some u ∧ u = 100000 ∧ s.time = t :=
  fun t _ => ⟨{ State.reset with time := t, plat := { Platform.reset with shutdownAt := some 100000 } }, _, rfl, rfl, rfl⟩

theorem witness_Platform_power : ∃ (s : State) (a n : Nat), s.args = [a, n] :=
  ⟨{ State.reset with args := [0, 33] }, 0, 33, rfl⟩

theorem witness_Platform_training : ∀ b ∈ [false, true], ∃ (s : State) (x n : Nat), s.args = [x, n] ∧ s.plat.trained = b :=
  fun b _ => ⟨{ State.reset with args := [1, 9], plat := { Platform.reset with trained := b } }, 1, 9, rfl, rfl⟩

theorem witness_Platform_claim :
    (∃ (s : State) (m v : Nat), s.args = [m, v] ∧ v / 2 ^ 4 % 8 = ownerCode m ∧ v / 2 ^ 4 % 8 ≠ 0 ∧ isOwner s m = false ∧
      s.plat.owner ≠ 0 ∧ s.plat.handTo = v / 2 ^ 4 % 8) ∧
    (∃ (s : State) (m v : Nat), s.args = [m, v] ∧ v / 2 ^ 4 % 8 = ownerCode m ∧ v / 2 ^ 4 % 8 ≠ 0 ∧ isOwner s m = false ∧ s.plat.owner = 0) ∧
    (∀ r ∈ [0, 1], ∃ (s : State) (m v : Nat), s.args = [m, v] ∧ v / 2 ^ 4 % 8 = ownerCode m ∧ isOwner s m = true ∧ v / 2 ^ 11 % 2 = r) ∧
    (∃ (s : State) (m v : Nat), s.args = [m, v] ∧ v / 2 ^ 4 % 8 ≠ ownerCode m) ∧
    ∃ (s : State) (m v : Nat), s.args = [m, v] ∧ v / 2 ^ 4 % 8 = ownerCode m ∧ isOwner s m = false ∧ s.plat.owner ≠ 0 ∧
      s.plat.handTo ≠ v / 2 ^ 4 % 8 :=
  ⟨⟨{ State.reset with args := [8, 32], plat := { Platform.reset with owner := 3, handTo := 2 } }, 8, 32, rfl, by decide, by decide, by decide,
      by decide, rfl⟩,
    ⟨{ State.reset with args := [16, 64] }, 16, 64, rfl, by decide, by decide, by decide, rfl⟩,
    fun r h => ⟨{ State.reset with args := [2, 0x130 + 2048 * r], plat := { Platform.reset with owner := 3 } }, 2, _, rfl, by revert r; decide,
      by decide +revert, by revert r; decide⟩,
    ⟨{ State.reset with args := [16, 16] }, 16, 16, rfl, by decide⟩,
    ⟨{ State.reset with args := [8, 32], plat := { Platform.reset with owner := 3, handTo := 4 } }, 8, 32, rfl, by decide, by decide, by decide,
      by decide⟩⟩

/-- Thread 0 of core 0 waits for the answer to a monitor call with these registers. -/
def calling (l : List (Nat × Word)) (n : Nat := 1) : State :=
  let s := one fun c => { withG l c with status := .waiting, calling := some n }
  { s with args := [0, 0], hub := { s.hub with deeds := [(1, { Deed.reset with owner := 1 })] } }

theorem witness_Platform_calls : ∀ n ∈ [0, 3, 4, 1], ∃ s : State, calls n s ∧ allCold s :=
  fun n _ => ⟨calling [] n, ⟨_, rfl, rfl, rfl⟩, cold _ rfl⟩

theorem witness_Platform_refusedImage : ∃ s : State, calls 1 s ∧ allCold s ∧ callerImage s 0 ((s.ctx ⟨s.arg 0, s.arg 1⟩).rg 5).toNat = none :=
  ⟨calling [], ⟨_, rfl, rfl, rfl⟩, cold _ rfl, by decide⟩

theorem tenantResident_calling (t : Word) (h : t.toNat = 0 ∨ t.toNat = 5) :
    tenantResident (calling [(5, 0x200000)]) t.toNat = decide (t.toNat = 0) := by
  rcases h with h | h <;> rw [h] <;> decide +kernel

/-- An image of a caller in its own frame, whatever SVN and version it has: its tenant has a thread, or has none and eight
images are pinned, or has none. -/
theorem witness_Platform_policy (svn version : Nat) (h : callerImage (calling [(5, 0x200000)]) 0 0x200000 = some (svn, version)) :
    (∃ s : State, allCold s ∧ callerImage s 0 0x200000 = some (svn, version) ∧ tenantResident s 0 = true) ∧
    ∃ s : State, allCold s ∧ callerImage s 0 0x200000 = some (svn, version) ∧ tenantResident s 5 = false ∧
      (((s.plat.policies.filter fun p => p.tenant != 5).map (·.image)).eraseDups).length < 8 :=
  ⟨⟨_, cold _ rfl, h, (tenantResident_calling 0 (.inl rfl)).trans rfl⟩, ⟨_, cold _ rfl, h, (tenantResident_calling 5 (.inr rfl)).trans rfl, by decide⟩⟩

/-- A caller of MONSTAGE with the image at 0x200000, two equal markers of slot 0, and an update under way or none. -/
def staging (u : Option Update) (l : List (Nat × Word) := [(5, 0x200000)]) : State :=
  { calling l 2 with plat := { (booted (markerBytes 0 5) (markerBytes 0 5)).plat with updating := u } }

theorem witness_Platform_stagingRefused : ∃ s : State, calls 2 s ∧ allCold s ∧ s.plat.updating = none ∧
    ∀ slot < 2, ∀ v, callerImage s slot ((s.ctx ⟨s.arg 0, s.arg 1⟩).rg 5).toNat = some v → v.1 < s.plat.minSvn := by
  refine ⟨staging none [], ⟨_, rfl, rfl, rfl⟩, cold _ rfl, rfl, fun slot _ v hv => ?_⟩
  unfold callerImage at hv
  rw [if_pos (by rfl)] at hv
  cases hv

/-- Whatever SVN and version the image has. -/
theorem witness_Platform_stagingBegins (svn version : Nat) (h : callerImage (staging none) 1 0x200000 = some (svn, version)) :
    ∃ (s : State) (i slot q : Nat), calls 2 s ∧ allCold s ∧ s.plat.updating = none ∧ leads s.plat i slot q ∧
      callerImage s (1 - slot) ((s.ctx ⟨s.arg 0, s.arg 1⟩).rg 5).toNat = some (svn, version) ∧ s.plat.minSvn ≤ svn :=
  ⟨staging none, 0, 0, 5, ⟨_, rfl, rfl, rfl⟩, cold _ rfl, rfl, ⟨by decide, by unfold marks; decide +kernel, fun slot' seq' h' =>
    .inr ⟨(equal_marks 1 (by decide) _ _ h').2, (equal_marks 1 (by decide) _ _ h').1⟩⟩, h, Nat.zero_le _⟩

theorem witness_Platform_staging : ∀ phase ∈ [1, 2, 3], ∀ caller ∈ [(⟨0, 0⟩ : Actor), ⟨0, 1⟩], ∃ (s : State) (u : Update), calls 2 s ∧ allCold s ∧
    s.plat.updating = some u ∧ u.caller = caller ∧ u.phase = phase ∧ u.slot < 2 ∧ u.first < 2 ∧ u.seq < 2 ^ 64 :=
  fun phase _ caller _ => ⟨staging (some ⟨caller, 1, 6, 1, [1, 2], 3, 1, phase⟩), _, ⟨_, rfl, rfl, rfl⟩, cold _ rfl, rfl, rfl, rfl, show 1 < 2 by decide,
    show 1 < 2 by decide, show 6 < 2 ^ 64 by decide⟩

theorem witness_Platform_update :
    (∃ (s : State) (u x : Nat), s.args = [u] ∧ s.plat.staged = some x ∧ u < 256 ∧ (s.cluster u).permits = 0) ∧
    (∃ (s : State) (u x : Nat), s.args = [u] ∧ s.plat.staged = some x ∧ u < 256 ∧ (s.cluster u).permits ≠ 0) ∧
    ∃ (s : State) (u x : Nat), s.args = [u] ∧ s.plat.staged = some x ∧ u = 256 ∧ ∀ q ∈ s.hub.queues, q.2.busy = false :=
  ⟨⟨{ State.reset with args := [255], plat := { Platform.reset with staged := some 7 } }, 255, 7, rfl, rfl, by decide, rfl⟩,
    ⟨{ State.reset with args := [0], clusters := [(0, { Cluster.reset with permits := 1 })], plat := { Platform.reset with staged := some 7 } }, 0,
      7, rfl, rfl, by decide, by decide⟩,
    ⟨{ State.reset with args := [256], plat := { Platform.reset with staged := some 7 } }, 256, 7, rfl, rfl, rfl, fun q h => (List.not_mem_nil h).elim⟩⟩

theorem witness_Platform_wipe : ∀ b ∈ [false, true], ∃ s : State, s.anyShut = b :=
  fun b _ => ⟨{ State.reset with plat := { Platform.reset with stackState := if b then [(1, 4)] else [] } }, by cases b <;> decide⟩

theorem witness_Platform_clock : ∃ (s : State) (f w : Nat), s.args = [f, w] ∧ 1800 ≤ f ∧ f ≤ 3600 ∧ f + 100 = s.plat.clockMhz :=
  ⟨{ State.reset with args := [3500, 80] }, 3500, 80, rfl, by decide, by decide, by decide⟩

theorem witness_Platform_temperature : ∃ (s : State) (i l temp : Nat), s.args = [i, l, temp] ∧ i < 12 ∧ l < 16 ∧
    105 ≤ degrees temp ∧ (Map.get 0 s.plat.stackState i).testBit 2 = false :=
  ⟨{ State.reset with args := [11, 15, 105] }, 11, 15, 105, rfl, by decide, by decide, by decide, by decide⟩

/-- A block of a fetch buffer that begins with a word. -/
def wordBlock (w : Nat) : IBlock := ⟨0, 0, bytesOfNat 4 w⟩

/-- Thread 0 of core 0, whose turn is next, with a word in its fetch buffer. -/
def turning (w : Nat) (f : Ctx → Ctx := id) (g : Core → Core := id) : State :=
  { on 0 (fun c => f { c with fetch := some (wordBlock w) }) g with tape := [.thread 0 0] }

theorem issues_of (w : Nat) (f : Ctx → Ctx) (g : Core → Core) (c : Ctx) (h1 : (turning w f g).ctx? ⟨0, 0⟩ = some c)
    (h2 : isReadyThread (turning w f g) 0 0 c = true) (h2a : (0, c) ∈ ((turning w f g).core 0).threads)
    (h2b : isNext (turning w f g) 0 0 c) (h2c : ((turning w f g).core 0).holds 0 = false) (h3 : ((turning w f g).core 0).nextIssue ≤ 0) (h4 : c.pend = [])
    (h5 : isHeldBack (turning w f g) ⟨0, 0⟩ = false) (h6 : atBreakpoint ((turning w f g).core 0) c.pc = false) (h7 : c.pc = 0)
    (h8 : c.fetch = some (wordBlock w)) (h9 : c.codeId = 0) (h10 : wordAt (wordBlock w) 0 = some (4, w))
    (h11 : c.status = .running := by rfl) : issues (turning w f g) 0 0 [] c 4 w :=
  ⟨rfl, rfl, h1, h2, h11, h2a, h2b, h2c, h3, h4, h5, h6, by rw [h7]; decide, _, h8, by rw [h9]; rfl, by rw [h7]; rfl, by rw [h7]; exact h10⟩

theorem witness_StepRunsDecoded_plain : ∃ (s : State) (k n len w : Nat) (rest : List Turn) (c : Ctx) (i : Instr) (u : State),
    issues s k n rest c len w ∧ decodeWord len w = .ok i ∧ exec i { s with tape := rest, actor := ⟨k, n⟩ } = .next u ∧ c.gang = none ∧
    (u.ctx ⟨k, n⟩).xstat.getLsbD 11 = false ∧ ¬ ((u.ctx ⟨k, n⟩).monitored = true ∧ (u.ctx ⟨k, n⟩).status = .waiting) :=
  ⟨turning 0x00423001, 0, 0, 4, 0x00423001, [], _, .add 1 1 3, _, issues_of _ _ _ _ rfl rfl (by decide) (by unfold isNext; decide) rfl (by decide) rfl rfl rfl rfl rfl rfl (by decide),
    rfl, rfl, rfl, by decide, by decide⟩

/-- A comparison of a subnormal operand in U mode: the monitor completes it (R95). -/
theorem witness_StepRunsDecoded_stopped : ∃ (s : State) (k n len w : Nat) (rest : List Turn) (c c' : Ctx) (i : Instr) (u : State),
    issues s k n rest c len w ∧ decodeWord len w = .ok i ∧ exec i { s with tape := rest, actor := ⟨k, n⟩ } = .next u ∧ c.gang = none ∧
    (u.ctx ⟨k, n⟩).xstat.getLsbD 11 = false ∧ u.ctx? ⟨k, n⟩ = some c' ∧ (u.ctx ⟨k, n⟩).monitored = true ∧
    (u.ctx ⟨k, n⟩).status = .waiting :=
  ⟨turning 0x8CC22C91 fun c => c.wv 1 1, 0, 0, 4, 0x8CC22C91, [], _, _, .vfltVcmp 2 3 1 2 9 0, _,
    issues_of _ _ _ _ rfl rfl (by decide) (by unfold isNext; decide) rfl (by decide) rfl rfl rfl rfl rfl rfl (by decide), rfl, rfl, rfl,
    by decide, rfl, by decide, by decide⟩

theorem witness_StepRunsDecoded_single : ∃ (s : State) (k n len w : Nat) (rest : List Turn) (c c' : Ctx) (i : Instr) (u : State),
    issues s k n rest c len w ∧ decodeWord len w = .ok i ∧ exec i { s with tape := rest, actor := ⟨k, n⟩ } = .next u ∧ c.gang = none ∧
    u.ctx? ⟨k, n⟩ = some c' ∧ c'.xstat.getLsbD 11 = true ∧ i ≠ .xret ∧ c'.isDraining = false ∧ c'.pend = [] ∧
    (u.core k).instret ≠ (s.core k).instret :=
  ⟨turning 0x00423001 (inMode 0x800), 0, 0, 4, 0x00423001, [], _, _, .add 1 1 3, _,
    issues_of _ _ _ _ rfl rfl (by decide) (by unfold isNext; decide) rfl (by decide) rfl rfl rfl rfl rfl rfl (by decide), rfl, rfl, rfl, rfl, by decide, by decide, by decide, rfl,
    by decide⟩

/-- The gang of threads 0 and 1 of core 0. -/
def pair2 (index : Nat) : Gang := ⟨⟨0, 0⟩, [⟨0, 0⟩, ⟨0, 1⟩], index, []⟩

theorem witness_StepRunsDecoded_gang : ∃ (s : State) (k n len w : Nat) (rest : List Turn) (c : Ctx) (i : Instr) (u : State) (g : Gang),
    issues s k n rest c len w ∧ decodeWord len w = .ok i ∧ exec i { s with tape := rest, actor := ⟨k, n⟩ } = .next u ∧ c.gang = some g ∧
    g.stroke = ⟨k, n⟩ ∧ (∀ m ∈ g.members, ∀ x, (s.ctx m).gang = some x → x.buffer.length < 8) ∧
    (∀ m ∈ g.members, (s.ctx m).gang.isSome = true) ∧ g.members.Nodup ∧ u.actor = ⟨k, n⟩ ∧ (u.ctx ⟨k, n⟩).gang = some g ∧
    (u.core k).instret ≠ (s.core k).instret ∧ (u.ctx ⟨k, n⟩).xstat.getLsbD 11 = false ∧
    ¬ ((u.ctx ⟨k, n⟩).monitored = true ∧ (u.ctx ⟨k, n⟩).status = .waiting) :=
  ⟨turning 0x00423001 (fun c => { c with gang := some (pair2 0) }) (also 1 { Ctx.fresh with gang := some (pair2 1), place := .live 1 }), 0, 0, 4,
    0x00423001, [], _, .add 1 1 3, _, pair2 0, issues_of _ _ _ _ rfl rfl (by decide) (by unfold isNext; decide) rfl (by decide) rfl rfl rfl rfl rfl rfl (by decide), rfl, rfl, rfl, rfl,
    fun m hm x hx => by
      simp only [pair2, List.mem_cons, List.not_mem_nil, or_false] at hm
      rcases hm with rfl | rfl
      · cases hx
        decide
      · cases hx
        decide, by decide, by decide, rfl, rfl, by decide, by decide, by decide⟩

theorem witness_StepRunsDecoded_due : ∃ (s : State) (d : Due) (rest : List Due), s.tape = [] ∧ s.powered = true ∧ s.agenda = d :: rest ∧
    d.at_ ≤ s.now ∧ ∀ x ∈ rest, ∀ e y, arrivalEff s d = some e → arrivalEff s x = some y → y ≤ e :=
  ⟨State.reset, _, _, rfl, rfl, rfl, by decide, fun x _ e y h => nomatch h⟩

theorem witness_DecodeEncode : ∃ (i : Instr) (nbits w : Nat), i.WellFormed ∧ encode i = some (nbits, w) :=
  ⟨.add 31 30 29, _, _, by decide, rfl⟩

theorem witness_MemoryStaysCanonical : ∃ s t : State, s.MemoryWf ∧ step s = .next t := ⟨State.reset, _, rfl, rfl⟩

theorem witness_ResetState : ∃ t, exec .wipeComplete State.reset = .next t := ⟨_, rfl⟩

/-! ### Examples of the spec

Words and results that the spec's chapters give beside their rules. -/

theorem test_decode_examples : decodes [
  (4, 0x00C22001, .add 3 1 2), (4, 0x49407FF9, .bne 5 0 0x1FFC), (4, 0xA8C42469, .exti 3 2 0x1234), (4, 0x28C88061, .srai 3 4 8 1),
  (4, 0x0885FF81, .addi 2 2 0xFFC0), (4, 0x3A4F1359, .lui 9 0x789AC), (4, 0x0A539BDF, .addi 9 9 0xCDEF), (4, 0x490B0019, .bltn 4 5 12),
  (4, 0x80443025, .vintVadd 1 2 3 2 2), (4, 0x8CC22C91, .vfltVcmp 2 3 1 2 9 0), (4, 0x90C223C1, .vpack 3 1 2 12),
  (4, 0x994690C1, .vcvt 5 3 9 12 0), (4, 0x6904C011, .ld 4 2 3 8), (4, 0x7044C001, .st 1 2 3 0), (2, 0x514C, .cLw 5 6),
  (4, 0xA04A0091, .vld 1 5 0 9 0), (4, 0x79120005, .ldfe 4 9 2), (4, 0x79520035, .stf 5 9 2), (4, 0x78121045, .feset 9 1 2), (2, 0x7800, .cNop), (2, 0x28A0, .cAddi 2 16), (4, 0xC0CA6003, .bind 3 5 6 1),
  (4, 0xC00A6021, .acqX 5 6), (4, 0xC00A0041, .rel 5), (4, 0xC00000B1, .fenceDom), (4, 0xC00E0101, .waitn 7), (4, 0xC0690111, .waitc 3 9),
  (4, 0xC0D07187, .rcas 3 8 7 3), (4, 0xC114B205, .ramoAdd 4 10 11 2), (4, 0xC0448303, .iflush 2 4 2 1), (4, 0xC8100007, .mldw 8 3),
  (4, 0xC894B023, .mstream 2 10 11 1), (4, 0xC918D045, .mstreamd 4 12 13 2), (4, 0xC8109057, .mcomp 8 9 3), (4, 0xC84C7091, .aldr 1 6 7),
  (4, 0xC8C200B1, .amove 3 1), (4, 0xC81CF0C1, .aout 0 14 15), (4, 0xD0C06001, .fbrev 3 6), (4, 0xD1009031, .ftwm 4 9),
  (4, 0xD0089041, .fcmul 0 4 9), (4, 0xB28870E1, .part 10 4 7 0), (4, 0xB84C5033, .puts 2 6 1 1 1), (4, 0xB828F003, .get 1 4 15 1)] := by
  decide

/-- The state that a step leaves. -/
def after (s : State) : State :=
  match step s with
  | .next t => t
  | _ => s

/-- The acting thread's g register after the step that runs a word. -/
def gAfter (w : Nat) (l : List (Nat × Word)) (r : Nat) : Word := (after (turning w (withG l))).me.rg r

/-- R113: LUI g9, 0x789AC and ADDI g9, g9, -0x3211. -/
theorem test_lui_addi : gAfter 0x3A4F1359 [] 9 = 0x789AC0000 ∧ gAfter 0x0A539BDF [(9, 0x789AC0000)] 9 = 0x789ABCDEF := by decide

/-- R109, R112: the sum wraps, and an immediate of −64 is sign-extended. -/
theorem test_add_wraps : gAfter 0x00C22001 [(1, 0xFFFFFFFFFFFFFFFF), (2, 3)] 3 = 2 ∧ gAfter 0x0885FF81 [(2, 16)] 2 = 0xFFFFFFFFFFFFFFD0 := by decide

/-- R5, R29: a write of g0 is discarded. -/
theorem test_g0 : (after (turning 0x00022001 (withG [(1, 5), (2, 3)]))).me.rg 0 = 0 ∧ (after (turning 0x00022001 (withG [(1, 5), (2, 3)]))).me.pc = 4 := by
  decide

/-- R111: SRAI g3, g4, 40 keeps the sign. -/
theorem test_srai : gAfter 0x28C88061 [(4, 0x8000000000000000)] 3 = 0xFFFFFFFFFF800000 := by decide

/-- R110: the overflow of a signed divide wraps; the remainder takes the dividend's sign; a divisor of 0 waits. -/
theorem test_divide : (match exec (.div 3 1 2) (one (withG [(1, 0x8000000000000000), (2, 0xFFFFFFFFFFFFFFFF)])) with
    | .next t => t.me.rg 3 | _ => 0) = 0x8000000000000000 ∧
  (match exec (.rem 3 1 2) (one (withG [(1, 0xFFFFFFFFFFFFFFF9), (2, 2)])) with | .next t => t.me.rg 3 | _ => 0) = 0xFFFFFFFFFFFFFFFF ∧
  (match exec (.div 3 1 2) (one (withG [(1, 7)])) with | .next t => decide (t.me.status = .divWait) | _ => false) = true := by decide

/-- R109: the high halves of products. -/
theorem test_mulh : (match exec (.mulh 3 1 1) (one (withG [(1, 0xFFFFFFFFFFFFFFFF)])) with | .next t => t.me.rg 3 | _ => 1) = 0 ∧
  (match exec (.mulhn 3 1 1) (one (withG [(1, 0xFFFFFFFFFFFFFFFF)])) with | .next t => t.me.rg 3 | _ => 1) = 0xFFFFFFFFFFFFFFFE := by decide

/-- R26, R114: BLTN g4, g5, .+24 compares without sign; BNE g5, g0, .-8 goes back. -/
theorem test_branch : (after (turning 0x490B0019 (withG [(4, 1), (5, 0xFFFFFFFFFFFFFFFF)]))).me.pc = 24 ∧
  (after (turning 0x490B0019 (withG [(4, 0xFFFFFFFFFFFFFFFF), (5, 1)]))).me.pc = 4 ∧
  (match exec (.bne 5 0 0x1FFC) (one fun c => withG [(5, 1)] { c with pc := 0x40 }) with | .next t => t.me.pc | _ => 0) = 0x38 := by decide

/-- R185: LD g4, 8(g2), 3 reads eight bytes; a 16-bit load extends the sign; ST stores the low bytes, little-endian. -/
theorem test_load_store :
  (match exec (.ld 4 2 3 8) (on 0 (withG [(2, 0x100)]) fun k => { k with ls := [(0x108, 0x34), (0x109, 0x12), (0x10F, 0x80)] }) with
    | .next t => t.me.rg 4 | _ => 0) = 0x8000000000001234 ∧
  (match exec (.st 1 2 1 0) (one (withG [(1, 0xABCDEF), (2, 0x100)])) with | .next t => t.here.ls | _ => []) =
    [(0x100, 0xEF), (0x101, 0xCD)] := by decide

/-- R188, R189: LDFE of a full word reads it and leaves it empty; of an empty one it waits, parked. -/
theorem test_ldfe :
  (match exec (.ldfe 4 2 2) (on 0 (withG [(2, 0x100)]) fun k => { k with ls := [(0x100, 9)] }) with
    | .next t => (t.me.rg 4, t.here.wordState 0x40) | _ => (0, 3)) = (9, 0) ∧
  (match exec (.ldfe 4 2 2) (on 0 (withG [(2, 0x100)]) fun k => { k with lsState := [(0x40, 0)] }) with
    | .next t => t.me.status | _ => .running) = .parked := by decide

/-- R163: bytes wrap lane by lane under a predicate. -/
theorem test_vadd : (match exec (.vintVadd 1 2 3 0 1) (one fun c => ((c.wv 2 0xFFFF).wv 3 0x0202).wp 1 1) with
    | .next t => t.me.rv 1 | _ => 0) = 0x0001 := by decide

/-- R172: VPACK.e4m3 v3, v1, v2 of 1.0, 300, 1000 and 0.10009765625: 1.0, 288, 448 (saturated) and 0.1015625, with OF and NX. -/
theorem test_vpack : (match exec (.vpack 3 1 2 12) (one fun c => c.wv 1 0x3DCD447A43963F80) with
    | .next t => (t.me.rv 3, t.me.fpc &&& 0x1F0000) | _ => (0, 0)) = (0x1D7E7938, 0x140000) := by decide +kernel

/-- R173: VCVT.f32.e4m3 v5, v3, p0 of those four. -/
theorem test_vcvt : (match exec (.vcvt 5 3 9 12 0) (one fun c => c.wv 3 0x1D7E7938) with
    | .next t => (t.me.rv 5, t.me.fpc) | _ => (0, 1)) = (0x3DD0000043E00000439000003F800000, 0) := by decide +kernel

/-- R277: the worked sums. -/
theorem test_sums : (let f := decodeFloat 9
    [exactSum [f 0, mulNum (f 0x42000000) (f 0x42000000), mulNum (f 0x42000000) (f 0xC2000000), mulNum (f 0x35800000) (f 0x35800000)],
     exactSum [f 0, mulNum (f 0x42000000) (f 0x42000000), mulNum (f 0x42000000) (f 0xC2000000), mulNum (f 0x36800000) (f 0x36000000)],
     exactSum [f 0x4B800000, mulNum (f 0x3F800000) (f 0x3F800000)]]) = [0, 0x2D000000, 0x4B800000] := by decide +kernel

/-- R298: the four-point example, in one radix-4 pass, in two radix-2 passes, and halved. -/
theorem test_transform : (let x (l : List Cx) (j : Nat) : Cx := l.getD j (0, 0)
    let run (f : (Nat → Cx) → Nat → Cx) (l : List Cx) : List Cx := (List.range 4).map (f (x l))
    let l := [(0x3F800000, 0), (0x40400000, 0), (0x40000000, 0), (0x40800000, 0)]
    [run (radix4 0x102) l, run (radix2 0x12) (run (radix2 0x2) l), run (radix4 0x302) l]) =
    [[(0x41200000, 0), (0xC0000000, 0x40000000), (0xC0000000, 0), (0xC0000000, 0xC0000000)],
     [(0x41200000, 0), (0xC0000000, 0x40000000), (0xC0000000, 0), (0xC0000000, 0xC0000000)],
     [(0x40A00000, 0), (0xBF800000, 0x3F800000), (0xBF800000, 0), (0xBF800000, 0xBF800000)]] := by decide +kernel

/-- R291: the twiddles of n = 8. -/
theorem test_twiddles : (List.range 4).map (fun k => twiddle false k 3) =
    [(0x3F800000, 0), (0x3F3504F3, 0xBF3504F3), (0, 0xBF800000), (0xBF3504F3, 0xBF3504F3)] := by decide +kernel

/-- R316: g4 = 0x8030_1000 sets LO to 16 and HI to 48. -/
theorem test_chwm : (match exec (.chwm 5 4 1) (one (withG [(4, 0x80301000)])) with
    | .next t => ((t.here.chan 1).lo, (t.here.chan 1).hi, t.me.rg 5) | _ => (0, 0, 0)) = (16, 48, 0x400000) := by decide

/-- R308: core 0 is the corner of its mesh. -/
theorem test_mesh : [0, 1, 2, 3].map (neighbour 0) = [none, some 1, some 4, none] := by decide

/-- R371, R372: TRAP at a user handler that its kernel delegates, and at none. -/
theorem test_trap :
  (match exec (.trap 5) (on 0 (fun c => { withG [(5, 7)] c with xvec := 0x1001, pc := 0x40 }) fun k => { k with xdeleg := 0x800 }) with
    | .next t => (t.me.pc, t.me.xpc, t.me.xcause, t.me.xval, t.me.intrap) | _ => (0, 0, 0, 0, false)) = (0x1000, 0x40, 11, 7, true) ∧
  (match exec (.trap 5) (one fun c => { withG [(5, 7)] c with xvec := 0x1001, pc := 0x40 }) with
    | .next t => (t.me.pc, t.me.status) | _ => (0, .running)) = (0x40, .held 0 0) := by decide

/-- R382: CSRW of FELIM returns the old limit of 16. -/
theorem test_csrw : (match exec (.csrw 5 4 0 6) (one (withG [(4, 0x10020)])) with
    | .next t => (t.me.rg 5, t.me.felim) | _ => (0, 0)) = (16, 0x10020) := by decide

/-- A word of zeros is no instruction (R27): the thread is held with ILLEGAL_WORD. -/
theorem test_illegal : (match step (turning 0 id) with | .next t => (t.me.status, t.me.xcause, t.me.pc) | _ => (.running, 1, 1)) =
    (.held 0 0, 0, 0) := by decide

/-- A word laid where the first step fetches it runs from reset. -/
theorem test_withFetchWord : (match step (State.reset.withFetchWord 32 0x0885FF81) with
    | .next t => (t.me.rg 2, t.me.pc) | _ => (0, 0)) = (0xFFFFFFFFFFFFFFC0, 4) := by decide

/-- The check values of the standards that R415 and R426 name: CRC-32 of "123456789" and SHAKE256 of the empty string. -/
theorem test_digests : crc32 (Keccak.ascii "123456789") = 0xCBF43926 ∧
    Keccak.shake256 [] 8 = [0x46, 0xB9, 0xDD, 0x2B, 0x0B, 0xA8, 0x8D, 0x13] := by decide +kernel

end Sys2Proof.Tests
end

section
/-! Scalar class (chapter 05): what an instruction does whose register fields name no bound channel, then the immediate forms
(R111 to R113) and the branches and jumps (R26, R27, R114, R22). -/

open Sys2Proof.Machine

namespace Sys2Proof.Claims

/-! ### Register fields that name no bound channel -/

/-- Fewer fields stay plain, and g0 is. -/
theorem plainRegs.mono {s : State} {fields fewer : List Nat} (h : plainRegs s fields) (hsub : fewer ⊆ 0 :: fields) :
    plainRegs s fewer := by
  refine h.imp id fun hne r hr => ?_
  rcases List.mem_cons.1 (hsub hr) with rfl | hmem
  · exact ⟨by decide, by decide⟩
  · exact hne r hmem

end Sys2Proof.Claims

open Sys2Proof.Claims

namespace Sys2Proof.Machine

/-- A plain instruction neither waits nor traps on its operands (R35, R107, R309). -/
theorem operandStop_plain {s : State} {reads writes : List Nat} (h : plainRegs s (writes ++ reads)) :
    operandStop reads writes s = none := by
  rcases h with hb | hne
  · exact operandStop_unbound hb reads writes
  · have hr28 : 28 ∉ reads := fun hm => (hne 28 (List.mem_append_right _ hm)).1 rfl
    have hr29 : 29 ∉ reads := fun hm => (hne 29 (List.mem_append_right _ hm)).2 rfl
    have hw28 : 28 ∉ writes := fun hm => (hne 28 (List.mem_append_left _ hm)).1 rfl
    have hw29 : 29 ∉ writes := fun hm => (hne 29 (List.mem_append_left _ hm)).2 rfl
    simp [operandStop, popsOf, List.count_eq_zero_of_not_mem, hr28, hr29, hw28, hw29]

theorem takeReads_of_not_mem (c : Ctx) (vals : List Word) {reads : List Nat} (h : 28 ∉ reads) :
    takeReads c vals reads = reads.map c.rg := by
  induction reads with
  | nil => rfl
  | cons r rs ih =>
    obtain ⟨hr, hrs⟩ := List.ne_and_not_mem_of_not_mem_cons h
    simp [takeReads, ih hrs, Ne.symm hr]

theorem operands_plain {s : State} {reads : List Nat} (h : plainRegs s reads) : operands reads s = reads.map s.me.rg := by
  rcases h with hb | hne
  · exact operands_unbound hb reads
  · exact takeReads_of_not_mem _ _ fun hm => (hne 28 hm).1 rfl

theorem popReads_plain {s : State} {reads : List Nat} (h : plainRegs s reads) : popReads reads s = s := by
  rcases h with hb | hne
  · exact popReads_unbound hb reads
  · have h28 : 28 ∉ reads := fun hm => (hne 28 hm).1 rfl
    simp [popReads, popsOf, List.count_eq_zero_of_not_mem h28, popValues]

theorem writeReg_plain {s : State} {d : Nat} (h : plainRegs s [d]) (x : Word) : writeReg d x s = s.onMe (·.wg d x) := by
  rcases h with hb | hne
  · exact writeReg_unbound hb d x
  · simp [writeReg, (hne d (by simp)).2]

theorem withOperands_plain {s : State} {reads writes : List Nat} (h : plainRegs s (writes ++ reads))
    (go : List Word → State → State) : withOperands reads writes go s = go (reads.map s.me.rg) s := by
  have hreads : plainRegs s reads := h.mono (by simp)
  simp [withOperands, operandStop_plain h, operands_plain hreads]

/-- The whole effect of a plain register-to-register instruction. -/
theorem compute_result_plain {s : State} {d : Nat} {reads : List Nat} (h : plainRegs s (d :: reads)) (len occ : Nat)
    (f : List Word → Word) : RegisterResult len occ d (f (reads.map s.me.rg)) s (compute len occ reads d f s) := by
  have hreads : plainRegs s reads := h.mono (by simp)
  have hd : plainRegs s [d] := h.mono (by simp)
  have heq : compute len occ reads d f s = goTo (s.me.pc + word len) occ (s.onMe (·.wg d (f (reads.map s.me.rg)))) := by
    simp [compute, withOperands_plain (writes := [d]) h, popReads_plain hreads, writeReg_plain hd, retire_eq]
  rw [heq]
  exact goTo_writesG ..

/-- An instruction that computes `x` from plain fields answers with the effect of a register instruction. -/
theorem exec_compute_result {i : Instr} {s : State} {len occ d : Nat} {reads : List Nat} {f : List Word → Word} {x : Word}
    (hexec : exec i s = .next (compute len occ reads d f s)) (h : plainRegs s (d :: reads)) (hx : f (reads.map s.me.rg) = x) :
    ∃ t, exec i s = .next t ∧ RegisterResult len occ d x s t :=
  ⟨_, hexec, hx ▸ compute_result_plain h len occ f⟩

/-! ### Sign-extended fields (R4, R24) -/

theorem signedNat_eq_toInt {n : Nat} (hn : 0 < n) (x : Nat) : signedNat n x = (BitVec.ofNat n x).toInt := by
  obtain ⟨k, rfl⟩ : ∃ k, n = k + 1 := ⟨n - 1, by omega⟩
  simp only [signedNat, BitVec.toInt, BitVec.toNat_ofNat, Nat.add_sub_cancel, pow_succ]
  push_cast
  split <;> split <;> omega

theorem sext64_eq_signExtend {n : Nat} (hn : 0 < n) (x : Nat) : sext64 n x = (BitVec.ofNat n x).signExtend 64 := by
  rw [sext64, signedNat_eq_toInt hn, BitVec.signExtend]

theorem sext64_16 (i : Nat) : sext64 16 i = imm16 i := sext64_eq_signExtend (by decide) i

/-- LUI's constant: the 21-bit field above sixteen zeros. -/
theorem ofNat_mul_65536 (j : Nat) : BitVec.ofNat 37 (j * 65536) = BitVec.ofNat 21 j ++ 0#16 := by
  apply BitVec.eq_of_toNat_eq
  rw [BitVec.toNat_append]
  simp [Nat.shiftLeft_eq]
  omega

/-- SLTI compares with the sign-extended immediate. -/
theorem slt_imm16 (x : Word) (i : Nat) : x.slt (imm16 i) = decide (x.toInt < signedNat 16 i) := by
  rw [BitVec.slt, imm16, BitVec.toInt_signExtend_of_le (by decide), signedNat_eq_toInt (by decide)]

/-! ### Jump targets (R114, R22) -/

/-- The seven bits above a canonical address are clear. -/
theorem bits_57_7_eq_zero_iff (x : Word) : bits x.toNat 57 7 = 0 ↔ x.toNat < 2 ^ 57 := by
  have := x.isLt
  simp only [bits]
  omega

theorem getLsbD_zero_iff (x : Word) : x.getLsbD 0 = true ↔ x.toNat % 2 = 1 := by
  simp only [BitVec.getLsbD, Nat.testBit_zero, decide_eq_true_eq]

theorem jumpTo_of_goodTarget {tgt : Word} (h : goodTarget tgt) (link : State → State) (s : State) :
    jumpTo tgt link s = goTo tgt 4 (link s) := by
  obtain ⟨hcanon, heven⟩ := h
  rw [jumpTo, if_neg (not_not_intro ((bits_57_7_eq_zero_iff tgt).2 hcanon)), if_neg (by rw [getLsbD_zero_iff]; omega)]

theorem jumpTo_noncanonical {tgt : Word} (h : 2 ^ 57 ≤ tgt.toNat) (link : State → State) (s : State) :
    jumpTo tgt link s = trapE .addressNoncanonical tgt s :=
  if_pos fun h0 => by have := (bits_57_7_eq_zero_iff tgt).1 h0; omega

theorem jumpTo_misaligned {tgt : Word} (hcanon : tgt.toNat < 2 ^ 57) (hodd : tgt.toNat % 2 = 1) (link : State → State)
    (s : State) : jumpTo tgt link s = trapE .fetchMisaligned tgt s := by
  rw [jumpTo, if_neg (not_not_intro ((bits_57_7_eq_zero_iff tgt).2 hcanon)), if_pos ((getLsbD_zero_iff tgt).2 hodd)]

/-- Only what the link does to the present state matters. -/
theorem jumpTo_congr (tgt : Word) {link link' : State → State} {s : State} (h : link s = link' s) :
    jumpTo tgt link s = jumpTo tgt link' s := by simp [jumpTo, h]

/-- The link written to g[d]. -/
def linkTo (d : Nat) (x : Word) (s : State) : State := s.onMe (·.wg d x)

/-- A plain branch is a jump without a link to the target that its condition chooses. -/
theorem branch_plain {s : State} {a b : Nat} (h : plainRegs s [a, b]) (len n off : Nat) (cond : Word → Word → Bool) :
    branch len a b n off cond s =
      jumpTo (if cond (s.me.rg a) (s.me.rg b) then s.me.pc + 2 * sext64 n off else s.me.pc + word len) id s := by
  rw [branch, withOperands_plain (writes := []) h]
  exact jumpTo_congr _ (popReads_plain h)

/-- A plain JALR or C.JR is a jump to its base and offset, with a link to g[d]. -/
theorem jumpReg_plain {s : State} {d a : Nat} (h : plainRegs s [d, a]) (len : Nat) (imm : Word) :
    jumpReg len d a imm s = jumpTo (s.me.rg a + imm) (linkTo d (s.me.pc + word len)) s := by
  have ha : plainRegs s [a] := h.mono (by simp)
  have hd : plainRegs s [d] := h.mono (by simp)
  rw [jumpReg, withOperands_plain (writes := [d]) h]
  refine jumpTo_congr _ ?_
  rw [popReads_plain ha, writeReg_plain hd, linkTo]

/-! ### Branches and jumps as jumps with a link -/

/-- The target of a branch of `len` bytes with an `n`-bit offset. -/
def branchTarget (pc : Word) (len n off : Nat) (taken : Bool) : Word :=
  if taken then pc + 2 * (BitVec.ofNat n off).signExtend 64 else pc + word len

/-- An instruction that is a branch whose condition came out as `taken`. -/
theorem exec_branch {i : Instr} {s : State} {a b len n off : Nat} {cond : Word → Word → Bool} {taken : Bool}
    (hexec : exec i s = .next (branch len a b n off cond s)) (hn : 0 < n) (h : plainRegs s [a, b])
    (ht : cond (s.me.rg a) (s.me.rg b) = taken) :
    exec i s = .next (jumpTo (branchTarget s.me.pc len n off taken) id s) := by
  rw [hexec, branch_plain h, ht, sext64_eq_signExtend hn, branchTarget]

theorem exec_branchForms {s : State} {a b : Nat} (h : plainRegs s [a, b]) (off : Nat) :
    ∀ f ∈ branchForms a b off (s.me.rg a) (s.me.rg b),
      exec f.1 s = .next (jumpTo (branchTarget s.me.pc 4 13 off f.2) id s) := by
  simp only [branchForms, List.forall_mem_cons, List.not_mem_nil, false_imp_iff, implies_true, and_true]
  refine ⟨?beq, ?bne, ?blt, ?bge, ?bltn, ?bgen, ?bany, ?bnone⟩ <;> exact exec_branch rfl (by decide) h rfl

theorem exec_shortBranchForms {s : State} {a : Nat} (h : plainRegs s [a]) (off : Nat) :
    ∀ f ∈ shortBranchForms a off (s.me.rg a), exec f.1 s = .next (jumpTo (branchTarget s.me.pc 2 5 off f.2) id s) := by
  have h0 : plainRegs s [a, 0] := h.mono (by simp)
  simp only [shortBranchForms, List.forall_mem_cons, List.not_mem_nil, false_imp_iff, implies_true, and_true]
  exact ⟨exec_branch rfl (by decide) h0 rfl, exec_branch rfl (by decide) h0 rfl⟩

/-- The target of J and JAL (R114). -/
def nearTarget (pc : Word) (off : Nat) : Word := pc + 2 * (BitVec.ofNat 26 off).signExtend 64

theorem exec_j (off : Nat) (s : State) : exec (.j off) s = .next (jumpTo (nearTarget s.me.pc off) id s) := by
  rw [nearTarget, ← sext64_eq_signExtend (by decide)]
  rfl

theorem exec_jal (off : Nat) (s : State) :
    exec (.jal off) s = .next (jumpTo (nearTarget s.me.pc off) (linkTo 1 (s.me.pc + 4)) s) := by
  rw [nearTarget, ← sext64_eq_signExtend (by decide)]
  rfl

theorem exec_jalr {s : State} {d a : Nat} (h : plainRegs s [d, a]) (i : Nat) :
    exec (.jalr d a i) s = .next (jumpTo (s.me.rg a + imm16 i) (linkTo d (s.me.pc + 4)) s) := by
  rw [← sext64_16]
  exact congrArg _ (jumpReg_plain h 4 _)

theorem linkTo_zero (x : Word) (s : State) : linkTo 0 x s = s.onMe id := rfl

theorem goTo_onMe_id (pc : Word) (occ : Nat) (s : State) : goTo pc occ (s.onMe id) = goTo pc occ s := by
  rw [State.onMe, goTo_setMe, goTo_eq]
  rfl

/-- C.JR discards its link. -/
theorem exec_cJr {s : State} {a : Nat} (h : plainRegs s [a]) :
    exec (.cJr a) s = .next (jumpTo (s.me.rg a) (linkTo 0 (s.me.pc + 2)) s) := by
  have h0 : plainRegs s [0, a] := h.mono (by simp)
  have hjump := jumpReg_plain h0 2 0
  rw [show s.me.rg a + 0 = s.me.rg a from BitVec.add_zero _] at hjump
  exact congrArg _ hjump

/-! ### The effects of a jump -/

/-- A jump without a link to a good target. -/
theorem noResult_of_jump {i : Instr} {s : State} {tgt : Word} (hexec : exec i s = .next (jumpTo tgt id s)) (h : goodTarget tgt) :
    ∃ t, exec i s = .next t ∧ NoResult tgt 4 s t :=
  ⟨_, hexec, jumpTo_of_goodTarget h id s ▸ goTo_noResult tgt 4 s⟩

/-- A jump with a link to a good target. -/
theorem links_of_jump {i : Instr} {s : State} {tgt x : Word} {d : Nat} (hexec : exec i s = .next (jumpTo tgt (linkTo d x) s))
    (h : goodTarget tgt) :
    ∃ t, exec i s = .next t ∧ WritesG d x s t ∧ CompletedAt tgt 4 s t ∧ CtxKeptButG s t ∧ OnlyThread s t :=
  ⟨_, hexec, jumpTo_of_goodTarget h (linkTo d x) s ▸ goTo_writesG tgt 4 d x s⟩

/-- A jump to a target that is not good, whatever its link (R22). -/
theorem traps_of_jump {i : Instr} {s : State} {tgt : Word} {link : State → State}
    (hexec : exec i s = .next (jumpTo tgt link s)) :
    (2 ^ 57 ≤ tgt.toNat → exec i s = .next (trapE .addressNoncanonical tgt s)) ∧
    (tgt.toNat < 2 ^ 57 → tgt.toNat % 2 = 1 → exec i s = .next (trapE .fetchMisaligned tgt s)) :=
  ⟨fun hhigh => hexec.trans (congrArg _ (jumpTo_noncanonical hhigh link s)),
    fun hcanon hodd => hexec.trans (congrArg _ (jumpTo_misaligned hcanon hodd link s))⟩

/-! ### The parts of control flow -/

theorem branchResults : BranchResults := by
  intro s a b off h
  have ha : plainRegs s [a] := h.mono (by simp)
  exact ⟨fun f hf hgood => noResult_of_jump (exec_branchForms h off f hf) hgood,
    fun f hf hgood => noResult_of_jump (exec_shortBranchForms ha off f hf) hgood⟩

theorem jumpResults : JumpResults := by
  intro s d a off i h
  have ha : plainRegs s [a] := h.mono (by simp)
  refine ⟨noResult_of_jump (exec_j off s), links_of_jump (exec_jal off s), links_of_jump (exec_jalr h i), fun hgood => ?_⟩
  refine ⟨_, exec_cJr ha, ?_⟩
  rw [jumpTo_of_goodTarget hgood, linkTo_zero, goTo_onMe_id]
  exact goTo_noResult ..

theorem targetTraps : TargetTraps := by
  intro s d a b off i h
  have hda : plainRegs s [d, a] := h.mono (by simp)
  have hab : plainRegs s [a, b] := h.mono (by simp)
  have ha : plainRegs s [a] := hda.mono (by simp)
  exact ⟨traps_of_jump (exec_j off s), traps_of_jump (exec_jal off s), traps_of_jump (exec_jalr hda i),
    traps_of_jump (exec_cJr ha), fun f hf => traps_of_jump (exec_branchForms hab off f hf),
    fun f hf => traps_of_jump (exec_shortBranchForms ha off f hf)⟩

end Sys2Proof.Machine

/-- Settles O2: every immediate form is a computation over plain fields; what is left is that its result, as the model computes
it, is the value that R111 to R113 give. -/
theorem immediateResults : Obligations.ImmediateResults := by
  intro s d a i j lo hi h _ hlo hhi
  have hd : plainRegs s [d] := h.mono (by simp)
  simp only [immediateForms, List.forall_mem_cons, List.not_mem_nil, false_imp_iff, implies_true, and_true]
  refine ⟨?slli, ?srli, ?srai, ?roli, ?addi, ?andi, ?ori, ?xori, ?slti, ?lui, ?addpc⟩
  case slli => exact exec_compute_result rfl h rfl
  case srli => exact exec_compute_result rfl h rfl
  case srai => exact exec_compute_result rfl h (sraBy_eq _ _)
  case roli => exact exec_compute_result rfl h (rolBy_eq _ (by omega))
  case addi => exact exec_compute_result rfl h (congrArg (s.me.rg a + ·) (sext64_16 i))
  case andi => exact exec_compute_result rfl h rfl
  case ori => exact exec_compute_result rfl h rfl
  case xori => exact exec_compute_result rfl h rfl
  case slti => exact exec_compute_result rfl h (by rw [slt_imm16]; rfl)
  case lui => exact exec_compute_result rfl hd (by rw [sext64_eq_signExtend (by decide), ofNat_mul_65536])
  case addpc => exact exec_compute_result rfl hd (by rw [sext64_eq_signExtend (by decide), BitVec.mul_comm])

/-- Settles O5: each branch and jump is `jumpTo` of its target with its link, and `jumpTo` goes to a good target and traps on
any other. -/
theorem controlFlow : Obligations.ControlFlow := ⟨branchResults, jumpResults, targetTraps⟩
end

section
/-! Vector class (chapter 07): what reads after an element is replaced, then the integer lanes (R163, R164) and the moves
(R170). -/

open Sys2Proof.Machine Sys2Proof.Claims

namespace Sys2Proof.Machine

/-! ### Bit fields of a number -/

theorem testBit_bits (x lo n i : Nat) : (bits x lo n).testBit i = (decide (i < n) && x.testBit (lo + i)) := by
  rw [bits, Nat.testBit_mod_two_pow, Nat.testBit_div_two_pow, Nat.add_comm]

theorem bits_lt (x lo n : Nat) : bits x lo n < 2 ^ n := Nat.mod_lt _ (Nat.two_pow_pos n)

/-- A number is what lies above a field, the field, and what lies below it. -/
theorem eq_above_field_below (x lo n : Nat) :
    x = 2 ^ lo * (2 ^ n * (x / 2 ^ (lo + n)) + bits x lo n) + x % 2 ^ lo := by
  rw [bits, pow_add, ← Nat.div_div_eq_div_mul, Nat.div_add_mod, Nat.div_add_mod]

/-- Replacing a field keeps what lies above and below it. -/
theorem setBits_eq_above_field_below (x lo n v : Nat) :
    setBits x lo n v = 2 ^ lo * (2 ^ n * (x / 2 ^ (lo + n)) + v % 2 ^ n) + x % 2 ^ lo := by
  have hx := eq_above_field_below x lo n
  rw [Nat.mul_add, Nat.mul_comm (2 ^ lo) (bits x lo n)] at hx
  rw [setBits, Nat.mul_add, Nat.mul_comm (2 ^ lo) (v % 2 ^ n)]
  omega

theorem testBit_setBits (x lo n v i : Nat) :
    (setBits x lo n v).testBit i = if lo ≤ i ∧ i < lo + n then v.testBit (i - lo) else x.testBit i := by
  rw [setBits_eq_above_field_below, Nat.testBit_two_pow_mul_add _ (Nat.mod_lt _ (Nat.two_pow_pos lo)),
    Nat.testBit_two_pow_mul_add _ (Nat.mod_lt _ (Nat.two_pow_pos n)), Nat.testBit_mod_two_pow, Nat.testBit_mod_two_pow,
    Nat.testBit_div_two_pow]
  by_cases hlo : i < lo
  · simp [hlo, Nat.not_le.2 hlo]
  · by_cases hn : i - lo < n
    · simp [hlo, hn, show lo ≤ i ∧ i < lo + n by omega]
    · simp [hlo, hn, show ¬(lo ≤ i ∧ i < lo + n) by omega, show i - lo - n + (lo + n) = i by omega]

/-! ### Elements of a vector register (R159, R160) -/

theorem elemOf_lt (v : W256) (w j : Nat) : elemOf v w j < 2 ^ (8 * w) := bits_lt ..

theorem elemOf_mod (v : W256) (w j : Nat) : elemOf v w j % 2 ^ (8 * w) = elemOf v w j := Nat.mod_eq_of_lt (elemOf_lt v w j)

/-- Bit `i` of the field of element `k` lies in the field of element `j` only where the two are one. -/
theorem inElem_iff {w i : Nat} (j k : Nat) (hi : i < 8 * w) :
    8 * w * j ≤ 8 * w * k + i ∧ 8 * w * k + i < 8 * w * j + 8 * w ↔ k = j := by
  constructor
  · rintro ⟨hlow, hhigh⟩
    have hkj : k < j + 1 := Nat.lt_of_mul_lt_mul_left (a := 8 * w) (by rw [Nat.mul_succ]; omega)
    have hjk : j < k + 1 := Nat.lt_of_mul_lt_mul_left (a := 8 * w) (by rw [Nat.mul_succ]; omega)
    omega
  · rintro rfl
    omega

/-- An element of a register lies inside its 32 bytes. -/
theorem elem_fits {w k : Nat} (hk : k < 32 / w) : k * w + w ≤ 32 :=
  Nat.succ_mul k w ▸ Nat.mul_le_of_le_div w _ _ hk

/-- The bits of an element lie inside the register. -/
theorem elem_bit_lt {w k i : Nat} (hk : k < 32 / w) (hi : i < 8 * w) : 8 * w * k + i < 256 := by
  have hfit := elem_fits hk
  have hbits : 8 * w * k = 8 * (k * w) := by ring
  omega

/-- What an element reads after one is replaced. -/
theorem elemOf_setElem (v : W256) {w k : Nat} (j x : Nat) (hk : k < 32 / w) :
    elemOf (setElem v w j x) w k = if k = j then x % 2 ^ (8 * w) else elemOf v w k := by
  refine Nat.eq_of_testBit_eq fun i => ?_
  by_cases hi : i < 8 * w
  · have hin := elem_bit_lt hk hi
    rw [elemOf, setElem, testBit_bits, BitVec.toNat_ofNat, Nat.testBit_mod_two_pow, testBit_setBits]
    simp only [inElem_iff j k hi, hi, hin, decide_true, Bool.true_and]
    split
    case isTrue hkj => simp [hkj, hi, Nat.testBit_mod_two_pow]
    case isFalse => simp [elemOf, testBit_bits, hi]
  · have hout : ∀ y < 2 ^ (8 * w), y.testBit i = false := fun y hy =>
      Nat.testBit_lt_two_pow (hy.trans_le (Nat.pow_le_pow_right (by omega) (by omega)))
    rw [hout _ (elemOf_lt ..), hout]
    split
    · exact Nat.mod_lt _ (Nat.two_pow_pos _)
    · exact elemOf_lt ..

/-- What an element reads after those that a list names are replaced. -/
theorem elemOf_foldl_setElem (f : Nat → Nat) {w k : Nat} (hk : k < 32 / w) (js : List Nat) (v : W256) :
    elemOf (js.foldl (fun v j => setElem v w j (f j)) v) w k = if k ∈ js then f k % 2 ^ (8 * w) else elemOf v w k := by
  induction js generalizing v with
  | nil => simp
  | cons j js ih =>
    rw [List.foldl_cons, ih, elemOf_setElem v j _ hk]
    by_cases hmem : k ∈ js
    · simp [hmem]
    · by_cases hkj : k = j <;> simp [hmem, hkj]

theorem mem_activeElems (p : W32) {w k : Nat} (hk : k < 32 / w) : k ∈ activeElems p w ↔ p.getLsbD (k * w) = true := by
  simp [activeElems, activeIn, hk]

/-- The elements of a register whose active elements are replaced. -/
theorem elemOf_mapLanes (p : W32) (old : W256) (f : Nat → Nat) {w k : Nat} (hk : k < 32 / w) :
    elemOf (mapLanes p w old f) w k = if p.getLsbD (k * w) then f k % 2 ^ (8 * w) else elemOf old w k := by
  rw [mapLanes, elemOf_foldl_setElem f hk]
  simp only [mem_activeElems p hk]

/-- Under the predicate that is all ones every element is active. -/
theorem getLsbD_allOnes_elem {w k : Nat} (hk : k < 32 / w) : (BitVec.allOnes 32).getLsbD (k * w) = true := by
  have hfit := elem_fits hk
  have hw : 0 < w := Nat.pos_of_ne_zero fun h0 => by simp [h0] at hk
  rw [BitVec.getLsbD_allOnes, decide_eq_true_eq]
  omega

/-! ### An instruction that writes a v register -/

/-- The whole effect of a vector instruction: the active elements of vd, the PC, and the frame. -/
def LanesResult (occ d w : Nat) (p : W32) (f : Nat → Nat) (s t : State) : Prop :=
  WritesLanes d w p f s t ∧ Completed 4 occ s t ∧ CtxKeptButV s t ∧ OnlyThread s t

/-- A v register written, and the instruction completes. -/
theorem retire_lanesResult {occ d w : Nat} {p : W32} {f : Nat → Nat} {v : W256} (s : State)
    (hv : ∀ j < 32 / w, elemOf v w j = if p.getLsbD (j * w) then f j else elemOf (s.me.rv d) w j) :
    LanesResult occ d w p f s (retire 4 occ (s.setMe (s.me.wv d v))) := by
  rw [retire_eq, goTo_setMe]
  refine ⟨⟨fun j hj => ?_, fun r hr => ?_⟩, ⟨by simp, by simp, by simp⟩, ?_, s.onlyThread_afterOwn _ _⟩
  · simpa [Ctx.rv, Ctx.wv] using hv j hj
  · simp [Ctx.rv, Ctx.wv, Map.get_set_ne _ _ _ hr]
  · unfold CtxKeptButV
    rw [State.afterOwn_me]
    rfl

/-! ### Integers as codes (R82, R163) -/

theorem typeBits_eq {t : Nat} (ht : t < 8) : typeBits t = 8 * typeWidth t := by
  rw [typeBits, typeWidth, if_neg (by omega), if_neg (by omega), if_pos ht, if_pos ht]

theorem typeBits_pos {t : Nat} (ht : t < 8) : 0 < typeBits t := by
  rw [typeBits_eq ht, typeWidth, if_pos ht]
  positivity

theorem isSignedType_eq_true {t : Nat} : isSignedType t = true ↔ t < 4 := decide_eq_true_iff

/-- An element's integer value, as the bit vector of its code reads. -/
theorem intValue_eq (t x : Nat) : intValue t x =
    if isSignedType t then (BitVec.ofNat (typeBits t) x).toInt else ((BitVec.ofNat (typeBits t) x).toNat : Int) := by
  rw [intValue]
  split
  case isTrue hs =>
    have := isSignedType_eq_true.1 hs
    exact signedNat_eq_toInt (typeBits_pos (by omega)) x
  case isFalse => rw [BitVec.toNat_ofNat]

/-- A result taken modulo 2^N, as a bit vector. -/
theorem toNat_emod_two_pow (z : Int) (n : Nat) : (z % 2 ^ n).toNat = (BitVec.ofInt n z).toNat := by
  rw [BitVec.toNat_ofInt]
  norm_cast

theorem intCode_eq (t : Nat) (z : Int) : intCode t z = (BitVec.ofInt (typeBits t) z).toNat := toNat_emod_two_pow z _

theorem intCode_mod (t : Nat) (z : Int) : intCode t z % 2 ^ typeBits t = intCode t z := by
  rw [intCode_eq, Nat.mod_eq_of_lt (BitVec.isLt _)]

/-- Reading a code and writing the value again changes no bit of the element. -/
theorem ofInt_intValue (t x : Nat) : BitVec.ofInt (typeBits t) (intValue t x) = BitVec.ofNat (typeBits t) x := by
  rw [intValue_eq]
  split
  · exact BitVec.ofInt_toInt
  · rw [BitVec.ofInt_natCast, BitVec.ofNat_toNat, BitVec.setWidth_eq]

theorem intCode_intValue {t x : Nat} (hx : x < 2 ^ typeBits t) : intCode t (intValue t x) = x := by
  rw [intCode_eq, ofInt_intValue, BitVec.toNat_ofNat, Nat.mod_eq_of_lt hx]

theorem intCode_ite {t x y : Nat} (hx : x < 2 ^ typeBits t) (hy : y < 2 ^ typeBits t) (c : Prop) [Decidable c] :
    intCode t (if c then intValue t x else intValue t y) = if c then x else y := by
  rw [apply_ite (intCode t), intCode_intValue hx, intCode_intValue hy]

/-- The order of integer values is the signed or natural order of their codes. -/
theorem lt_codes_eq (t x y : Nat) :
    (if isSignedType t then (BitVec.ofNat (typeBits t) x).slt (BitVec.ofNat (typeBits t) y)
      else (BitVec.ofNat (typeBits t) x).ult (BitVec.ofNat (typeBits t) y)) = decide (intValue t x < intValue t y) := by
  rw [intValue_eq, intValue_eq]
  split
  · rfl
  · simp only [BitVec.ult, Nat.cast_lt]

theorem intCode_add (t x y : Nat) : intCode t (intValue t x + intValue t y) = (x + y) % 2 ^ typeBits t := by
  rw [intCode_eq, BitVec.ofInt_add, ofInt_intValue, ofInt_intValue, ← BitVec.ofNat_add, BitVec.toNat_ofNat]

theorem intCode_neg (t x : Nat) : intCode t (-intValue t x) = (-BitVec.ofNat (typeBits t) x).toNat := by
  rw [intCode_eq, BitVec.ofInt_neg, ofInt_intValue]

theorem intCode_sub (t x y : Nat) : intCode t (intValue t x - intValue t y) =
    (BitVec.ofNat (typeBits t) x - BitVec.ofNat (typeBits t) y).toNat := by
  rw [intCode_eq, Int.sub_eq_add_neg, BitVec.ofInt_add, BitVec.ofInt_neg, ofInt_intValue, ofInt_intValue,
    ← BitVec.sub_eq_add_neg]

theorem intCode_mul (t x y : Nat) : intCode t (intValue t x * intValue t y) = x * y % 2 ^ typeBits t := by
  rw [intCode_eq, BitVec.ofInt_mul, ofInt_intValue, ofInt_intValue, ← BitVec.ofNat_mul, BitVec.toNat_ofNat]

theorem toNat_ofNat_shiftLeft {n x : Nat} (hx : x < 2 ^ n) (k : Nat) : (BitVec.ofNat n x <<< k).toNat = x * 2 ^ k % 2 ^ n := by
  rw [BitVec.toNat_shiftLeft, BitVec.toNat_ofNat, Nat.mod_eq_of_lt hx, Nat.shiftLeft_eq]

/-- Dividing a value by a power of two, rounding down, is the shift of R163: arithmetic where the type is signed. -/
theorem intCode_div_two_pow (t x k : Nat) : intCode t (intValue t x / 2 ^ k) =
    (if isSignedType t then (BitVec.ofNat (typeBits t) x).sshiftRight k else BitVec.ofNat (typeBits t) x >>> k).toNat := by
  rw [intCode_eq, intValue_eq]
  split
  case isTrue =>
    have hshift := BitVec.toInt_sshiftRight (x := BitVec.ofNat (typeBits t) x) (n := k)
    rw [Int.shiftRight_eq_div_pow] at hshift
    push_cast at hshift
    rw [← hshift, BitVec.ofInt_toInt]
  case isFalse =>
    have hshift := BitVec.toNat_ushiftRight (BitVec.ofNat (typeBits t) x) k
    rw [Nat.shiftRight_eq_div_pow] at hshift
    rw [show ((BitVec.ofNat (typeBits t) x).toNat : Int) / 2 ^ k = ((BitVec.ofNat (typeBits t) x >>> k).toNat : Nat) by
      rw [hshift]; push_cast; rfl]
    rw [BitVec.ofInt_natCast, BitVec.ofNat_toNat, BitVec.setWidth_eq]

/-- A signed value is negative where its code's highest bit is set. -/
theorem intValue_neg_iff {t : Nat} (ht : t < 4) (x : Nat) : intValue t x < 0 ↔ (BitVec.ofNat (typeBits t) x).msb = true := by
  rw [intValue_eq, if_pos (isSignedType_eq_true.2 ht), BitVec.msb_eq_toInt, decide_eq_true_eq]

/-! ### Integer lane instructions (R163) -/

/-- The instruction makes each active element of vd the value of `g` on the codes of va's and vb's element. -/
def ComputesLanes (i : Instr) (occ d a b t q : Nat) (g : Nat → Nat → Nat) : Prop :=
  ∃ f, (∀ s, exec i s = .next (intLanes occ d a b t q f s)) ∧
    ∀ x < 2 ^ typeBits t, ∀ y < 2 ^ typeBits t, f x y % 2 ^ typeBits t = g x y

theorem ComputesLanes.result {i : Instr} {occ d a b t q : Nat} {g : Nat → Nat → Nat} (h : ComputesLanes i occ d a b t q g)
    (ht : t < 8) (hd : d < 16) (ha : a < 16) (hb : b < 16) (s : State) :
    ∃ u, exec i s = .next u ∧ LanesResult occ d (typeWidth t) (s.me.rp q)
      (fun j => g (elemOf (s.me.rv a) (typeWidth t) j) (elemOf (s.me.rv b) (typeWidth t) j)) s u := by
  obtain ⟨f, hexec, hf⟩ := h
  rw [typeBits_eq ht] at hf
  refine ⟨_, hexec s, ?_⟩
  rw [intLanes, checkRegs, if_pos (by simp [isV, hd, ha, hb])]
  refine retire_lanesResult s fun j hj => ?_
  rw [elemOf_mapLanes _ _ _ hj, hf _ (elemOf_lt ..) _ (elemOf_lt ..)]

theorem intForms_computeLanes (d a b t q : Nat) :
    ∀ f ∈ intForms d a b t q (typeBits t) (isSignedType t), ComputesLanes f.1 f.2.1 d a b t q f.2.2 := by
  simp only [intForms, lt_codes_eq, decide_eq_true_eq, List.forall_mem_cons, List.not_mem_nil, false_imp_iff, implies_true,
    and_true]
  refine ⟨?add, ?sub, ?mul, ?min, ?max, ?and, ?or, ?xor, ?shl, ?shr⟩ <;> refine ⟨_, fun _ => rfl, fun x hx y hy => ?_⟩
  case add => exact (intCode_mod ..).trans (intCode_add t x y)
  case sub => exact (intCode_mod ..).trans (intCode_sub t x y)
  case mul => exact (intCode_mod ..).trans (intCode_mul t x y)
  case min => exact (intCode_mod ..).trans (intCode_ite hx hy _)
  case max => exact (intCode_mod ..).trans (intCode_ite hy hx _)
  case and => exact Nat.mod_eq_of_lt (Nat.and_lt_two_pow x hy)
  case or => exact Nat.mod_eq_of_lt (Nat.or_lt_two_pow hx hy)
  case xor => exact Nat.mod_eq_of_lt (Nat.xor_lt_two_pow hx hy)
  case shl => exact (Nat.mod_mod ..).trans (toNat_ofNat_shiftLeft hx _).symm
  case shr => exact (intCode_mod ..).trans (intCode_div_two_pow t x (y % typeBits t))

theorem intUnaryForms_computeLanes (d a q : Nat) {t : Nat} (ht : t < 4) :
    ∀ f ∈ intUnaryForms d a t q (typeBits t), ComputesLanes f.1 4 d a a t q (fun x _ => f.2 x) := by
  simp only [intUnaryForms, List.forall_mem_cons, List.not_mem_nil, false_imp_iff, implies_true, and_true]
  refine ⟨?abs, ?neg⟩ <;> refine ⟨_, fun _ => rfl, fun x hx y _ => ?_⟩
  case abs =>
    rw [intOp, intCode_mod, apply_ite (intCode t), intCode_intValue hx, intCode_neg]
    simp only [intValue_neg_iff ht]
  case neg => exact (intCode_mod ..).trans (intCode_neg t x)

/-! ### Four-way dot products (R164) -/

theorem dot4_eq_sum (t : Nat) (a b : W256) (j : Nat) : dot4 t a b j = ((List.range 4).map fun m =>
    intValue t (elemOf a (typeWidth t) (4 * j + m)) * intValue t (elemOf b (typeWidth t) (4 * j + m))).sum := by
  rw [List.sum_eq_foldl, List.foldl_map, dot4]

theorem vdot4_result {d a b : Nat} (t q : Nat) (hd : d < 16) (ha : a < 16) (hb : b < 16) (s : State) :
    ∃ u, exec (.vdot4 d a b t q) s = .next u ∧ LanesResult 8 d (4 * typeWidth t) (s.me.rp q)
      (fun j => (((elemOf (s.me.rv d) (4 * typeWidth t) j : Int) + dot4 t (s.me.rv a) (s.me.rv b) j)
        % 2 ^ (32 * typeWidth t)).toNat) s u := by
  refine ⟨_, rfl, ?_⟩
  rw [checkRegs, if_pos (by simp [isV, hd, ha, hb])]
  refine retire_lanesResult s fun j hj => ?_
  rw [elemOf_mapLanes _ _ _ hj, show 8 * (4 * typeWidth t) = 32 * typeWidth t by omega]
  exact congrArg (ite _ · _) (Nat.mod_eq_of_lt (toNat_emod_two_pow _ _ ▸ BitVec.isLt _))

/-! ### Moves (R170) -/

theorem vsel_result {d a b t : Nat} (q : Nat) (ht : t < 12) (hd : d < 16) (ha : a < 16) (hb : b < 16) (s : State) :
    ∃ u, exec (.vsel d a b t q) s = .next u ∧ LanesResult 4 d (typeWidth t) (BitVec.allOnes 32)
      (fun j => if (s.me.rp q).getLsbD (j * typeWidth t) then elemOf (s.me.rv a) (typeWidth t) j
        else elemOf (s.me.rv b) (typeWidth t) j) s u := by
  refine ⟨_, rfl, ?_⟩
  rw [checkRegs, if_pos (by simp [isV, hd, ha, hb]), moveCheck, if_neg (by omega)]
  refine retire_lanesResult s fun j hj => ?_
  rw [elemOf_foldl_setElem _ hj, if_pos (List.mem_range.2 hj), if_pos (getLsbD_allOnes_elem hj),
    apply_ite (· % 2 ^ (8 * typeWidth t)), elemOf_mod, elemOf_mod, activeIn]

theorem vsplat_result {d a t : Nat} (q : Nat) (ht : t < 12) (hd : d < 16) {s : State} (h : plainRegs s [a]) :
    ∃ u, exec (.vsplat d a t q) s = .next u ∧ LanesResult 4 d (typeWidth t) (s.me.rp q)
      (fun _ => (s.me.rg a).toNat % 2 ^ (8 * typeWidth t)) s u := by
  refine ⟨_, rfl, ?_⟩
  rw [checkRegs, if_pos (by simp [isV, hd]), moveCheck, if_neg (by omega), withOperands_plain (writes := []) h,
    popReads_plain h]
  exact retire_lanesResult s fun j hj => elemOf_mapLanes _ _ _ hj

theorem vperm_result {d a b t : Nat} (q : Nat) (ht : t < 12) (hd : d < 16) (ha : a < 16) (hb : b < 16) (s : State) :
    ∃ u, exec (.vperm d a b t q) s = .next u ∧ LanesResult 4 d (typeWidth t) (s.me.rp q)
      (fun j => if elemOf (s.me.rv b) (typeWidth t) j < 32 / typeWidth t
        then elemOf (s.me.rv a) (typeWidth t) (elemOf (s.me.rv b) (typeWidth t) j) else 0) s u := by
  refine ⟨_, rfl, ?_⟩
  rw [checkRegs, if_pos (by simp [isV, hd, ha, hb]), moveCheck, if_neg (by omega)]
  refine retire_lanesResult s fun j hj => ?_
  rw [elemOf_mapLanes _ _ _ hj]
  refine congrArg (ite _ · _) ?_
  rw [apply_ite (· % 2 ^ (8 * typeWidth t)), elemOf_mod, Nat.zero_mod, ← ite_not]
  simp only [Nat.not_le]

end Sys2Proof.Machine

/-- Settles O13: each form is `intLanes` of a function that, on the codes of an element, is the one R163 gives; VDOT4 sums the
same four products (R164). -/
theorem integerLanes : Obligations.IntegerLanes := by
  intro s d a b t q hd ha hb
  refine ⟨fun ht f hf => ?forms, fun ht f hf => ?unaryForms, fun _ => ?dot⟩
  case forms =>
    rw [← typeBits_eq ht] at hf
    exact (intForms_computeLanes d a b t q f hf).result ht hd ha hb s
  case unaryForms =>
    rw [← typeBits_eq (by omega)] at hf
    exact (intUnaryForms_computeLanes d a q ht f hf).result (by omega) hd ha ha s
  case dot =>
    simp only [← dot4_eq_sum]
    exact vdot4_result t q hd ha hb s

/-- Settles O17: each move's register reads, element by element, what R170 says. -/
theorem vectorMoves : Obligations.VectorMoves := by
  intro s d a b t q h hd ht
  exact ⟨fun ha hb => vsel_result q ht hd ha hb s, vsplat_result q ht hd h, fun ha hb => vperm_result q ht hd ha hb s⟩
end
